-- ==== Sys2Proof/Word.lean ====
section
/-! DEFINITION. The plainest types of the model: bytes, counters, instants. -/

namespace Sys2Proof

/-- One byte of a packet, a parameter block or a memory. -/
abbrev Byte := BitVec 8

/-- A counter that wraps modulo 2^64 (R361). -/
abbrev Ctr := BitVec 64

/-- A 32-bit word that wraps: RTP time-stamps, SSRCs (R95, R96). -/
abbrev W32 := BitVec 32

/-- A 16-bit word that wraps: RTP sequence numbers (R96). -/
abbrev W16 := BitVec 16

/-- An instant or a duration, counted in units of 2^-16 ns (the fraction unit of R6), from TAI 0.
It is a natural number, so an instant formed by subtraction that would lie before TAI 0 is TAI 0, as R6 says. -/
abbrev Instant := Nat

/-- n nanoseconds as a duration. -/
def ns (n : Nat) : Instant := n * 65536

/-- n milliseconds as a duration. -/
def ms (n : Nat) : Instant := ns (n * 1000000)

/-- n seconds as a duration. -/
def sec (n : Nat) : Instant := ns (n * 1000000000)

/-- The whole nanoseconds of an instant. -/
def nsOf (t : Instant) : Nat := t / 65536
/-- Whole nanoseconds of an instant, as an instant. -/
def wholeNs (t : Instant) : Instant := ns (nsOf t)

/-- The whole TAI seconds of an instant. -/
def secOf (t : Instant) : Nat := t / 65536000000000

end Sys2Proof
end

