-- ==== Sys2Proof/Machine/Types/Common.lean ====
section
/-! DEFINITION. Types shared by every chapter: status codes, event records, small tables. -/

namespace Sys2Proof.Machine

/-- A table of objects by number: pairs with strictly rising numbers (Machine/Tab.lean keeps the order). -/
abbrev Tab (α : Type) := List (Nat × α)

/-- The status codes of Table 2.9 (R54). -/
inductive Status where
  | ok | badLength | badOpcode | reservedNonzero | badValue | resourceHeld | badSite | siteFenced | settingMode
  | deadlinePassed | tooLate | notExecuted | busy | notFound | exists_ | noClaim | certInvalid | certNotEnrolled
  | certExpired | handshakeSignature | sessionLimit | sessionExpired | badVersion | internal
  | tableFull | poolExhausted | badDependence | noPlacement | beatOverrun
  | contextFull | pinFull | badLayerMap | duplicateSsrc
  | keySpent | badKeyLength | limitTooHigh | keyContextFull | mkiInUse | sealFailed
  | frameExceedsWindow | queueFull | rateUnreachable | badPolicer
  | profileUnsupported | levelExceeded | decodeCapacity | refSlotsFull
  | tooManyLayers | badGeometry | regionLimit | composeCapacity | linebufShort
  | encodeCapacity | sizeUnsupported | gangUnavailable | codecUnsupported
  | legCapacity | stageUnsupported | cycleBudget | rateUnsupported
  | tieLinesFull | badRamp | crossDieRoute
  | beaconDisabled | badSubcarrier | payloadTooLong
  | timeNotLocked | gainLimit | profileConflict | triggerPast
  | auditBusy | badAddress
  | modeUnsupported | opticsAbsent | laneInUse | cmisError
  | subscriberLimit | badInterval
  | otpExhausted | imageSignature | imageRollback | unlockRefused | testRunning
deriving DecidableEq, Repr, Inhabited

/-- The contents of the error block of R51, with the status that it explains. -/
structure Err where
  status : Status
  off    : Nat := 0xFFFF
  site   : Nat := 0xFFFFFFFF
  holderClaim   : Nat := 0
  holderSession : Nat := 0
  holderOpcode  : Nat := 0
  detail : Nat := 0
deriving DecidableEq, Repr, Inhabited

/-- An event record (R350): stamp, source, code and the 120 data bits. `pkg` is the IO die that raised it, for the
order of R351. -/
structure EventRec where
  stamp  : Instant
  source : Nat
  code   : Nat
  data   : BitVec 120 := 0
  pkg    : Nat := 0
deriving DecidableEq, Repr, Inhabited

/-- A rate limiter of an event that fires at most once in an interval: when it last fired and the happenings since. -/
structure Limiter where
  last    : Option Instant := none
  pending : Nat := 0
  aux     : Nat := 0
deriving DecidableEq, Repr, Inhabited

/-- An uncompressed picture: three planes of samples in raster order, 4:2:0 (R176). -/
structure Picture where
  w : Nat := 0
  h : Nat := 0
  depth : Nat := 8
  y  : List Nat := []
  cb : List Nat := []
  cr : List Nat := []
deriving DecidableEq, Repr, Inhabited

end Sys2Proof.Machine
end

