-- ==== Sys2Proof/Machine/Bits.lean ====
section
/-! DEFINITION. Byte order, bit fields, sign and rounding (R49), and RTP sequence order (R96). -/

namespace Sys2Proof.Machine

/-- A big-endian number (R49). -/
def beNat (b : List Byte) : Nat := b.foldl (fun a x => a * 256 + x.toNat) 0

/-- n bytes of a number in network byte order (R49). -/
def beBytes : Nat → Nat → List Byte
  | 0, _ => []
  | n + 1, v => BitVec.ofNat 8 (v / 256 ^ n) :: beBytes n v

/-- n bytes of a signed number (two's complement, R49). -/
def beInt (n : Nat) (v : Int) : List Byte := beBytes n (v % (256 ^ n : Nat)).toNat

/-- A field of `bits` bits read as two's complement. -/
def signed (bits v : Nat) : Int := if v < 2 ^ (bits - 1) then (v : Int) else (v : Int) - (2 ^ bits : Nat)

/-- Bits hi down to lo of a number. -/
def bitsOf (v hi lo : Nat) : Nat := v / 2 ^ lo % 2 ^ (hi + 1 - lo)

/-- Bit i of a number. -/
def bitOf (v i : Nat) : Bool := v.testBit i

def b2n (b : Bool) : Nat := if b then 1 else 0

/-- n zero bytes. -/
def zeros (n : Nat) : List Byte := List.replicate n 0

/-- n saturated to `bits` bits. -/
def sat (bits n : Nat) : Nat := min n (2 ^ bits - 1)

/-- A signed number clamped to a range. -/
def clampI (lo hi x : Int) : Int := if x < lo then lo else if hi < x then hi else x

/-- Saturation to n bits of two's complement. -/
def satI (n : Nat) (x : Int) : Int := clampI (-(2 ^ (n - 1) : Nat)) ((2 ^ (n - 1) : Nat) - 1) x

/-- x / d rounded to nearest, ties away from zero (R49). -/
def roundDivAway (x : Int) (d : Nat) : Int :=
  if 0 ≤ x then (2 * x + d) / (2 * d) else -((-2 * x + d) / (2 * d))

/-- floor (x / d). -/
def floorDiv (x : Int) (d : Nat) : Int := x / (d : Int)

/-- ceil (x / d) on naturals. -/
def ceilDiv (x d : Nat) : Nat := (x + d - 1) / d

/-- a is later than b in RTP sequence order: (a − b) mod 2^16 lies in 1 to 32,767 (R96). -/
def seqAfter (a b : W16) : Bool := let d := (a - b).toNat; decide (1 ≤ d ∧ d ≤ 32767)

/-- Integer square root by bisection on `fuel` bits. -/
def isqrtAux (n : Nat) : Nat → Nat → Nat
  | 0, r => r
  | f + 1, r => let t := r + 2 ^ f; isqrtAux n f (if t * t ≤ n then t else r)

def sumI (l : List Int) : Int := l.foldl (· + ·) 0
def sumN (l : List Nat) : Nat := l.foldl (· + ·) 0
def maxN (l : List Nat) : Nat := l.foldl max 0

/-- Element i of a list, or d. -/
def nth {α : Type} (l : List α) (i : Nat) (d : α) : α := l.getD i d

/-- Whether the list rises strictly. -/
def rising : List Nat → Bool
  | [] => true
  | [_] => true
  | a :: b :: t => decide (a < b) && rising (b :: t)

/-- Whether the list has no number twice. -/
def distinct : List Nat → Bool
  | [] => true
  | a :: t => !t.contains a && distinct t

/-- Cut a list into chunks of n (n > 0), on fuel. -/
def chunks {α : Type} (n : Nat) : Nat → List α → List (List α)
  | 0, _ => []
  | f + 1, l => if l.isEmpty then [] else l.take n :: chunks n f (l.drop n)

/-- One bit step of the reflected CRC-32 of IEEE 802.3. -/
def crcBit (c : Nat) : Nat := if c % 2 = 1 then (c / 2) ^^^ 0xEDB88320 else c / 2

/-- One byte step. -/
def crcByte (c : Nat) (b : Nat) : Nat :=
  let x := c ^^^ b
  crcBit (crcBit (crcBit (crcBit (crcBit (crcBit (crcBit (crcBit x)))))))

/-- CRC-32 with the IEEE 802.3 polynomial, initial value 0xFFFFFFFF and a final inversion (R82, R189). -/
def crc32 (bytes : List Nat) : Nat := (bytes.foldl crcByte 0xFFFFFFFF) ^^^ 0xFFFFFFFF

end Sys2Proof.Machine
end

