-- ==== Sys2Proof/Machine/Crypto.lean ====
section
/-! DEFINITION. The cryptographic standards that the spec names: AES (FIPS 197) in counter, f8, CBC and Galois mode (SP 800-38, RFC 3711),
SHA-1 and SHA-384 (FIPS 180-4), HMAC (RFC 2104), HKDF (RFC 5869) and brainpoolP384r1 (RFC 5639). The spec names them and does not print them:
PRESUMED (log entry 53). Blocks, hash words and counters are natural numbers whose most significant byte comes first. -/

namespace Sys2Proof.Machine

/-- A 16-byte block: at most 16 bytes, zero-padded on the right. -/
def blockOf (b : List Byte) : Nat := beNat b * 256 ^ (16 - b.length)

/-- The 16-byte blocks of a list; the last may be shorter. -/
def blocks16 (b : List Byte) : List (List Byte) := chunks 16 b.length b

/-- The bytewise sum of two lists, as long as the shorter one. -/
def xorBytes (a b : List Byte) : List Byte := List.zipWith (· ^^^ ·) a b

/- AES. -/

/-- The S-box: entry i stands at bits 8i + 7 to 8i. -/
def sboxBits : Nat :=
  0x16bb54b00f2d99416842e6bf0d89a18cdf2855cee9871e9b948ed9691198f8e19e1dc186b95735610ef6034866b53e708a8bbd4b1f74dde8c6b4a61c2e2578ba08ae7a65eaf4566ca94ed58d6d37c8e779e4959162acd3c25c2406490a3a32e0db0b5ede14b8ee4688902a22dc4f816073195d643d7ea7c41744975fec130ccdd2f3ff1021dab6bcf5389d928f40a351a89f3c507f02f94585334d43fbaaefd0cf584c4a39becb6a5bb1fc20ed00d153842fe329b3d63b52a05a6e1b1a2c830975b227ebe28012079a059618c323c7041531d871f1e5a534ccf73f362693fdb7c072a49cafa2d4adf04759fa7dc982ca76abd7fe2b670130c56f6bf27b777c63

def subByte (x : Nat) : Nat := sboxBits >>> (8 * x) % 256

/-- The inverse of the S-box, entry i at bits 8i + 7 to 8i. -/
def unsboxBits : Nat := (List.range 256).foldl (fun a x => a + x <<< (8 * subByte x)) 0

def unsubByte (x : Nat) : Nat := unsboxBits >>> (8 * x) % 256

def subWord (w : Nat) : Nat :=
  subByte (w / 2 ^ 24 % 256) * 2 ^ 24 + subByte (w / 2 ^ 16 % 256) * 2 ^ 16 + subByte (w / 2 ^ 8 % 256) * 2 ^ 8 + subByte (w % 256)

def rotWord (w : Nat) : Nat := w % 2 ^ 24 * 2 ^ 8 + w / 2 ^ 24

def xtime (b : Nat) : Nat := if b < 128 then 2 * b else (2 * b) % 256 ^^^ 0x1B

/-- The expanded key, latest word first: `fuel` more words before those of `w`, for a key of nk words. -/
def expandKey (nk : Nat) : Nat → Nat → Nat → List Nat → List Nat
  | 0, _, _, w => w
  | fuel + 1, i, rcon, w =>
    let prev := w.headD 0
    let back := w.getD (nk - 1) 0
    if i % nk = 0 then expandKey nk fuel (i + 1) (xtime rcon) ((back ^^^ subWord (rotWord prev) ^^^ rcon * 2 ^ 24) :: w)
    else if 6 < nk ∧ i % nk = 4 then expandKey nk fuel (i + 1) rcon ((back ^^^ subWord prev) :: w)
    else expandKey nk fuel (i + 1) rcon ((back ^^^ prev) :: w)

/-- The round keys of a key of 16 or 32 bytes. -/
def roundKeys (key : List Byte) : List Nat :=
  let nk := key.length / 4
  let first := (chunks 4 nk key).map beNat
  let words := (expandKey nk (3 * nk + 28) nk 1 first.reverse).reverse
  (chunks 4 words.length words).map (fun r => r.foldl (fun a w => a * 2 ^ 32 + w) 0)

/-- Byte i of a block, from the most significant. -/
def byteAt (x i : Nat) : Nat := x >>> (8 * (15 - i)) % 256

def ofByteVals (l : List Nat) : Nat := l.foldl (fun a b => a * 256 + b) 0

/-- SubBytes and ShiftRows. -/
def subShift (x : Nat) : List Nat := (List.range 16).map (fun i => subByte (byteAt x ((i + 4 * (i % 4)) % 16)))

/-- The inverse of SubBytes and ShiftRows. -/
def unsubShift (x : Nat) : Nat := ofByteVals ((List.range 16).map (fun i => unsubByte (byteAt x ((i + 12 * (i % 4)) % 16))))

/-- MixColumns. -/
def mixColumns : List Nat → List Nat
  | a :: b :: c :: d :: rest =>
    let t := a ^^^ b ^^^ c ^^^ d
    (a ^^^ t ^^^ xtime (a ^^^ b)) :: (b ^^^ t ^^^ xtime (b ^^^ c)) :: (c ^^^ t ^^^ xtime (c ^^^ d)) :: (d ^^^ t ^^^ xtime (d ^^^ a)) ::
      mixColumns rest
  | _ => []

/-- The inverse of MixColumns, whose fourth power is the identity. -/
def unmixColumns (x : Nat) : Nat := ofByteVals (mixColumns (mixColumns (mixColumns ((List.range 16).map (byteAt x)))))

def aesRounds : List Nat → Nat → Nat
  | [], x => x
  | [k], x => ofByteVals (subShift x) ^^^ k
  | k :: ks, x => aesRounds ks (ofByteVals (mixColumns (subShift x)) ^^^ k)

/-- AES of one block under expanded round keys. -/
def aes (rk : List Nat) (x : Nat) : Nat := aesRounds rk.tail (x ^^^ rk.headD 0)

def unaesRounds : List Nat → Nat → Nat
  | [], x => x
  | [k], x => unsubShift x ^^^ k
  | k :: ks, x => unaesRounds ks (unmixColumns (unsubShift x ^^^ k))

/-- The inverse of `aes`. -/
def unaes (rk : List Nat) (x : Nat) : Nat := unaesRounds rk.reverse.tail (x ^^^ rk.getLastD 0)

/- Modes of operation: each takes the blocks of a message one at a time, so that a message can be left and taken up between blocks (R126). -/

/-- One block of counter mode: the counter block stands for the keystream; its successor differs in the lowest 32 bits, or 16 for SRTP's. -/
def ctrStep (rk : List Nat) (width : Nat) (ctr : Nat) (b : List Byte) : Nat × List Byte :=
  (ctr / 2 ^ width * 2 ^ width + (ctr + 1) % 2 ^ width, xorBytes b (beBytes 16 (aes rk ctr)))

/-- Counter mode over the blocks of a message. -/
def ctrBlocks (rk : List Nat) (width : Nat) : Nat → List (List Byte) → List Byte
  | _, [] => []
  | ctr, b :: bs => let r := ctrStep rk width ctr b; r.2 ++ ctrBlocks rk width r.1 bs

/-- Counter mode: encryption and decryption are the same. -/
def ctrCrypt (rk : List Nat) (width ctr : Nat) (m : List Byte) : List Byte := ctrBlocks rk width ctr (blocks16 m)

/-- One block of AES-f8 (RFC 3711): S(j) = E(k, IV' xor j xor S(j−1)). -/
def f8Step (rk : List Nat) (ivp : Nat) (js : Nat × Nat) (b : List Byte) : (Nat × Nat) × List Byte :=
  let s := aes rk (ivp ^^^ js.1 ^^^ js.2)
  ((js.1 + 1, s), xorBytes b (beBytes 16 s))

/-- IV' of AES-f8: the IV under the key masked with the salt, which 0x55 pads to the key's length. -/
def f8Iv (key salt : List Byte) (iv : Nat) : Nat :=
  aes (roundKeys (xorBytes key (salt ++ List.replicate (key.length - salt.length) 0x55))) iv

/-- One block of CBC encryption: the chaining block, and the block that leaves. -/
def cbcStep (rk : List Nat) (prev : Nat) (b : List Byte) : Nat × List Byte := let c := aes rk (prev ^^^ blockOf b); (c, beBytes 16 c)

/-- One block of CBC decryption. -/
def uncbcStep (rk : List Nat) (prev : Nat) (b : List Byte) : Nat × List Byte := (blockOf b, beBytes 16 (unaes rk (blockOf b) ^^^ prev))

/-- Product in GHASH's field: x bit by bit from its most significant, v the running multiple of y. -/
def ghashMulAux : Nat → Nat → Nat → Nat → Nat
  | 0, _, _, z => z
  | i + 1, x, v, z => ghashMulAux i x (if v % 2 = 1 then v / 2 ^^^ 0xE1 * 2 ^ 120 else v / 2) (if x.testBit i then z ^^^ v else z)

def ghashMul (x y : Nat) : Nat := ghashMulAux 128 x y 0

/-- One block of GHASH. -/
def ghashStep (h acc : Nat) (b : List Byte) : Nat := ghashMul (acc ^^^ blockOf b) h

/-- GHASH over additional data and ciphertext, with their lengths. -/
def ghash (h : Nat) (aad c : List Byte) : Nat :=
  let x := (blocks16 c).foldl (ghashStep h) ((blocks16 aad).foldl (ghashStep h) 0)
  ghashMul (x ^^^ (8 * aad.length * 2 ^ 64 + 8 * c.length)) h

/-- The tag of AES-GCM with a 96-bit nonce. -/
def gcmTag (rk : List Nat) (nonce : Nat) (aad c : List Byte) : List Byte :=
  beBytes 16 (ghash (aes rk 0) aad c ^^^ aes rk (nonce * 2 ^ 32 + 1))

/-- Encryption and decryption of AES-GCM. -/
def gcmCrypt (rk : List Nat) (nonce : Nat) (m : List Byte) : List Byte := ctrCrypt rk 32 (nonce * 2 ^ 32 + 2) m

/-- AES-GCM sealing: ciphertext and tag. -/
def gcmSeal (key : List Byte) (nonce : Nat) (aad m : List Byte) : List Byte :=
  let rk := roundKeys key
  let c := gcmCrypt rk nonce m
  c ++ gcmTag rk nonce aad c

/-- AES-GCM opening: the plaintext, where the last 16 bytes are the right tag. -/
def gcmOpen (key : List Byte) (nonce : Nat) (aad sealed : List Byte) : Option (List Byte) :=
  let rk := roundKeys key
  let c := sealed.take (sealed.length - 16)
  if 16 ≤ sealed.length ∧ sealed.drop (sealed.length - 16) = gcmTag rk nonce aad c then some (gcmCrypt rk nonce c) else none

/- Hashes. -/

/-- A hash under way: its words, the bytes that do not fill a block yet, and how many bytes have come. -/
structure HashRun where
  words : List Nat := []
  buf   : List Byte := []
  count : Nat := 0
deriving DecidableEq, Repr, Inhabited

/-- Rotation of a w-bit word to the right. -/
def rotr (w n x : Nat) : Nat := x >>> n ||| x <<< (w - n) % 2 ^ w

/-- The constants of SHA-384. -/
def sha512K : List Nat :=
  [ 0x428a2f98d728ae22, 0x7137449123ef65cd, 0xb5c0fbcfec4d3b2f, 0xe9b5dba58189dbbc, 0x3956c25bf348b538,
    0x59f111f1b605d019, 0x923f82a4af194f9b, 0xab1c5ed5da6d8118, 0xd807aa98a3030242, 0x12835b0145706fbe,
    0x243185be4ee4b28c, 0x550c7dc3d5ffb4e2, 0x72be5d74f27b896f, 0x80deb1fe3b1696b1, 0x9bdc06a725c71235,
    0xc19bf174cf692694, 0xe49b69c19ef14ad2, 0xefbe4786384f25e3, 0x0fc19dc68b8cd5b5, 0x240ca1cc77ac9c65,
    0x2de92c6f592b0275, 0x4a7484aa6ea6e483, 0x5cb0a9dcbd41fbd4, 0x76f988da831153b5, 0x983e5152ee66dfab,
    0xa831c66d2db43210, 0xb00327c898fb213f, 0xbf597fc7beef0ee4, 0xc6e00bf33da88fc2, 0xd5a79147930aa725,
    0x06ca6351e003826f, 0x142929670a0e6e70, 0x27b70a8546d22ffc, 0x2e1b21385c26c926, 0x4d2c6dfc5ac42aed,
    0x53380d139d95b3df, 0x650a73548baf63de, 0x766a0abb3c77b2a8, 0x81c2c92e47edaee6, 0x92722c851482353b ] ++
  [ 0xa2bfe8a14cf10364, 0xa81a664bbc423001, 0xc24b8b70d0f89791, 0xc76c51a30654be30, 0xd192e819d6ef5218,
    0xd69906245565a910, 0xf40e35855771202a, 0x106aa07032bbd1b8, 0x19a4c116b8d2d0c8, 0x1e376c085141ab53,
    0x2748774cdf8eeb99, 0x34b0bcb5e19b48a8, 0x391c0cb3c5c95a63, 0x4ed8aa4ae3418acb, 0x5b9cca4f7763e373,
    0x682e6ff3d6b2b8a3, 0x748f82ee5defb2fc, 0x78a5636f43172f60, 0x84c87814a1f0ab72, 0x8cc702081a6439ec,
    0x90befffa23631e28, 0xa4506cebde82bde9, 0xbef9a3f7b2c67915, 0xc67178f2e372532b, 0xca273eceea26619c,
    0xd186b8c721c0c207, 0xeada7dd6cde0eb1e, 0xf57d4f7fee6ed178, 0x06f067aa72176fba, 0x0a637dc5a2c898a6,
    0x113f9804bef90dae, 0x1b710b35131c471b, 0x28db77f523047d84, 0x32caab7b40c72493, 0x3c9ebe0a15c9bebc,
    0x431d67c49c100d4c, 0x4cc5d4becb3e42b6, 0x597f299cfc657e2a, 0x5fcb6fab3ad6faec, 0x6c44198c4a475817 ]

/-- The initial hash of SHA-384. -/
def sha384Init : List Nat :=
  [ 0xcbbb9d5dc1059ed8, 0x629a292a367cd507, 0x9159015a3070dd17, 0x152fecd8f70e5939, 0x67332667ffc00b31,
    0x8eb44a8768581511, 0xdb0c2e0d64f98fa7, 0x47b5481dbefa4fa4 ]

/-- The message schedule of SHA-384, latest word first. -/
def sha512Schedule : Nat → List Nat → List Nat
  | 0, w => w
  | fuel + 1, w =>
    let a := w.getD 14 0
    let b := w.getD 1 0
    let s0 := rotr 64 1 a ^^^ rotr 64 8 a ^^^ a >>> 7
    let s1 := rotr 64 19 b ^^^ rotr 64 61 b ^^^ b >>> 6
    sha512Schedule fuel ((w.getD 15 0 + s0 + w.getD 6 0 + s1) % 2 ^ 64 :: w)

/-- One round of SHA-384 on the working words a to h. -/
def sha512Round (v : List Nat) (kw : Nat) : List Nat :=
  match v with
  | [a, b, c, d, e, f, g, h] =>
    let s1 := rotr 64 14 e ^^^ rotr 64 18 e ^^^ rotr 64 41 e
    let ch := (e &&& f) ^^^ ((2 ^ 64 - 1 - e) &&& g)
    let t1 := h + s1 + ch + kw
    let s0 := rotr 64 28 a ^^^ rotr 64 34 a ^^^ rotr 64 39 a
    let maj := (a &&& b) ^^^ (a &&& c) ^^^ (b &&& c)
    [(t1 + s0 + maj) % 2 ^ 64, a, b, c, (d + t1) % 2 ^ 64, e, f, g]
  | _ => v

/-- SHA-384 takes a block of 128 bytes. -/
def sha384Block (h : List Nat) (b : List Byte) : List Nat :=
  let w := (sha512Schedule 64 ((chunks 8 16 b).map beNat).reverse).reverse
  let v := (List.zipWith (· + ·) sha512K w).foldl sha512Round h
  List.zipWith (fun x y => (x + y) % 2 ^ 64) h v

/-- The message schedule of SHA-1, latest word first. -/
def sha1Schedule : Nat → List Nat → List Nat
  | 0, w => w
  | fuel + 1, w => sha1Schedule fuel (rotr 32 31 (w.getD 2 0 ^^^ w.getD 7 0 ^^^ w.getD 13 0 ^^^ w.getD 15 0) :: w)

/-- One round of SHA-1 on the words a to e; `t` is the round's number. -/
def sha1Round (v : List Nat) (tw : Nat × Nat) : List Nat :=
  match v with
  | [a, b, c, d, e] =>
    let f :=
      if tw.1 < 20 then ((b &&& c) ^^^ ((2 ^ 32 - 1 - b) &&& d)) + 0x5A827999
      else if tw.1 < 40 then (b ^^^ c ^^^ d) + 0x6ED9EBA1
      else if tw.1 < 60 then ((b &&& c) ^^^ (b &&& d) ^^^ (c &&& d)) + 0x8F1BBCDC
      else (b ^^^ c ^^^ d) + 0xCA62C1D6
    [(rotr 32 27 a + f + e + tw.2) % 2 ^ 32, a, rotr 32 2 b, c, d]
  | _ => v

/-- SHA-1 takes a block of 64 bytes. -/
def sha1Block (h : List Nat) (b : List Byte) : List Nat :=
  let w := (sha1Schedule 64 ((chunks 4 16 b).map beNat).reverse).reverse
  let v := ((List.range 80).zip w).foldl sha1Round h
  List.zipWith (fun x y => (x + y) % 2 ^ 32) h v

/-- Which hash: SHA-1 (blocks of 64 bytes) or SHA-384 (blocks of 128 bytes). -/
inductive HashKind where
  | sha1 | sha384
deriving DecidableEq, Repr, Inhabited

def HashKind.blockBytes : HashKind → Nat
  | .sha1 => 64 | .sha384 => 128

def HashKind.start : HashKind → HashRun
  | .sha1 => { words := [0x67452301, 0xEFCDAB89, 0x98BADCFE, 0x10325476, 0xC3D2E1F0] }
  | .sha384 => { words := sha384Init }

def HashKind.block : HashKind → List Nat → List Byte → List Nat
  | .sha1 => sha1Block
  | .sha384 => sha384Block

/-- A hash takes more bytes: it works off every block that is full. -/
def HashRun.take (k : HashKind) (r : HashRun) (m : List Byte) : HashRun :=
  let all := r.buf ++ m
  let full := all.length / k.blockBytes
  { words := (chunks k.blockBytes full all).foldl k.block r.words, buf := all.drop (full * k.blockBytes), count := r.count + m.length }

/-- A hash ends: padding, length, and the words as bytes. -/
def HashRun.finish (k : HashKind) (r : HashRun) : List Byte :=
  let lenBytes := k.blockBytes / 8
  let fill := (k.blockBytes - (r.count + 1 + lenBytes) % k.blockBytes) % k.blockBytes
  let x := r.take k (0x80 :: zeros fill ++ beBytes lenBytes (8 * r.count))
  match k with
  | .sha1 => (x.words.map (beBytes 4)).flatten
  | .sha384 => ((x.words.take 6).map (beBytes 8)).flatten

def hashOf (k : HashKind) (m : List Byte) : List Byte := (k.start.take k m).finish k

def sha384 (m : List Byte) : List Byte := hashOf .sha384 m

/-- An HMAC key, hashed first where it is longer than a block, zero-padded to one. -/
def hmacPad (k : HashKind) (key : List Byte) (x : Byte) : List Byte :=
  let key1 := if k.blockBytes < key.length then hashOf k key else key
  (key1 ++ zeros (k.blockBytes - key1.length)).map (· ^^^ x)

/-- The inner hash of an HMAC, ready for the message. -/
def hmacStart (k : HashKind) (key : List Byte) : HashRun := k.start.take k (hmacPad k key 0x36)

def hmacFinish (k : HashKind) (key : List Byte) (r : HashRun) : List Byte := hashOf k (hmacPad k key 0x5C ++ r.finish k)

def hmac (k : HashKind) (key m : List Byte) : List Byte := hmacFinish k key ((hmacStart k key).take k m)

/-- HKDF-Expand of RFC 5869, on `fuel` blocks. -/
def hkdfBlocks (k : HashKind) (prk info : List Byte) : Nat → Nat → List Byte → List Byte
  | 0, _, _ => []
  | fuel + 1, i, prev => let t := hmac k prk (prev ++ info ++ beBytes 1 i); t ++ hkdfBlocks k prk info fuel (i + 1) t

def hkdfExtract (k : HashKind) (salt ikm : List Byte) : List Byte := hmac k salt ikm

def hkdfExpand (k : HashKind) (prk info : List Byte) (n : Nat) : List Byte := (hkdfBlocks k prk info (ceilDiv n 20) 1 []).take n

/- brainpoolP384r1. -/

def curveP : Nat := 0x8CB91E82A3386D280F5D6F7E50E641DF152F7109ED5456B412B1DA197FB71123ACD3A729901D1A71874700133107EC53
def curveA : Nat := 0x7BC382C63D8C150C3C72080ACE05AFA0C2BEA28E4FB22787139165EFBA91F90F8AA5814A503AD4EB04A8C7DD22CE2826
def curveB : Nat := 0x04A8C7DD22CE28268B39B55416F0447C2FB77DE107DCD2A62E880EA53EEB62D57CB4390295DBC9943AB78696FA504C11
/-- The order of the base point. -/
def curveN : Nat := 0x8CB91E82A3386D280F5D6F7E50E641DF152F7109ED5456B31F166E6CAC0425A7CF3AB6AF6B7FC3103B883202E9046565
/-- The base point: X, then Y. -/
def curveG : Nat :=
  0x1D1C64F068CF45FFA2A63A81B7C13F6B8847A3E77EF14FE3DB7FCAFE0CBD10E8E826E03436D646AAEF87B2E247D4AF1E * 2 ^ 384 +
  0x8ABE1D7520F9C2A45CB1EB8E95CFD55262B70B29FEEC5864E19C054FF99129280E4646217791811142820341263C5315

/-- X and Y, 48 bytes each, are a point of the curve. -/
def onCurve (xy : Nat) : Bool :=
  let x := xy / 2 ^ 384 % 2 ^ 384
  let y := xy % 2 ^ 384
  decide (x < curveP) && decide (y < curveP) && y * y % curveP == (x * x * x + curveA * x + curveB) % curveP

/-- x to the power whose lowest `fuel` bits are those of e, modulo m. -/
def powMod (m x e : Nat) : Nat → Nat
  | 0 => 1 % m
  | i + 1 => let r := powMod m x (e / 2) i; if e % 2 = 1 then r * r % m * x % m else r * r % m

/-- The inverse modulo a prime m of 384 bits. -/
def invMod (m x : Nat) : Nat := powMod m (x % m) (m - 2) 384

/-- The sum of two points; `none` is the point at infinity. -/
def curveAdd (a b : Option (Nat × Nat)) : Option (Nat × Nat) :=
  match a, b with
  | none, q => q
  | p, none => p
  | some (x1, y1), some (x2, y2) =>
    let p := curveP
    if x1 = x2 ∧ (y1 + y2) % p = 0 then none
    else
      let l := if x1 = x2 then (3 * x1 * x1 + curveA) * invMod p (2 * y1) % p else (y2 + p - y1) * invMod p (x2 + p - x1) % p
      let x := (l * l + 2 * p - x1 - x2) % p
      some (x, (l * (x1 + p - x) + p - y1) % p)

/-- The multiple of a point by the lowest `fuel` bits of k. -/
def curveMulAux (pt : Option (Nat × Nat)) : Nat → Nat → Option (Nat × Nat)
  | 0, _ => none
  | i + 1, k => let r := curveMulAux pt i (k / 2); let d := curveAdd r r; if k % 2 = 1 then curveAdd d pt else d

/-- The multiple of a point, given and returned as X then Y. -/
def curveMul (k xy : Nat) : Nat :=
  match curveMulAux (some (xy / 2 ^ 384, xy % 2 ^ 384)) 384 k with
  | some (x, y) => x * 2 ^ 384 + y
  | none => 0

/-- ECDSA: the signature, r then s, of a digest under private key d, with the per-message secret k. -/
def ecdsaSign (d k : Nat) (digest : List Byte) : Nat :=
  let r := curveMul k curveG / 2 ^ 384 % curveN
  let s := invMod curveN k * (beNat digest + r * d) % curveN
  r * 2 ^ 384 + s

/-- ECDSA: the signature, r then s, of a digest verifies under a public key, X then Y. -/
def ecdsaVerify (key sig : Nat) (digest : List Byte) : Bool :=
  let r := sig / 2 ^ 384
  let s := sig % 2 ^ 384
  if r = 0 ∨ s = 0 ∨ curveN ≤ r ∨ curveN ≤ s then false
  else
    let w := invMod curveN s
    let pt := fun (k xy : Nat) => curveMulAux (some (xy / 2 ^ 384, xy % 2 ^ 384)) 384 k
    match curveAdd (pt (beNat digest * w % curveN) curveG) (pt (r * w % curveN) key) with
    | some (x, _) => x % curveN == r
    | none => false

end Sys2Proof.Machine
end

