-- ==== Sys2Proof/Machine/Types/Cipher.lean ====
section
/-! DEFINITION. Key contexts, crypto units and migration images (05_cipher_engine.md). -/

namespace Sys2Proof.Machine

/-- A key context (R113 to R121). -/
structure KeyCtx where
  transform : Nat := 1
  mkiLength : Nat := 0
  mki : Nat := 0
  masterKey : Nat := 0
  masterSalt : Nat := 0
  /-- Session encryption, authentication and salt keys of SRTP and SRTCP, derived once at installation (R113). -/
  srtpKey : List Byte := []
  srtpAuth : List Byte := []
  srtpSalt : List Byte := []
  srtcpKey : List Byte := []
  srtcpAuth : List Byte := []
  srtcpSalt : List Byte := []
  srtpCount : Nat := 0
  srtpLimit : Nat := 0
  srtcpCount : Nat := 0
  srtcpLimit : Nat := 0
  /-- The near-limit event of each counter is armed (R119). -/
  srtpArmed : Bool := true
  srtcpArmed : Bool := true
  nextCtx : Nat := 0
  refused : Ctr := 0
  /-- A near-limit event has promised the roll of its targets (R124): the event's stamp. -/
  rollDue : Option Instant := none
deriving DecidableEq, Repr, Inhabited

/-- How a crypto message turns its input into its output. -/
inductive CipherMode where
  /-- Counter mode; the counter's width in bits. -/
  | ctr (width : Nat)
  | f8
  | cbc
  | uncbc
deriving DecidableEq, Repr, Inhabited

/-- How a crypto message is authenticated. -/
inductive MacMode where
  | ghash
  | hmac (kind : HashKind)
deriving DecidableEq, Repr, Inhabited

/-- The complete set of a crypto message's intermediate values, which a save slot keeps (R127). -/
structure CipherRun where
  /-- The counter block of counter mode, or the block count of f8; and how far into the keystream the message is, in bytes. -/
  counter : Nat := 0
  position : Nat := 0
  /-- The GHASH accumulator, and the lengths of the additional data and of the text, in bytes. -/
  ghash : Nat := 0
  aadBytes : Nat := 0
  textBytes : Nat := 0
  /-- The HMAC inner state, with its buffered input. -/
  inner : HashRun := {}
  f8Iv : Nat := 0
  f8Prev : Nat := 0
  /-- The CBC chaining block. -/
  chain : Nat := 0
deriving DecidableEq, Repr, Inhabited

/-- What a crypto message serves: an urgent packet (payload_format 5 to 8), another packet, an image that is sealed, or one that is opened. -/
inductive WorkKind where
  | urgent | packet | sealing | opening
deriving DecidableEq, Repr, Inhabited

/-- A crypto message: the cipher work of one packet or copy, or the image work of one image (R126). `opens` is set where the input is what
is authenticated. -/
structure CryptoMsg where
  work : WorkKind := .packet
  mode : CipherMode := .ctr 16
  mac : MacMode := .ghash
  opens : Bool := false
  roundKeys : List Nat := []
  /-- GHASH's key, or the HMAC key. -/
  hashKey : Nat := 0
  macKey : List Byte := []
  /-- What masks a GCM tag; what is authenticated behind the text; the bytes of the tag. -/
  tagMask : Nat := 0
  trailer : List Byte := []
  tagBytes : Nat := 10
  /-- The blocks of the input that have not been taken, the values between, and the output so far. -/
  input : List (List Byte) := []
  run : CipherRun := {}
  output : List Byte := []
deriving DecidableEq, Repr, Inhabited

/-- A crypto unit (R112, R126): the message in service and the instant at which it takes its next block, the two save slots, and the messages
that wait, in the order in which they became ready. `sealed_` is the last sealing that has ended. -/
structure CryptoUnit where
  service : Option CryptoMsg := none
  next : Instant := 0
  packetSave : Option CryptoMsg := none
  imageSave : Option CryptoMsg := none
  ready : List CryptoMsg := []
  sealed_ : Option CryptoMsg := none
  /-- Out of rotation for a self-test slice (Table 17.5). -/
  outOf : Bool := false
deriving DecidableEq, Repr, Inhabited

/-- A seal key (R133). -/
structure SealKey where
  encKey : Nat
  macKey : Nat
deriving DecidableEq, Repr, Inhabited

/-- An export of an IO die (R128 to R131). `state` as Table 5.8: 0 none, 1 sealing, 2 sending, 3 sent. -/
structure Export where
  state : Nat := 0
  port : Nat := 0
  family : Nat := 0
  trafficClass : Nat := 0
  imageId : Nat := 0
  sealKeyId : Nat := 0
  dstAddress : Nat := 0
  dstUdpPort : Nat := 0
  srcUdpPort : Nat := 0
  rate : Nat := 0
  handles : List Nat := []
  started : Instant := 0
  imageLen : Nat := 0
  /-- The iv, and the sealed image once it is complete (Table 5.4). -/
  iv : Nat := 0
  image : List Byte := []
  /-- Next segment to send, and the segment after the last. -/
  next : Nat := 0
  until_ : Nat := 0
  bytesSent : Nat := 0
  lastSend : Instant := 0
deriving DecidableEq, Repr, Inhabited

/-- An import of an IO die (R132). `state` as Table 5.9: 0 none, 1 receiving, 2 complete, 3 opened. -/
structure Import where
  state : Nat := 0
  port : Nat := 0
  family : Nat := 0
  imageId : Nat := 0
  srcAddress : Nat := 0
  dstAddress : Nat := 0
  dstUdpPort : Nat := 0
  imageLength : Nat := 0
  segments : Tab (List Byte) := []
  dropped : Ctr := 0
deriving DecidableEq, Repr, Inhabited

/-- Cipher state of the module. -/
structure CipherState where
  keys : Tab KeyCtx := []
  /-- Crypto units cu0 to cu3, numbered 4 × cluster (0 to 15) + unit; the ingress pipe of cu3 stands there and its egress pipe at 64 + cluster.
  Unlisted units are idle. -/
  units : Tab CryptoUnit := []
  /-- Seal keys, by package then identifier. -/
  sealKeys0 : Tab SealKey := []
  sealKeys1 : Tab SealKey := []
  exp0 : Export := {}
  exp1 : Export := {}
  imp0 : Import := {}
  imp1 : Import := {}
deriving DecidableEq, Repr, Inhabited

end Sys2Proof.Machine
end

