-- ==== Sys2Proof/Machine/Types/Video.lean ====
section
/-! DEFINITION. Decode streams, compose outputs and encode legs (07, 08 and 09). -/

namespace Sys2Proof.Machine

/-- A reference that a frame designates (R168, Table 7.4): a slot for AV1 and VP9, the number of a picture for H.264 and HEVC; the difference
that is listed for it where frames are numbered; and the size that it needs. -/
structure RefNeed where
  pic : Nat := 0
  diff : Nat := 0
  w : Nat := 0
  h : Nat := 0
deriving DecidableEq, Repr, Inhabited

/-- What the bits of one frame of an access unit say: AV1 codes each spatial layer as a frame. `number` is the frame number of a dependency
descriptor, the picture ID of VP9, or what H.264 and HEVC designate the picture by. -/
structure FrameContent where
  spatialId : Nat := 0
  temporalId : Nat := 0
  w : Nat := 0
  h : Nat := 0
  number : Nat := 0
  needs : List RefNeed := []
  /-- Slots it refreshes. -/
  refresh : List Nat := []
  /-- It is put out, not only kept as a reference. -/
  shown : Bool := true
deriving DecidableEq, Repr, Inhabited

/-- What the bitstream of an access unit says, as far as the rules of decoding use it (R154, R163 to R170).
The decoding of the bits is the codec standard's. -/
structure AuContent where
  /-- Its frames, in coding order: the spatial layers from the smallest up. -/
  frames : List FrameContent := [{ }]
  /-- AV1 with a dependency descriptor, VP9 in flexible mode: references are listed as differences of numbers of this modulus. -/
  numbered : Bool := false
  numberMod : Nat := 65536
  /-- False when the list of slots to refresh could not be parsed (R170). -/
  listParsed : Bool := true
  randomAccess : Bool := false
  /-- H.264 and HEVC: every picture in it is non-reference (R164). -/
  nonReference : Bool := false
  /-- Reason 1, 2 or 4 of R170 as the unit finds it in the bits; 0 when none. -/
  error : Nat := 0
  bitDepth : Nat := 8
  mono : Bool := false
  /-- AV1: operating_point_idc of each operating point of the sequence: bits 0 to 7 its temporal layers, bits 8 to 11 its spatial ones. -/
  points : List Nat := []
deriving DecidableEq, Repr, Inhabited

/-- Picture sizes of the frames, and every slot that one of them refreshes. -/
def AuContent.sizes (c : AuContent) : List (Nat × Nat) := c.frames.map (fun f => (f.w, f.h))
def AuContent.refresh (c : AuContent) : List Nat := (c.frames.map (·.refresh)).flatten

/-- A received packet of an access unit: sequence, start-packet mark of Table 7.3, marker, arrival stamp, payload. -/
structure AuPacket where
  seq : BitVec 16
  start : Bool
  m : Bool
  arrival : Instant := 0
  data : List Byte := []
deriving DecidableEq, Repr, Inhabited

def AuPacket.bytes (p : AuPacket) : Nat := p.data.length

/-- An access unit in assembly or waiting behind the head (R159 to R162). `completedAt` is the instant from which it counts as complete;
`arrival` is the stamp of the packet that completed it. -/
structure Au where
  ts : W32
  packets : List AuPacket := []
  complete : Bool := false
  completedAt : Instant := 0
  arrival : Instant := 0
  bytes : Nat := 0
  content : AuContent := {}
deriving DecidableEq, Repr, Inhabited

/-- A released access unit (R160, R163), with its payloads in sequence. -/
structure ReleasedAu where
  ts : W32
  gap : Bool
  bytes : Nat
  arrival : Instant
  content : AuContent
  number : Nat
  data : List (List Byte) := []
deriving DecidableEq, Repr, Inhabited

/-- The parameters of a decode stream (Table 7.8). -/
structure DecodeCfg where
  unit : Nat := 0
  codec : Nat := 4
  profile : Nat := 100
  level : Nat := 10
  bitDepth : Nat := 8
  maxWidth : Nat := 16
  maxHeight : Nat := 16
  frameRate : Nat := 1
  spatialLayers : Nat := 1
  operatingPoint : Nat := 0
  outLayers : Nat := 0
  refSlots : Nat := 8
  auSlots : Nat := 8
  backlogLimit : Nat := 2
  auMax : Nat := 262144
  reorderWait : Nat := 2000000
  deadlineOffset : Nat := 100000
deriving DecidableEq, Repr, Inhabited

/-- A reference slot (R168), with the picture in it and what designates that picture. -/
structure RefSlot where
  valid : Bool := false
  concealed : Bool := false
  number : Nat := 0
  pic : Picture := {}
deriving DecidableEq, Repr, Inhabited

/-- A picture in an output or memory pair, and who wrote it (R167, R179, R192). -/
structure PairPic where
  pic : Picture := {}
  beat : Instant
  completed : Instant
  concealed : Bool := false
  number : Nat := 0
deriving DecidableEq, Repr, Inhabited

/-- The counters of Table 7.10. -/
structure DecodeCtrs where
  released : Ctr := 0
  decoded : Ctr := 0
  abandoned : Ctr := 0
  broken : Ctr := 0
  bufferFull : Ctr := 0
  oversize : Ctr := 0
  late : Ctr := 0
  discarded : Ctr := 0
  concealed : Ctr := 0
  expired : Ctr := 0
deriving DecidableEq, Repr, Inhabited

/-- A decode stream (R156 to R175). -/
structure DecodeStream where
  cfg : DecodeCfg := {}
  /-- Rate of the grid slot that carries the decode entry, and its segment's phase, as firmware chose them at creation. -/
  gridRate : Nat := 1
  phase : Nat := 0
  streamBuffer : Nat := 0
  refHandle : Nat := 0
  /-- Parameter block of the decode entry (Table 3.1). -/
  params : Nat := 0
  /-- Output pair handles of layers 0 to 3, 0 where none (Table 7.9). -/
  outs : List Nat := [0, 0, 0, 0]
  slots : Tab RefSlot := []
  /-- Access units held or being assembled, oldest first. -/
  held : List Au := []
  /-- Released and neither decoded nor discarded, oldest first. -/
  backlog : List ReleasedAu := []
  /-- The access unit that the instance in service decodes, and whether that instance discarded one first (R163, R164). -/
  current : Option ReleasedAu := none
  discardedOne : Bool := false
  /-- RTP time-stamp of the latest access unit released, abandoned or refused (R162). -/
  lastTs : Option W32 := none
  endSeq : Option (BitVec 16) := none
  gapNext : Bool := false
  auNumber : Nat := 0
  /-- Access units refused, and those abandoned ahead of the head, that are newer than `lastTs` (R162). -/
  refused : List W32 := []
  gone : List W32 := []
  /-- A new operating point, and the output layers that came with it, waiting for a random-access decode (R174). -/
  opPending : Option (Nat × Nat) := none
  concealing : Bool := false
  lastConcealed : Bool := false
  gapAfterBreak : Bool := false
  /-- Pictures that may stand in (R169): by size, the last decoded one whose concealed flag is clear. -/
  standing : List ((Nat × Nat) × Picture) := []
  /-- Numbers of the latest 64 frames decoded, newest first (Table 7.4). -/
  frameNos : List Nat := []
  /-- What the decoding process carries from one access unit to the next beside its pictures. -/
  context : Nat := 0
  lastRandomAccess : Instant := 0
  lastWidth : Nat := 0
  lastHeight : Nat := 0
  abandonEvent : Limiter := {}
  fullEvent : Limiter := {}
  ctrs : DecodeCtrs := {}
deriving DecidableEq, Repr, Inhabited

/-- The parameters of a layer (Table 8.6). -/
structure LayerCfg where
  kind : Nat := 0
  z : Nat := 0
  enabled : Bool := true
  concealAsStale : Bool := false
  source : Nat := 0
  cropX : Nat := 0
  cropY : Nat := 0
  cropW : Nat := 2
  cropH : Nat := 2
  dstX : Nat := 0
  dstY : Nat := 0
  dstW : Nat := 2
  dstH : Nat := 2
  alpha : Nat := 255
  filterSet : Nat := 0
  staleLimit : Nat := 3
  placeholder : Nat := 0
  phY : Nat := 16
  phCb : Nat := 128
  phCr : Nat := 128
deriving DecidableEq, Repr, Inhabited

/-- A layer of an output (R181). -/
structure Layer where
  cfg : LayerCfg := {}
  stale : Nat := 0
  placeholder : Bool := false
  placeholderFrames : Nat := 0
deriving DecidableEq, Repr, Inhabited

/-- The parameters of a guarded region (Table 8.7). -/
structure RegionCfg where
  withhold : Bool := false
  capture : Bool := false
  x : Nat := 0
  y : Nat := 0
  w : Nat := 2
  h : Nat := 2
  expected : Nat := 0
deriving DecidableEq, Repr, Inhabited

/-- A guarded region (R189 to R191). -/
structure Region where
  cfg : RegionCfg := {}
  /-- The first frame in capture mode is still to come. -/
  capturing : Bool := false
  crc : Nat := 0
  matched : Bool := true
  event : Limiter := {}
deriving DecidableEq, Repr, Inhabited

/-- The parameters of an output (Table 8.5). -/
structure OutputCfg where
  unit : Nat := 0
  frameRate : Nat := 30
  encoder : Nat := 0xFF
  memory : Bool := false
  width : Nat := 64
  height : Nat := 64
  bgY : Nat := 16
  bgCb : Nat := 128
  bgCr : Nat := 128
  /-- Parameter block of the COMPOSE entry (Table 3.1). -/
  params : Nat := 0
deriving DecidableEq, Repr, Inhabited

/-- A compose output (R176 to R194). -/
structure Output where
  cfg : OutputCfg := {}
  memoryPair : Nat := 0
  layers : Tab Layer := []
  regions : Tab Region := []
  withholding : Bool := false
  /-- The picture handed to the direct encode leg, and the last verified one. -/
  latest : Option PairPic := none
  verified : Option PairPic := none
  frames : Ctr := 0
  withheld : Ctr := 0
  mismatches : Ctr := 0
  placeholderFrames : Ctr := 0
  lastVerified : Instant := 0
  clampEvent : Limiter := {}
deriving DecidableEq, Repr, Inhabited

/-- A graphic surface (R184, R196): both buffers as bytes A, Y, Cb, Cr per pixel; unwritten bytes are zero. -/
structure Graphic where
  die : Nat := 0
  w : Nat := 2
  h : Nat := 2
  front : Tab Byte := []
  back : Tab Byte := []
  /-- The front before a flip whose copy is still to be made, and the flip's effective instant (R196): compositions of earlier
  beats still read it. -/
  oldFront : Tab Byte := []
  copyPending : Option Instant := none
  /-- Writes and flips waiting for the copy, in order: offset and bytes, or a flip. -/
  waiting : List (Option (Nat × List Byte)) := []
deriving DecidableEq, Repr, Inhabited

/-- One phase of a filter set (R186): 8 horizontal and 6 vertical coefficients. -/
structure FilterPhase where
  h : List Int
  v : List Int
deriving DecidableEq, Repr, Inhabited

/-- The parameters of an encode leg (Table 9.6). -/
structure EncodeCfg where
  unit : Nat := 0
  source : Nat := 0
  memory : Bool := false
  codec : Nat := 1
  profile : Nat := 0
  frameRate : Nat := 30
  codedWidth : Nat := 64
  codedHeight : Nat := 64
  targetKbps : Nat := 16
  bufferMs : Nat := 200
  rotation : Nat := 0
  filterSet : Nat := 0
  maxFrameBytes : Nat := 0
  keyInterval : Nat := 0
  ltrInterval : Nat := 0
  minKeyGapMs : Nat := 1000
  qpMin : Nat := 0
  qpMax : Nat := 0xFF
  autoKey : Bool := false
  gang : Bool := false
  bitstreamBytes : Nat := 1048576
  gangUnits : List Nat := []
deriving DecidableEq, Repr, Inhabited

/-- The counters of Table 9.8. -/
structure EncodeCtrs where
  frames : Ctr := 0
  key : Ctr := 0
  recovery : Ctr := 0
  repeats : Ctr := 0
  truncated : Ctr := 0
  skippedRows : Ctr := 0
deriving DecidableEq, Repr, Inhabited

/-- What a coded frame signals (R197, R198, R203, R210). -/
structure FrameSyntax where
  codec : Nat := 1
  profile : Nat := 0
  /-- The lowest level of the standard: level_idc of H.264 and HEVC, seq_level_idx of AV1. -/
  level : Nat := 0
  width : Nat := 64
  height : Nat := 64
  /-- KEY_FRAME with show_frame = 1, IDR_N_LP or IDR, with a sequence header or the parameter sets before it. -/
  key : Bool := false
  /-- The one slot that an inter frame predicts from. -/
  ref : Option Nat := none
  refresh : Nat := 0
  qp : Nat := 0
  /-- Primaries, transfer and matrix by their code points, and full_range. -/
  primaries : Nat := 1
  transfer : Nat := 1
  matrix : Nat := 1
  fullRange : Bool := false
  /-- HEVC: slice_temporal_mvp_enabled_flag, five_minus_max_num_merge_cand. AV1: allow_high_precision_mv, global motion parameters. -/
  temporalMvp : Bool := false
  fiveMinusMaxMerge : Nat := 0
  highPrecisionMv : Bool := false
  globalMotion : Bool := false
  /-- The in-loop filters are off for the frame. -/
  filtersOff : Bool := false
  /-- Tile columns and rows; uniform tiles; loop_filter_across_tiles_enabled_flag. -/
  tileCols : Nat := 1
  tileRows : Nat := 1
  uniform : Bool := true
  filterAcross : Bool := true
deriving DecidableEq, Repr, Inhabited

/-- The motion-search window of a unit (R208): the luma position of its first sample, and the columns of the three planes. -/
structure MotionWindow where
  x : Int := 0
  y : Int := 0
  luma : List (List Nat) := []
  cb : List (List Nat) := []
  cr : List (List Nat) := []
deriving DecidableEq, Repr, Inhabited

/-- A tile of a gang that is done (R211): its beat and number, whether the task ran with inputs_incomplete, and the source words that were
delivered with a poison tag. -/
structure TileDone where
  beat : Instant
  tile : Nat
  incomplete : Bool := false
  poison : List (Nat × Nat) := []
deriving DecidableEq, Repr, Inhabited

/-- A reference slot of an encode leg (R198, R209): the frame's number, and its reconstruction. -/
structure RefPic where
  number : Nat := 0
  pic : Picture := {}
deriving DecidableEq, Repr, Inhabited

/-- An encode leg (R200 to R219). -/
structure EncodeLeg where
  cfg : EncodeCfg := {}
  bitstream : Nat := 0
  inputHandle : Nat := 0
  refHandle : Nat := 0
  /-- Parameter blocks of the ENCODE entries, in tile order, and of GANG_FINISH: the first handle (Table 3.1). -/
  params : Nat := 0
  /-- Bucket fullness F (R212), in bits. -/
  fullness : Nat := 0
  coded : Nat := 0
  sinceKey : Nat := 0
  /-- Reference slots 0 and 1. -/
  slot0 : Option RefPic := none
  slot1 : Option RefPic := none
  /-- Key frames that wait (R216): for a command, for a change of size, and for PLI or FIR, with the instants from which those may be coded. -/
  keyCmd : Bool := false
  keySize : Bool := false
  keyPli : List Instant := []
  recoveryDue : Bool := false
  lastKey : Instant := 0
  /-- Completion stamp of the memory surface coded last (R202). -/
  lastSurface : Option Instant := none
  /-- Pictures of the memory source latched at the leg's beats, newest first (R202). -/
  latched : List (Instant × PairPic) := []
  /-- Tiles of a gang that are done. -/
  tilesDone : List TileDone := []
  /-- The level that the leg signals (R197), and what its latest frame signals. -/
  level : Nat := 0
  signals : Option FrameSyntax := none
  /-- What firmware's rate control carries from frame to frame (R212 leaves it to firmware). -/
  rate : Nat := 0
  repeatNext : Bool := false
  repeatEvent : Limiter := {}
  ctrs : EncodeCtrs := {}
deriving DecidableEq, Repr, Inhabited

/-- The writer of a pair: its grid rate, period and phase, and its largest picture. -/
structure Writer where
  rate : Nat
  period : Nat
  phase : Nat
  w : Nat
  h : Nat
deriving DecidableEq, Repr, Inhabited

/-- What has been deleted, or a pair whose layer is selected no more, as compositions, decodes and encodes of earlier beats still find it (R64). -/
inductive GoneObj where
  | decode (x : DecodeStream)
  | output (x : Output)
  | encode (x : EncodeLeg)
  | pair (w : Option Writer) (ps : List PairPic)
  | graphic (g : Graphic)
deriving DecidableEq, Repr, Inhabited

/-- A deleted object: its identifier or handle, and the first instant whose beats no longer have it. -/
structure Gone where
  id : Nat
  at_ : Instant
  obj : GoneObj
deriving DecidableEq, Repr, Inhabited

/-- Video state of the module. -/
structure VideoState where
  decodes : Tab DecodeStream := []
  outputs : Tab Output := []
  graphics : Tab Graphic := []
  /-- Filter phases loaded, by (die × 16 + set) × 64 + phase. -/
  filters : Tab FilterPhase := []
  encodes : Tab EncodeLeg := []
  /-- Motion-search windows (R208), by the site code of their unit. -/
  windows : Tab MotionWindow := []
  /-- Deleted objects that tasks of earlier beats may still use, oldest first. -/
  gone : List Gone := []
  /-- Output pairs of decode streams and memory pairs, by handle: current and previous surface (R167, R192). -/
  pairs : Tab (List PairPic) := []
deriving DecidableEq, Repr, Inhabited

end Sys2Proof.Machine
end

