-- ==== Sys2Proof/Machine/Types/Fwd.lean ====
section
/-! DEFINITION. Stream contexts, targets and the express path (04_forwarding_and_layers.md). -/

namespace Sys2Proof.Machine

/-- The header that a frame of the module's own or a copy leaves with (R28, Table 4.3). -/
structure NetHdr where
  dstMac : Nat := 0
  srcMac : Nat := 0
  vid : Nat := 0
  family : Nat := 4
  src : Nat := 0
  dst : Nat := 0
  sport : Nat := 0
  dport : Nat := 0
  dscp : Nat := 0
  ident : Nat := 0
  ttl : Nat := 64
  sum : Bool := true
deriving DecidableEq, Repr, Inhabited

/-- One item of a header-extension block: an element with its value bytes, a padding byte, or bytes that no element can be read from. -/
inductive ExtItem where
  | elem (id : Nat) (value : List Byte)
  | pad
  | raw (b : List Byte)
deriving DecidableEq, Repr, Inhabited

/-- An RTP packet as it stands in a UDP payload: its fixed header, contributing sources, extension block (form 0 none, 1 one-byte, 2
two-byte, 3 another profile), and everything behind the block. -/
structure RtpPkt where
  padding : Bool := false
  m : Bool := false
  pt : Nat := 0
  seq : W16 := 0
  ts : W32 := 0
  ssrc : W32 := 0
  csrc : List Byte := []
  form : Nat := 0
  profile : Nat := 0
  ext : List ExtItem := []
  body : List Byte := []
deriving DecidableEq, Repr, Inhabited

/-- What a media copy leaves with (Table 4.3, R95 to R98): its headers, the RTP packet in clear as the rewriter wrote it, and the session keys
that seal it. `rt` is the identifier of the residence-time element and the value it adds to, `rtOld` the identifier that the ingress packet
carries it under; `residence` is the value written when the copy is committed to transmission. `poisoned` and `stomped` mark a cut-through
copy whose tag, or whose frame check sequence, is sent inverted (R107, R108). -/
structure MediaHdr where
  ctx : Nat := 0
  target : Nat := 0
  net : NetHdr := {}
  rtp : RtpPkt := {}
  keyCtx : Nat := 0
  prot : Option KeyCtx := none
  srtpIndex : Nat := 0
  rt : Option (Nat × Nat) := none
  rtOld : Nat := 0
  residence : Option Nat := none
  poisoned : Bool := false
  stomped : Bool := false
deriving DecidableEq, Repr, Inhabited

/-- A target's layer selection (R92). 0xFF has the meanings of Table 4.9. -/
structure LayerSel where
  maxSpatial : Nat := 0xFF
  maxTemporal : Nat := 0xFF
  decodeTarget : Nat := 0xFF
deriving DecidableEq, Repr, Inhabited

/-- One template of a dependency descriptor: its layer and the indication for each decode target
(0 not present, 1 present, 2 switch). -/
structure Template where
  id : Nat
  spatial : Nat
  temporal : Nat
  dti : List Nat := []
deriving DecidableEq, Repr, Inhabited

/-- A template structure (R91): up to 64 templates and 32 decode targets. -/
structure TemplateStruct where
  templates : List Template := []
  targets : Nat := 0
deriving DecidableEq, Repr, Inhabited

/-- A dependency descriptor (Table 4.2): template, frame start and end, and decode target indications of its own when it carries any. -/
structure DepDesc where
  template : Nat
  frameStart : Bool := true
  frameEnd : Bool := true
  /-- The frame's number. -/
  number : Nat := 0
  dti : Option (List Nat) := none
deriving DecidableEq, Repr, Inhabited

/-- A VP9 payload descriptor (Table 4.2). -/
structure Vp9Desc where
  l : Bool := false
  sid : Nat := 0
  tid : Nat := 0
  b : Bool := true
  e : Bool := true
  p : Bool := false
  u : Bool := false
deriving DecidableEq, Repr, Inhabited

/-- An HEVC NAL or payload header (Table 4.2). -/
structure HevcHdr where
  type : Nat := 1
  layerId : Nat := 0
  tidPlus1 : Nat := 1
deriving DecidableEq, Repr, Inhabited

/-- What a delivered payload brings to a stream buffer or jitter buffer (R99): `start` marks a start packet of Table 7.3, `au` what the
access unit's bits say once its start is received; `twentyMs` and `fecNext` belong to audio (R229, R232). -/
structure Delivered where
  seq : W16 := 0
  ts : W32 := 0
  m : Bool := false
  data : List Byte := []
  start : Bool := false
  au : Option AuContent := none
  twentyMs : Bool := true
  fecNext : Bool := false
deriving DecidableEq, Repr, Inhabited

/-- The parameters of a stream context (Table 4.8). -/
structure StreamCfg where
  sourceKind : Nat := 0
  port : Nat := 0
  family : Nat := 0
  stun : Bool := false
  dstAddress : Nat := 0
  dstUdpPort : Nat := 0
  ssrc : W32 := 0
  keyCtx : Nat := 0
  payloadFormat : Nat := 0
  ddExtId : Nat := 0
  rtExtIdIn : Nat := 0
  missingLayerAction : Nat := 1
  delivery : Nat := 0
  die : Nat := 0
  bufferHandle : Nat := 0
  policer : Nat := 0
  maxPayload : Nat := 1200
  pt : Nat := 0xFF
deriving DecidableEq, Repr, Inhabited

/-- The parameters of a target (Table 4.9). -/
structure TargetCfg where
  port : Nat := 0
  iface : Nat := 0
  family : Nat := 4
  markerFixup : Bool := false
  addRt : Bool := false
  zeroUdpChecksum : Bool := false
  dstAddress : Nat := 0
  dstUdpPort : Nat := 0
  srcUdpPort : Nat := 0
  leg : Nat := 0
  keyCtx : Nat := 0
  ssrcOut : W32 := 0
  seqStart : W16 := 0
  ptOut : Nat := 0xFF
  dscp : Nat := 0
  tsOffset : W32 := 0
  sel : LayerSel := {}
  rtExtIdOut : Nat := 0
deriving DecidableEq, Repr, Inhabited

/-- A target with its rewrite state (R88, R93, R96). -/
structure Target where
  cfg : TargetCfg := {}
  /-- Highest ingress sequence seen; none while the target waits for its first packet (R96). -/
  h : Option W16 := none
  d : W16 := 0
  /-- A selection that has taken effect but waits for a frame start or a switch point (R93). -/
  nextSel : Option LayerSel := none
  /-- LAYER_ABSENT was raised for the stored structure (R92). -/
  absentRaised : Bool := false
  /-- Highest SRTP index of a copy sent (Table 4.3: rollover counter and sequence). -/
  outHigh : Option Nat := none
deriving DecidableEq, Repr, Inhabited

/-- The counters of a context (Table 4.11). -/
structure StreamCtrs where
  packetsIn : Ctr := 0
  bytesIn : Ctr := 0
  copies : Ctr := 0
  layerDrops : Ctr := 0
  replay : Ctr := 0
  authFail : Ctr := 0
  poisoned : Ctr := 0
  fcsStomped : Ctr := 0
  policed : Ctr := 0
  keySpent : Ctr := 0
  rtSkipped : Ctr := 0
  missingLayer : Ctr := 0
  lastArrival : Instant := 0
deriving DecidableEq, Repr, Inhabited

/-- A mark of the replay window (R102). -/
structure Mark where
  index : Nat
  final : Bool
deriving DecidableEq, Repr, Inhabited

/-- A stream context (R87 to R102, R122). -/
structure Stream where
  cfg : StreamCfg := {}
  targets : Tab Target := []
  pinned : Bool := false
  prevKey : Nat := 0
  structure_ : Option TemplateStruct := none
  highSeq : Option W16 := none
  prevTs : Option W32 := none
  /-- Highest SRTP index authenticated (rollover counter and sequence, R102). -/
  highIndex : Option Nat := none
  marks : List Mark := []
  /-- Sequence of a die-sourced context's next packet, and whether it has sent one (R100). -/
  nextSeq : W16 := 0
  sentAny : Bool := false
  dtxGap : Bool := false
  authEvent : Limiter := {}
  mkiEvent : Limiter := {}
  /-- Where the latest packet that passed its ingress checks came from: the sender's address and UDP port. -/
  sender : Option (Nat × Nat) := none
  ctrs : StreamCtrs := {}
deriving DecidableEq, Repr, Inhabited

/-- The parser counters of a port (Table 4.12). -/
structure ParseCtrs where
  frames : Ctr := 0
  vlanStacked : Ctr := 0
  notIp : Ctr := 0
  ipBad : Ctr := 0
  ipOptions : Ctr := 0
  ipFragment : Ctr := 0
  notUdp : Ctr := 0
  unmatched : Ctr := 0
  stunDropped : Ctr := 0
  notRtp : Ctr := 0
  rtcpFwDrops : Ctr := 0
  unknownSsrc : Ctr := 0
  udpChecksum : Ctr := 0
  clusterOverrun : Ctr := 0
deriving DecidableEq, Repr, Inhabited

/-- A packet of a pinned context between its layer decision and the end of its verification (R107, R108): the targets served cut-through, and
those whose copies wait in their leg queues. What its last bytes will say is kept with it: whether the frame ends well, which key context its
MKI names (none of the three where there is none), and whether the tag verifies under that one; its tag and its frame are in at `tagAt` and
`endAt`. -/
structure Cut where
  id : Nat
  ctx : Nat
  seq : W16
  index : Nat
  /-- The key context whose keystream was used, and the one that the packet's MKI names. -/
  keyUsed : Nat
  keyNamed : Option Nat
  tagOk : Bool := true
  frameOk : Bool := true
  tagAt : Instant := 0
  endAt : Instant := 0
  /-- The context's configuration at the layer decision, the key context it would roll to, and the last bytes that may hold an MKI. -/
  cfg : StreamCfg := {}
  next : Nat := 0
  mki : Nat := 0
  targets : List Nat
  waiting : List Nat
  arrival : Instant
  payload : Delivered := {}
  verdict : Option Bool := none
  ended : Bool := false
deriving DecidableEq, Repr, Inhabited

/-- Forwarding state of the module. -/
structure FwdState where
  streams : Tab Stream := []
  parseA : ParseCtrs := {}
  parseB : ParseCtrs := {}
  ipIdA : W16 := 0
  ipIdB : W16 := 0
  /-- `CLUSTER_OVERRUN` limiters, by cluster 0 to 15 (R82). -/
  overrunEvents : Tab Limiter := []
  ssrcEvents : List (Nat × Nat × Nat × Instant) := []
  /-- RTCP packets passed to firmware in the current second, per IO die (Table 4.1 rule 14). -/
  rtcpSecond : Nat := 0
  rtcpCount0 : Nat := 0
  rtcpCount1 : Nat := 0
  cuts : List Cut := []
  nextCut : Nat := 1
  /-- Frames handed to firmware (ARP, ICMP, DHCP, STUN, RTCP), counted (Table 4.1). -/
  toFirmware : Ctr := 0
  /-- Index of the next SRTCP packet that the module sends under a key context (RFC 3711). -/
  rtcpIndex : Tab Nat := []
deriving DecidableEq, Repr, Inhabited

end Sys2Proof.Machine
end

