-- ==== Sys2Proof/Machine/Types/Time.lean ====
section
/-! DEFINITION. Timebase, PTP, TIME IN and TIME OUT (13_time_and_ptp.md). -/

namespace Sys2Proof.Machine

/-- The timebase states of R283. -/
inductive TimeMode where
  | free | acquiring | locked | holdover
deriving DecidableEq, Repr, Inhabited

/-- The regulator's parameters (Table 13.11). -/
structure RegCfg where
  selectWindow : Nat := 4
  sources : List Nat := [1, 2, 0]
  lockCount : Nat := 16
  /-- kp in Q8.24 ppb/ns, ki in Q8.24 ppb/(ns·s), limits in Q16.16. -/
  kp : Nat := 0x00400000
  ki : Nat := 0x00040000
  freqLimit : Nat := 0x00640000
  slewLimit : Nat := 0x00640000
  stepThreshold : Nat := 1000
  lockThreshold : Nat := 100
  unlockThreshold : Nat := 1000
  sourceTimeout : Nat := 5000
  holdoverAverage : Nat := 600
  holdoverLimit : Nat := 14400
deriving DecidableEq, Repr, Inhabited

/-- The PTP clock's parameters (Table 13.8). -/
structure PtpClockCfg where
  role : Nat := 0
  profile : Nat := 0
  domain : Nat := 0
  slaveOnly : Bool := false
  tc : Bool := false
  priority1 : Nat := 128
  priority2 : Nat := 128
  localPriority : Nat := 128
  gmClass : Nat := 6
  utcOffset : Nat := 37
deriving DecidableEq, Repr, Inhabited

/-- A PTP port's parameters (Table 13.9). Asymmetry and extras in 0.25 ns units. -/
structure PtpPortCfg where
  transport : Nat := 0
  logSync : Int := -4
  logDelayReq : Int := -4
  logAnnounce : Int := 0
  announceTimeout : Nat := 3
  asymmetry : Int := 0
  txExtra : Nat := 0
  rxExtra : Nat := 0
  vid : Nat := 0
  masters : List Nat := []
deriving DecidableEq, Repr, Inhabited

/-- A parent data set (IEEE 1588; Table 13.10). -/
structure Parent where
  identity : Nat := 0
  gmIdentity : Nat := 0
  gmClass : Nat := 248
  gmAccuracy : Nat := 0xFE
  gmVariance : Nat := 0xFFFF
  priority1 : Nat := 128
  priority2 : Nat := 128
  stepsRemoved : Nat := 0
  timeTraceable : Bool := false
  utcOffset : Nat := 37
deriving DecidableEq, Repr, Inhabited

/-- A unicast grant (R290): message type, the other side's address, its end, and whether the module is the grantor. -/
structure Grant where
  id : Nat
  peer : Nat
  msgType : Nat
  ends : Instant
  grantor : Bool
deriving DecidableEq, Repr, Inhabited

/-- A foreign master (IEEE 1588): its latest Announce, its address, and the instants of its latest two. -/
structure Foreign where
  data : Parent
  peer : Nat := 0
  /-- localPriority of the port that it is heard on, or of the clock (R290). -/
  localPriority : Nat := 128
  seen : List Instant := []
deriving DecidableEq, Repr, Inhabited

/-- A PTP message (R289 to R293). `kind` is the messageType: 0 Sync, 1 Delay_Req, 9 Delay_Resp, 11 Announce, 12 Signaling.
`stamp` is its originTimestamp or receiveTimestamp, `corr` its correctionField in 2^-16 ns, `ds` the data of an Announce, `tlv`
the unicast negotiation of a Signaling message: 0 request, 1 grant, 2 cancel, 3 acknowledge; messageType; duration in s. -/
structure PtpMsg where
  kind : Nat
  source : Nat := 0
  domain : Nat := 0
  seq : Nat := 0
  stamp : Instant := 0
  corr : Int := 0
  requesting : Nat := 0
  ds : Option Parent := none
  tlv : Option (Nat × Nat × Nat) := none
  /-- The unicast flag, and logMessageInterval. -/
  unicast : Bool := false
  log : Int := 0x7F
deriving DecidableEq, Repr, Inhabited

/-- A PTP port (R289 to R294). `portState` as IEEE 1588: 2 FAULTY, 3 DISABLED, 4 LISTENING, 6 MASTER, 7 PASSIVE,
8 UNCALIBRATED, 9 SLAVE. -/
structure PtpPort where
  cfg : PtpPortCfg := {}
  portState : Nat := 3
  parent : Parent := {}
  parentPeer : Nat := 0
  foreign : List Foreign := []
  /-- (t2 − t1) + (t4 − t3) of the newest Delay_Resp, in 2^-16 ns: the delay of R292 in 2^-17 ns. -/
  delay2 : Option Int := none
  /-- Sequence and exact t_tx of the outstanding Delay_Req (R291). -/
  t3 : Option (Nat × Instant) := none
  /-- t2 − t1 of the newest Sync, in 2^-16 ns. -/
  lastSync : Option Int := none
  lastAnnounce : Instant := 0
  nextSync : Instant := 0
  nextDelayReq : Instant := 0
  nextAnnounce : Instant := 0
  syncSeq : Nat := 0
  delaySeq : Nat := 0
  announceSeq : Nat := 0
  grants : List Grant := []
  nextGrant : Nat := 1
  syncRx : Ctr := 0
  syncTx : Ctr := 0
  delayReqRx : Ctr := 0
  delayReqTx : Ctr := 0
  announceRx : Ctr := 0
  announceTx : Ctr := 0
  tcForwarded : Ctr := 0
  dropped : Ctr := 0
  dropEvent : Limiter := {}
deriving DecidableEq, Repr, Inhabited

/-- TIME OUT's settings (Table 13.12). -/
structure TimeOutCfg where
  mode : Nat := 1
  squelch : Bool := true
  pulseWidth : Nat := 100000
  delay : Nat := 0
  mirrorKind : Nat := 0
  gridSlot : Nat := 0
  mirror : Nat := 0
  instant : Instant := 0
deriving DecidableEq, Repr, Inhabited

/-- Time state of the module (R281 to R306). Errors e are in 2^-17 ns; i and y of R297 in 2^-48 ppb; the steer in 2^-16 ppb. -/
structure TimeState where
  mode : TimeMode := .free
  everLocked : Bool := false
  /-- The source in use: 0 none, 1 PTP, 2 1PPS, 3 10 MHz. -/
  source : Nat := 0
  reg : RegCfg := {}
  /-- Instant of the latest valid measurement of the source in use. -/
  lastMeasure : Instant := 0
  offset : Int := 0
  integrator : Int := 0
  y : Int := 0
  /-- y of the updates while LOCKED, newest first, with their instants (R297). -/
  yHistory : List (Instant × Int) := []
  /-- base − steer, as applied. -/
  steer : Int := 0
  lockRun : Nat := 0
  withheldRaised : Bool := false
  holdoverSince : Instant := 0
  holdoverTraceable : Bool := false
  holdoverExpired : Bool := false
  /-- HOLDOVER was forced and has not been released (R298). -/
  forced : Bool := false
  steps : Ctr := 0
  sourceChanges : Ctr := 0
  utcOffset : Nat := 37
  freqEvent : Limiter := {}
  /-- Syncs of the running update interval: t2 − t1 in 2^-16 ns, and e (R296). -/
  syncWindow : List (Int × Int) := []
  ptp : PtpClockCfg := {}
  portA : PtpPort := {}
  portB : PtpPort := {}
  timeInMode : Nat := 0
  timeInTraceable : Bool := false
  timeInDelay : Int := 0
  timeInError : Int := 0
  /-- The latest accepted edge. -/
  timeInLast : Option Instant := none
  timeInSince : Instant := 0
  timeInLost : Bool := false
  /-- A TIME IN measurement that the regulator has not taken yet. -/
  timeInNew : Option Int := none
  glitchEvent : Limiter := {}
  timeOut : Option TimeOutCfg := none
  squelched : Bool := false
  /-- The latest rising edge of TIME OUT, and the number of edges since the function was set. -/
  lastEdge : Option Instant := none
  pulses : Nat := 0
  oneShotDone : Bool := false
  /-- Error of the other IO die's counter against the timebase, in 0.25 ns (R282). -/
  otherErr : Int := 0
  lastCompare : Instant := 0
  /-- The supervisor island's saved counter and the balance-clock time of its stop (R305). -/
  savedCounter : Instant := 0
  savedAt : Instant := 0
  ocxoStable : Bool := false
  ocxoAlarm : Bool := false
deriving DecidableEq, Repr, Inhabited

end Sys2Proof.Machine
end

