-- ==== Sys2Proof/Machine/Types/Vcp.lean ====
section
/-! DEFINITION. State of the command protocol: sessions, packets in execution, claims (02_command_protocol.md). -/

namespace Sys2Proof.Machine

/-- Where a packet came from and where it arrived, so where its reply goes and leaves from (R28): port and interface, the VID of its frame
(0 untagged), the sender's address and UDP port, and the module's. Addresses of IPv4 lie below 2^32. -/
structure Peer where
  port  : Nat := 0
  iface : Nat := 0
  vid   : Nat := 0
  addr  : Nat := 0
  udp   : Nat := 0
  localAddr : Nat := 0
  localUdp  : Nat := 0
deriving DecidableEq, Repr, Inhabited

/-- A SERVER_HELLO as sent (Table 2.4); kept to be resent byte for byte (R36). -/
structure ServerHello where
  moduleRandom : Nat
  session : Nat
  maxDatagram : Nat
  validityUnchecked : Bool
  settingMode : Bool
  moduleShare : Nat
  signature : Nat
deriving DecidableEq, Repr, Inhabited

/-- The keys and nonces of a session (R34). -/
structure SessionKeys where
  keyC2m : Nat := 0
  keyM2c : Nat := 0
  ivC2m  : Nat := 0
  ivM2c  : Nat := 0
deriving DecidableEq, Repr, Inhabited

/-- A half-open session (R35, R36). -/
structure HalfOpen where
  id : Nat
  clientRandom : Nat
  created : Instant
  hello : ServerHello
  keys : SessionKeys := {}
  /-- The authority key of the controller's certificate, its subject's key, and the transcript hash. -/
  certKey : Nat := 0
  subjectKey : Nat := 0
  transcript : List Byte := []
deriving DecidableEq, Repr, Inhabited

/-- One result record of a reply (Table 2.6). -/
structure ResultRec where
  opcode : Nat
  tag    : Nat
  status : Status
  block  : List Byte := []
deriving DecidableEq, Repr, Inhabited

/-- A whole reply, before it is cut into fragments (Table 2.7). -/
structure Reply where
  cmdSeq : Nat
  status : Status
  arrival : Instant
  effective : Instant
  fragments : List (List ResultRec) := [[]]
  firstSeq : Nat := 0
  /-- Its packets as sent: they are resent byte for byte (R40). -/
  wire : List (List Byte) := []
deriving DecidableEq, Repr, Inhabited

/-- What the session records of one sequence of its window (R40): the packet's tag and its state. -/
inductive SeqState where
  | executing
  | answered (r : Reply)
deriving DecidableEq, Repr, Inhabited

/-- One entry of the replay window (R40). -/
structure WinEntry where
  seq : Nat
  tag : Nat
  st  : SeqState
deriving DecidableEq, Repr, Inhabited

/-- An established session (R35 to R42). -/
structure Session where
  id : Nat
  maxDatagram : Nat := 1280
  established : Instant := 0
  lastPacket  : Instant := 0
  expiringRaised : Bool := false
  expired : Option Instant := none
  high : Nat := 0
  window : List WinEntry := []
  txSeq : Nat := 1
  keys : SessionKeys := {}
  peer : Peer := {}
  certKey : Nat := 0
deriving DecidableEq, Repr, Inhabited

/-- What a claim holds (R399). -/
inductive Resource where
  | timeOut
  | launchTimer (timer : Nat)
  | pin (ctx : Nat)
  | policer (id ctx : Nat)
  | sealExport (pkg : Nat)
  | sealImport (pkg : Nat)
  | tieLine (srcDie srcPort dstDie dstPort : Nat)
  | bistSlice (site : Nat)
  | onCommandTest (die : Nat)
deriving DecidableEq, Repr, Inhabited

/-- A claim (R55, R56). `session` is 0 for a module-internal holder. -/
structure Claim where
  id : Nat
  site : Nat
  session : Nat
  opcode : Nat
  taken : Instant
  res : Resource
deriving DecidableEq, Repr, Inhabited

/-- A command record of a packet (Table 2.6): opcode, tag and parameter block. -/
structure PktRec where
  opcode : Nat
  tag    : Nat
  block  : List Byte := []
deriving DecidableEq, Repr, Inhabited

/-- A command packet in execution (R38 to R47): its preamble, the records still to run, and the results of those that
have run. `status` other than OK is the packet status of R401: no command runs. -/
structure ExecPkt where
  session : Nat
  seq : Nat
  tag : Nat := 0
  peer : Peer := {}
  arrival : Instant := 0
  deadline : Instant := 0
  applyAt : Instant := 0
  /-- Records that have still to run, in record order (R44). -/
  todo : List PktRec := []
  atomic : Bool := false
  stopOnError : Bool := false
  status : Status := .ok
  results : List ResultRec := []
  failed : Bool := false
  claims : List Nat := []
deriving DecidableEq, Repr, Inhabited

/-- How a port gets its routable address (R29). -/
inductive AddrPhase where
  | idle | dhcp6 | dhcp4 | bound (family : Nat) | commanded (family : Nat)
deriving DecidableEq, Repr, Inhabited

/-- Management addressing of one port (R28, R29, R58). -/
structure PortAddr where
  phase : AddrPhase := .idle
  phaseSince : Instant := 0
  retransmissions : Nat := 0
  family : Nat := 0
  addr : Nat := 0
  gateway : Nat := 0
  prefixLen : Nat := 0
  /-- The end of the lease, unless it is infinite; T1 and T2 of the lease. -/
  leaseEnd : Instant := 0
  infinite : Bool := false
  renewAt : Instant := 0
  rebindAt : Instant := 0
  /-- The lease is being renewed (1), or rebound (2). -/
  asking : Nat := 0
  /-- The timer of the latest request, and when it runs out. -/
  wait : Nat := 0
  nextTx : Instant := 0
  vcpPort : Nat := 4740
  vid : Nat := 0
  vcpSecond : Nat := 0
  vcpCount : Nat := 0
  helloSecond : Nat := 0
  helloCount : Nat := 0
  vcpDrops : Ctr := 0
  helloDrops : Ctr := 0
deriving DecidableEq, Repr, Inhabited

/-- The command complex of the module. -/
structure VcpState where
  half : List HalfOpen := []
  sessions : List Session := []
  executing : List ExecPkt := []
  claims : List Claim := []
  nextClaim : Nat := 1
  draws : Nat := 0
  /-- Second of the latest REJECT sent, per source address (R32). -/
  rejects : Tab Nat := []
  rejectsSuppressed : Ctr := 0
  addrA : PortAddr := {}
  addrB : PortAddr := {}
  /-- `VCP_DROPPED` limiters, by 8 × port + reason (R354). -/
  dropEvents : Tab Limiter := []
deriving DecidableEq, Repr, Inhabited

/-- Service of the two packages (R14 to R18): who is primary, and the heartbeat. -/
structure RoleState where
  primary : Nat := 0
  up0 : Bool := false
  up1 : Bool := false
  /-- When the primary's latest heartbeat was due (one in 1 ms), when the standby saw the latest, and when the primary saw its answer. -/
  lastTick : Instant := 0
  lastBeat : Instant := 0
  lastAnswer : Instant := 0
  coresHeld0 : Bool := false
  coresHeld1 : Bool := false
  takeovers : Nat := 0
deriving DecidableEq, Repr, Inhabited

end Sys2Proof.Machine
end

