-- ==== Sys2Proof/Syntax.lean ====
section
/-! DEFINITION. The commands of the block: one constructor per row of spec/opcode_table.json, and their operands.
Every command carries `dt`, the time that has passed since the command before it, in units of 2^-16 ns.
What a row carries besides the spec's own operands (dt, verdicts, errors met on the way) is a DESIGN CHOICE (log entries 2, 7, 50, 51). -/

namespace Sys2Proof

open Sys2Proof.Machine (Peer PktRec AuContent Parent)

/-- A command record that runs: the time since the previous command, the session and sequence of its packet, the
controller's tag (Tables 2.1 and 2.6), and the number of the fault record when control firmware meets a fault while it
runs the command (R353). The opcode is the constructor's. -/
structure CmdRef where
  dt : Nat
  session : Nat
  seq : Nat
  tag : Nat
  firmwareFault : Option Nat := none
deriving DecidableEq, Repr, Inhabited

/-- A CLIENT_HELLO as received: the UDP payload, header included (Tables 2.1 and 2.3). What the reading of the certificate gives, which no
state of the module enters, stands beside it: `certConform` says that it is well-formed DER and meets the first, third and fourth
condition of R33; `subjectKey` is the point (X, then Y) of its subject, and `caKey` that of the authority key under which its signature
verifies. `notBefore` and `notAfter` are TAI seconds. -/
structure HelloRx where
  dt : Nat
  peer : Peer
  bytes : List Byte
  certConform : Bool := true
  subjectKey : Nat := 0
  caKey : Option Nat
  notBefore : Nat := 0
  notAfter : Nat
deriving DecidableEq, Repr, Inhabited

/-- A VCP packet as received: the UDP payload, and where it came from and arrived. -/
structure VcpRx where
  dt : Nat
  peer : Peer
  bytes : List Byte
deriving DecidableEq, Repr, Inhabited

/-- What is read of the payload of a COMMAND packet: the preamble of Table 2.5 and its records. `countOk` says that the records and their
padding fill the payload (R38). -/
structure CmdPayload where
  deadline : Nat := 0
  applyAt : Nat := 0
  countOk : Bool := true
  flags : Nat := 0
  reservedZero : Bool := true
  statusZero : Bool := true
  records : List PktRec
deriving DecidableEq, Repr, Inhabited

/-- What happens at a FIFO or on a read of a stack (R319 to R323): a producer writes and closes a packet; a consumer reads words of the packet
notified, its end lying 0 in the die, 1 across a die-to-die link or 2 across the inter-package link, and the bank's credit takes so many ns back;
a read beyond the notified packet; a word that fails parity; a single or double error of an ECC FIFO; and a single or double error of a stack's
word, given by its stack address. -/
inductive Hap where
  | fifoPut (site fifo words : Nat)
  | fifoGet (site fifo words reach back : Nat)
  | fifoUnderrun (site fifo : Nat)
  | fifoParity (site fifo : Nat)
  | fifoCorrected (site fifo : Nat)
  | fifoUncorrected (site fifo : Nat)
  | hbmCorrected (stack addr : Nat)
  | hbmUncorrected (stack addr : Nat)
deriving DecidableEq, Repr, Inhabited

/-- A request that waits at a pseudo-channel (R314): its class, the quadrant of its real-time port, and how long it has waited, in ns. -/
structure MemReq where
  realTime : Bool
  quad : Nat := 0
  age : Nat := 0
deriving DecidableEq, Repr, Inhabited

/-- An RTP packet as it reaches a packet cluster: the frame's bytes, from destination MAC through FCS. What the reading of a media payload
gives, which no rule computes from its bits, stands beside it: `start` a start packet of Table 7.3, `au` what the bits of the access unit
say once its start is received, `twentyMs` and `fecNext` of an audio packet (R229, R232). `poison` says that a word of the packet was
delivered with a poison tag (R322). -/
structure RtpRx where
  dt : Nat
  port : Nat
  iface : Nat := 0
  bytes : List Byte
  start : Bool := false
  au : Option AuContent := none
  twentyMs : Bool := true
  fecNext : Bool := false
  haps : List Hap := []
  poison : Bool := false
deriving DecidableEq, Repr, Inhabited

/-- A PTP message as it reaches the time unit of a port: its frame's bytes, from destination MAC through FCS, and its stamp at the MAC
time-stamp point. -/
structure PtpRx where
  dt : Nat
  port : Nat
  rxMac : Nat
  bytes : List Byte
  haps : List Hap := []
deriving DecidableEq, Repr, Inhabited

/-- A frame as it reaches the MAC of an interface: its bytes, from destination MAC through FCS. `fifoFull` says that the input FIFO of the
frame's packet cluster cannot accept it (R82). -/
structure FrameRx where
  dt : Nat
  port : Nat
  iface : Nat := 0
  bytes : List Byte
  fifoFull : Bool := false
  haps : List Hap := []
deriving DecidableEq, Repr, Inhabited

/-- The commands: one constructor per row of the operation table. -/
inductive Instr where
  /-- CLIENT_HELLO (R400): A CLIENT_HELLO is received and judged by rate, repeat, payload, session limits and certificate, and answered with SERVER_HELLO or REJECT. -/
  | clientHello (h : HelloRx)
  /-- CLIENT_FINISH (R35): A CLIENT_FINISH is received; the controller signature is verified and the session becomes established, with a REPLY of sequence 0. -/
  | clientFinish (p : VcpRx)
  /-- HALF_OPEN_TIMEOUT (R35): A half-open session that received no valid CLIENT_FINISH within 5 s is discarded silently. -/
  | halfOpenTimeout (dt id : Nat)
  /-- VCP_PACKET_REJECTED (R32): A received VCP packet fails magic, framing, version, session, tag, window or rate checks and is dropped or rejected. -/
  | vcpPacketRejected (p : VcpRx)
  /-- CACHED_REPLY_RESEND (R40): A retransmitted command packet whose sequence is answered gets its cached reply resent byte for byte, and nothing executes. -/
  | cachedReplyResend (p : VcpRx)
  /-- REPLY (R39): Once every command of a packet has completed, been staged or refused, the module sends one reply, fragmented at record boundaries. -/
  | reply (dt session seq : Nat)
  /-- SESSION_IDLE_TIMEOUT (R37): A session with no authenticated packet from the controller for 60 s ends and its keys are erased. -/
  | sessionIdleTimeout (dt id : Nat)
  /-- SESSION_EXPIRING (R37): One hour before a session's 24 h limit, the module raises the expiring event. -/
  | sessionExpiring (dt id : Nat)
  /-- SESSION_EXPIRY (R37): A session reaches 24 h or sequence 2^32 and expires; commands then get SESSION_EXPIRED. -/
  | sessionExpiry (dt id : Nat)
  /-- SESSION_ERASE (R37): 60 s after expiry the expired session is erased. -/
  | sessionErase (dt id : Nat)
  /-- DHCP_TIMEOUT (R29): No DHCPv6 or DHCPv4 server answered within 10 s, and the port moves to the other protocol. -/
  | dhcpTimeout (dt port : Nat)
  /-- DHCP_REPLY (R29): A DHCP server answers and the port takes or renews its routable address. -/
  | dhcpReply (dt port family addr prefixLen gateway renewAfter rebindAfter lease : Nat)
  /-- LEASE_EXPIRY (R29): A lease ends without renewal and the port returns to DHCPv6. -/
  | leaseExpiry (dt port : Nat)
  /-- HEARTBEAT (R16): Every 1 ms the primary's control complex sends a heartbeat to the standby, which answers it. -/
  | heartbeat (dt : Nat) (sent answered : Bool)
  /-- HEARTBEAT_LOSS (R16): The standby sees no heartbeat for 4 ms and signals takeover on the sideband pair. -/
  | heartbeatLoss (dt : Nat)
  /-- STANDBY_LOSS (R18): The primary sees no heartbeat answer for 4 ms and the standby package leaves media service. -/
  | standbyLoss (dt : Nat)
  /-- PRIMARY_LOSS_NO_STANDBY (R18): The supervisor island of a primary without standby detects loss of its heartbeat and the module makes a failed start at stage 4. -/
  | primaryLossNoStandby (dt : Nat)
  /-- CMD_NOP (R53): Does nothing and returns an empty result. -/
  | cmdNop (r : CmdRef) (b : List Byte)
  /-- CMD_SESSION_CLOSE (R57): Closes a session, erasing it after the reply when it is the sending session. -/
  | cmdSessionClose (r : CmdRef) (b : List Byte)
  /-- CMD_MODULE_INFO (R4): Returns variant, mode, primary, fenced dies, firmware version and capacities. -/
  | cmdModuleInfo (r : CmdRef) (b : List Byte)
  /-- CMD_SET_ADDRESS (R58): Sets a port's routable address, gateway, VCP port and VID, effective after the reply. -/
  | cmdSetAddress (r : CmdRef) (b : List Byte)
  /-- CMD_CLAIM_QUERY (R399): Lists the claims recorded at or below a site, in pages. -/
  | cmdClaimQuery (r : CmdRef) (b : List Byte)
  /-- CMD_CLAIM_RELEASE (R56): Releases a claim with the effect of its subject's freeing command. -/
  | cmdClaimRelease (r : CmdRef) (b : List Byte)
  /-- CMD_ESCAPEMENT_STATUS (R62): Returns a cluster escapement's bank, usage, counts and grid slots. -/
  | cmdEscapementStatus (r : CmdRef) (b : List Byte)
  /-- CMD_TABLE_READ (R66): Returns a page of descriptors or segments of the active or shadow bank. -/
  | cmdTableRead (r : CmdRef) (b : List Byte)
  /-- CMD_POOL_STATUS (R69): Returns a die's task pool occupancy, peak, committed bound and stall counts. -/
  | cmdPoolStatus (r : CmdRef) (b : List Byte)
  /-- CMD_TASK_TRACE_ARM (R79): Arms a trace to capture the next issued instance of an entry, replacing any earlier trace. -/
  | cmdTaskTraceArm (r : CmdRef) (b : List Byte)
  /-- CMD_TASK_TRACE_READ (R79): Reads the cluster's trace state and stamps. -/
  | cmdTaskTraceRead (r : CmdRef) (b : List Byte)
  /-- CMD_STREAM_CREATE (R109): Creates a port or die-sourced stream context, binding key, policer and buffer. -/
  | cmdStreamCreate (r : CmdRef) (b : List Byte)
  /-- CMD_STREAM_DELETE (R109): Deletes a context with its targets and releases its pin and policer claims. -/
  | cmdStreamDelete (r : CmdRef) (b : List Byte)
  /-- CMD_TARGET_ADD (R88): Adds an outgoing target to a context and returns its number and express mode. -/
  | cmdTargetAdd (r : CmdRef) (b : List Byte)
  /-- CMD_TARGET_SELECT (R93): Changes a target's layer selection, applied at a frame start or switch point. -/
  | cmdTargetSelect (r : CmdRef) (b : List Byte)
  /-- CMD_TARGET_REMOVE (R403): Removes a target from a context. -/
  | cmdTargetRemove (r : CmdRef) (b : List Byte)
  /-- CMD_STREAM_PIN (R104): Pins a port context onto the express path, taking a claim. -/
  | cmdStreamPin (r : CmdRef) (b : List Byte)
  /-- CMD_STREAM_UNPIN (R115): Unpins a context, returning its key contexts to HBM when no pinned user remains. -/
  | cmdStreamUnpin (r : CmdRef) (b : List Byte)
  /-- CMD_STREAM_STATUS (R101): Returns a context's counters and latest arrival stamp. -/
  | cmdStreamStatus (r : CmdRef) (b : List Byte)
  /-- CMD_PARSE_COUNTERS (R84): Returns a port's parser drop counters. -/
  | cmdParseCounters (r : CmdRef) (b : List Byte)
  /-- CMD_KEY_INSTALL (R113): Installs a key context, deriving its session keys once. -/
  | cmdKeyInstall (r : CmdRef) (b : List Byte)
  /-- CMD_KEY_DELETE (R115): Zeroises and frees a key context. -/
  | cmdKeyDelete (r : CmdRef) (b : List Byte)
  /-- CMD_KEY_STATUS (R118): Returns a key context's state, counts, limits and references. -/
  | cmdKeyStatus (r : CmdRef) (b : List Byte)
  /-- CMD_KEY_LIMIT (R119): Sets new usage limits from the effective instant, spending or reviving the context. -/
  | cmdKeyLimit (r : CmdRef) (b : List Byte)
  /-- CMD_KEY_LINK (R121): Links a key context to its next_ctx, or unlinks it. -/
  | cmdKeyLink (r : CmdRef) (b : List Byte)
  /-- CMD_KEY_ROLL (R125): Rolls a target's egress key or a context's ingress key to another key context. -/
  | cmdKeyRoll (r : CmdRef) (b : List Byte)
  /-- CMD_SEAL_KEY (R133): Installs or replaces a seal key of an IO die. -/
  | cmdSealKey (r : CmdRef) (b : List Byte)
  /-- CMD_SEAL_EXPORT_SEND (R130): Action 0: takes the export claim, seals the listed buffers and sends the image. -/
  | cmdSealExportSend (r : CmdRef) (b : List Byte)
  /-- CMD_SEAL_EXPORT_RESEND (R131): Action 1: resends a range of segments of the image. -/
  | cmdSealExportResend (r : CmdRef) (b : List Byte)
  /-- CMD_SEAL_EXPORT_STATUS (R131): Action 2: returns the export state and bytes sent. -/
  | cmdSealExportStatus (r : CmdRef) (b : List Byte)
  /-- CMD_SEAL_EXPORT_DISCARD (R130): Action 3: discards the export and releases its claim. -/
  | cmdSealExportDiscard (r : CmdRef) (b : List Byte)
  /-- CMD_SEAL_IMPORT_ARM (R132): Action 0: takes the import claim and binds the destination address and port for segments. -/
  | cmdSealImportArm (r : CmdRef) (b : List Byte)
  /-- CMD_SEAL_IMPORT_STATUS (R132): Action 1: returns the import state, bytes received and first missing segment. -/
  | cmdSealImportStatus (r : CmdRef) (b : List Byte)
  /-- CMD_SEAL_IMPORT_OPEN (R129): Action 2: verifies, decrypts and checks the image, then writes its objects into the receiving buffers. -/
  | cmdSealImportOpen (r : CmdRef) (b : List Byte)
  /-- CMD_SEAL_IMPORT_DISCARD (R130): Action 3: discards the import and releases its claim. -/
  | cmdSealImportDiscard (r : CmdRef) (b : List Byte)
  /-- CMD_LEG_SET (R136): Creates or changes a leg queue with its class, shaper, depth, weight and timer. -/
  | cmdLegSet (r : CmdRef) (b : List Byte)
  /-- CMD_LEG_DELETE (R150): Deletes a leg queue that nothing names. -/
  | cmdLegDelete (r : CmdRef) (b : List Byte)
  /-- CMD_CLASS_SET (R141): Sets an interface's strict count, overhead, class weights and class buckets. -/
  | cmdClassSet (r : CmdRef) (b : List Byte)
  /-- CMD_POLICER_SET (R150): Creates or changes a policer, clamping its buckets. -/
  | cmdPolicerSet (r : CmdRef) (b : List Byte)
  /-- CMD_POLICER_DELETE (R150): Deletes a policer that no context names. -/
  | cmdPolicerDelete (r : CmdRef) (b : List Byte)
  /-- CMD_POLICER_STATUS (R143): Returns a policer's colour counts and bucket contents. -/
  | cmdPolicerStatus (r : CmdRef) (b : List Byte)
  /-- CMD_DSCP_COLOUR (R143): Sets an IO die's DSCP pre-colour map. -/
  | cmdDscpColour (r : CmdRef) (b : List Byte)
  /-- CMD_LAUNCH_TIMER_SET (R145): Action 0: sets a launch timer and takes its claim. -/
  | cmdLaunchTimerSet (r : CmdRef) (b : List Byte)
  /-- CMD_LAUNCH_TIMER_FREE (R145): Action 1: frees a launch timer that no leg names. -/
  | cmdLaunchTimerFree (r : CmdRef) (b : List Byte)
  /-- CMD_LAUNCH_TIMER_READ (R145): Action 2: returns a timer's window, miss and frame counts. -/
  | cmdLaunchTimerRead (r : CmdRef) (b : List Byte)
  /-- CMD_LAUNCH_TIMER_CHANGE (R145): Action 3: changes a held timer's parameters, keeping its claim. -/
  | cmdLaunchTimerChange (r : CmdRef) (b : List Byte)
  /-- CMD_QUEUE_STATUS (R139): Returns a leg's depth, bucket, age and counters. -/
  | cmdQueueStatus (r : CmdRef) (b : List Byte)
  /-- CMD_QUEUE_SAMPLING (R149): Replaces or extends an IO die's sampling list and sets its interval. -/
  | cmdQueueSampling (r : CmdRef) (b : List Byte)
  /-- CMD_DECODE_CREATE (R173): Creates a decode stream on a decode unit, allocating surfaces and stream buffer. -/
  | cmdDecodeCreate (r : CmdRef) (b : List Byte)
  /-- CMD_DECODE_DELETE (R173): Deletes a decode stream that nothing delivers to or names. -/
  | cmdDecodeDelete (r : CmdRef) (b : List Byte)
  /-- CMD_DECODE_SELECT (R174): Changes a stream's operating point and output layers. -/
  | cmdDecodeSelect (r : CmdRef) (b : List Byte)
  /-- CMD_DECODE_RESYNC (R175): Abandons held access units, discards released ones and clears carried notices. -/
  | cmdDecodeResync (r : CmdRef) (b : List Byte)
  /-- CMD_DECODE_STATUS (R164): Returns a decode stream's backlog, concealment state and counters. -/
  | cmdDecodeStatus (r : CmdRef) (b : List Byte)
  /-- CMD_DECODE_LOAD (R157): Returns the committed charge and free space of a decode unit or die. -/
  | cmdDecodeLoad (r : CmdRef) (b : List Byte)
  /-- CMD_COMPOSE_CREATE (R177): Creates a personalised output on a composer with its destinations. -/
  | cmdComposeCreate (r : CmdRef) (b : List Byte)
  /-- CMD_COMPOSE_DELETE (R195): Deletes an output that no layer or table entry names. -/
  | cmdComposeDelete (r : CmdRef) (b : List Byte)
  /-- CMD_COMPOSE_LAYER (R196): Adds, changes or removes a video or graphic layer of an output. -/
  | cmdComposeLayer (r : CmdRef) (b : List Byte)
  /-- CMD_COMPOSE_REGION (R191): Adds, changes or removes a guarded region with its action and expected CRC. -/
  | cmdComposeRegion (r : CmdRef) (b : List Byte)
  /-- CMD_COMPOSE_STATUS (R193): Returns an output's layers, stale counts, CRCs and counters. -/
  | cmdComposeStatus (r : CmdRef) (b : List Byte)
  /-- CMD_GRAPHIC_CREATE (R195): Creates a double-buffered graphic surface filled with zeros. -/
  | cmdGraphicCreate (r : CmdRef) (b : List Byte)
  /-- CMD_GRAPHIC_WRITE (R196): Writes bytes into a graphic surface's back buffer. -/
  | cmdGraphicWrite (r : CmdRef) (b : List Byte)
  /-- CMD_GRAPHIC_FLIP (R196): Makes the back buffer the front from the effective instant. -/
  | cmdGraphicFlip (r : CmdRef) (b : List Byte)
  /-- CMD_GRAPHIC_DELETE (R195): Deletes a graphic surface that no layer names. -/
  | cmdGraphicDelete (r : CmdRef) (b : List Byte)
  /-- CMD_COMPOSE_FILTER (R186): Loads phases of a scaler filter set of a die. -/
  | cmdComposeFilter (r : CmdRef) (b : List Byte)
  /-- CMD_ENCODE_CREATE (R220): Creates an encode leg, single or ganged, with its surfaces and bitstream buffer. -/
  | cmdEncodeCreate (r : CmdRef) (b : List Byte)
  /-- CMD_ENCODE_DELETE (R220): Deletes an encode leg whose bitstream buffer no context names. -/
  | cmdEncodeDelete (r : CmdRef) (b : List Byte)
  /-- CMD_ENCODE_SET (R215): Changes a leg's rate, buffer, size, rotation, qp range and intervals. -/
  | cmdEncodeSet (r : CmdRef) (b : List Byte)
  /-- CMD_ENCODE_KEYFRAME (R216): Mode 0: requests a key frame on the leg. -/
  | cmdEncodeKeyframe (r : CmdRef) (b : List Byte)
  /-- CMD_ENCODE_RECOVERY (R216): Mode 1 of CMD_ENCODE_KEYFRAME: requests a recovery frame from slot 1. -/
  | cmdEncodeRecovery (r : CmdRef) (b : List Byte)
  /-- CMD_ENCODE_STATUS (R212): Returns a leg's frame number, fullness, ceiling, size and counters. -/
  | cmdEncodeStatus (r : CmdRef) (b : List Byte)
  /-- CMD_ENCODE_LOAD (R206): Returns an encode unit's charge, legs, gang membership and modelled end. -/
  | cmdEncodeLoad (r : CmdRef) (b : List Byte)
  /-- CMD_AUDIO_LEG_CREATE (R242): Creates an audio leg on a unit slot with its buffers. -/
  | cmdAudioLegCreate (r : CmdRef) (b : List Byte)
  /-- CMD_AUDIO_LEG_DELETE (R242): Deletes an audio leg whose buffers no context names. -/
  | cmdAudioLegDelete (r : CmdRef) (b : List Byte)
  /-- CMD_AUDIO_SET (R239): Changes a leg's encoder settings, jitter-buffer target, VAD threshold or forces a resync. -/
  | cmdAudioSet (r : CmdRef) (b : List Byte)
  /-- CMD_AUDIO_STAGE (R226): Sets or removes an equaliser, suppression or gain-control stage on a path. -/
  | cmdAudioStage (r : CmdRef) (b : List Byte)
  /-- CMD_AUDIO_STEER (R237): Sets a leg's steering gains k_b and k_j. -/
  | cmdAudioSteer (r : CmdRef) (b : List Byte)
  /-- CMD_AUDIO_STATUS (R235): Returns a leg's jitter-buffer, steering state and counters. -/
  | cmdAudioStatus (r : CmdRef) (b : List Byte)
  /-- CMD_AUDIO_LOAD (R228): Returns an audio unit's committed cycles, reserve and legs. -/
  | cmdAudioLoad (r : CmdRef) (b : List Byte)
  /-- CMD_AUDIO_TABLE_READ (R234): Returns coefficients of the converter or decimator tables. -/
  | cmdAudioTableRead (r : CmdRef) (b : List Byte)
  /-- CMD_XP_NODE (R250): Sets, ramps or removes crosspoint nodes. -/
  | cmdXpNode (r : CmdRef) (b : List Byte)
  /-- CMD_XP_TIE_CONNECT (R254): Claims an output tie port and an input tie port to join two dies. -/
  | cmdXpTieConnect (r : CmdRef) (b : List Byte)
  /-- CMD_XP_TIE_FREE (R254): Frees a tie line that no node names. -/
  | cmdXpTieFree (r : CmdRef) (b : List Byte)
  /-- CMD_XP_TALKER_GROUP_SET (R257): Adds or changes a talker group's selection parameters. -/
  | cmdXpTalkerGroupSet (r : CmdRef) (b : List Byte)
  /-- CMD_XP_TALKER_GROUP_DELETE (R261): Deletes a talker group, returning its members' nodes to commanded gains. -/
  | cmdXpTalkerGroupDelete (r : CmdRef) (b : List Byte)
  /-- CMD_XP_TALKER_MEMBER_ADD (R257): Adds leg ports to a talker group, pinned or not. -/
  | cmdXpTalkerMemberAdd (r : CmdRef) (b : List Byte)
  /-- CMD_XP_TALKER_MEMBER_REMOVE (R257): Removes leg ports from a talker group. -/
  | cmdXpTalkerMemberRemove (r : CmdRef) (b : List Byte)
  /-- CMD_XP_NODE_READ (R257): Returns a node's state, gains and ramp. -/
  | cmdXpNodeRead (r : CmdRef) (b : List Byte)
  /-- CMD_XP_STATUS (R244): Returns a crosspoint's node, tie and group counts, service and counters. -/
  | cmdXpStatus (r : CmdRef) (b : List Byte)
  /-- CMD_XP_TALKERS (R258): Returns a group's current talker set. -/
  | cmdXpTalkers (r : CmdRef) (b : List Byte)
  /-- CMD_XP_GAIN_TABLE_READ (R248): Returns words of the linear gain table. -/
  | cmdXpGainTableRead (r : CmdRef) (b : List Byte)
  /-- CMD_BEACON_SET (R280): Enables and configures a leg's beacon modulator and receiver. -/
  | cmdBeaconSet (r : CmdRef) (b : List Byte)
  /-- CMD_BEACON_STATUS (R279): Returns a leg's beacon lock, loading, epsilon and counters. -/
  | cmdBeaconStatus (r : CmdRef) (b : List Byte)
  /-- CMD_BEACON_HEARD (R277): Returns a page of a leg's heard table. -/
  | cmdBeaconHeard (r : CmdRef) (b : List Byte)
  /-- CMD_BEACON_LOADING (R270): Returns a leg's smoothed SNR and bit loading per pair. -/
  | cmdBeaconLoading (r : CmdRef) (b : List Byte)
  /-- CMD_BEACON_TABLE_READ (R262): Returns band-limiter coefficients. -/
  | cmdBeaconTableRead (r : CmdRef) (b : List Byte)
  /-- CMD_TIME_STATUS (R283): Returns timebase state, source, offset, steer and counters. -/
  | cmdTimeStatus (r : CmdRef) (b : List Byte)
  /-- CMD_PTP_CLOCK (R290): Sets the PTP clock role, profile, domain and priorities. -/
  | cmdPtpClock (r : CmdRef) (b : List Byte)
  /-- CMD_PTP_PORT (R306): Sets a PTP port's transport, intervals, asymmetry, extras and masters. -/
  | cmdPtpPort (r : CmdRef) (b : List Byte)
  /-- CMD_PTP_PORT_STATUS (R306): Returns a PTP port's state, parent data and counters. -/
  | cmdPtpPortStatus (r : CmdRef) (b : List Byte)
  /-- CMD_REGULATOR_SET (R298): Action 0: sets regulator sources, gains, limits and thresholds. -/
  | cmdRegulatorSet (r : CmdRef) (b : List Byte)
  /-- CMD_REGULATOR_FORCE_HOLDOVER (R298): Action 1: forces HOLDOVER from LOCKED. -/
  | cmdRegulatorForceHoldover (r : CmdRef) (b : List Byte)
  /-- CMD_REGULATOR_RELEASE_HOLDOVER (R298): Action 2: leaves HOLDOVER for ACQUIRING at the next measurement. -/
  | cmdRegulatorReleaseHoldover (r : CmdRef) (b : List Byte)
  /-- CMD_TIME_SET (R285): Sets the counter and UTC offset when no step is forbidden. -/
  | cmdTimeSet (r : CmdRef) (b : List Byte)
  /-- CMD_TIME_IN (R300): Sets TIME IN mode, traceability and delay. -/
  | cmdTimeIn (r : CmdRef) (b : List Byte)
  /-- CMD_TIME_OUT_SET (R301): Action 0: claims TIME OUT and sets its function. -/
  | cmdTimeOutSet (r : CmdRef) (b : List Byte)
  /-- CMD_TIME_OUT_FREE (R301): Action 1: frees the TIME OUT claim. -/
  | cmdTimeOutFree (r : CmdRef) (b : List Byte)
  /-- CMD_TIME_OUT_CHANGE (R301): Action 2: changes the held TIME OUT function. -/
  | cmdTimeOutChange (r : CmdRef) (b : List Byte)
  /-- CMD_HBM_STATUS (R315): Returns a stack's temperature, refresh mode and counters. -/
  | cmdHbmStatus (r : CmdRef) (b : List Byte)
  /-- CMD_MEM_READ (R327): Reads stack memory through ECC without write-back. -/
  | cmdMemRead (r : CmdRef) (b : List Byte) (found : List (Nat × Bool))
  /-- CMD_FIFO_STATUS (R321): Returns a page of FIFO status entries of a site. -/
  | cmdFifoStatus (r : CmdRef) (b : List Byte)
  /-- CMD_AUDIT (R325): Holds grants, reads the requested books of a site and reports their balance. -/
  | cmdAudit (r : CmdRef) (b : List Byte)
  /-- CMD_PORT_MODE (R335): Sets a port's mode, admin state, media, MTU and holds, restarting bring-up. -/
  | cmdPortMode (r : CmdRef) (b : List Byte)
  /-- CMD_PORT_STATUS (R334): Returns a port's mode, media, MAC and per-interface state and counters. -/
  | cmdPortStatus (r : CmdRef) (b : List Byte)
  /-- CMD_LANE_STATUS (R336): Returns a lane's state, signal, equaliser taps and counters. -/
  | cmdLaneStatus (r : CmdRef) (b : List Byte)
  /-- CMD_LANE_QUIET (R338): Makes a lane direction quiet or lifts its quiet state. -/
  | cmdLaneQuiet (r : CmdRef) (b : List Byte)
  /-- CMD_LANE_TEST_END (R339): Action 0: ends every test on the lane and resumes adaptation. -/
  | cmdLaneTestEnd (r : CmdRef) (b : List Byte)
  /-- CMD_LANE_TEST_NEAR_LOOPBACK (R339): Action 1: starts near-end loopback. -/
  | cmdLaneTestNearLoopback (r : CmdRef) (b : List Byte)
  /-- CMD_LANE_TEST_FAR_LOOPBACK (R339): Action 2: starts far-end loopback. -/
  | cmdLaneTestFarLoopback (r : CmdRef) (b : List Byte)
  /-- CMD_LANE_TEST_PRBS (R339): Action 3: starts a PRBS pattern test. -/
  | cmdLaneTestPrbs (r : CmdRef) (b : List Byte)
  /-- CMD_LANE_TEST_SLIP (R339): Action 4: slips the receive word boundary during PRBS. -/
  | cmdLaneTestSlip (r : CmdRef) (b : List Byte)
  /-- CMD_LANE_TEST_TX_FFE (R339): Action 5: sets the lane's transmit FFE. -/
  | cmdLaneTestTxFfe (r : CmdRef) (b : List Byte)
  /-- CMD_LANE_TEST_FREEZE (R339): Action 6: freezes receive adaptation. -/
  | cmdLaneTestFreeze (r : CmdRef) (b : List Byte)
  /-- CMD_LANE_TEST_RESUME (R339): Action 7: resumes receive adaptation. -/
  | cmdLaneTestResume (r : CmdRef) (b : List Byte)
  /-- CMD_CMIS_READ (R344): Reads bytes from a page of the optics' CMIS memory. -/
  | cmdCmisRead (r : CmdRef) (b : List Byte)
  /-- CMD_CMIS_WRITE (R344): Writes bytes the module does not manage into the optics' CMIS memory. -/
  | cmdCmisWrite (r : CmdRef) (b : List Byte)
  /-- CMD_EVENT_SUBSCRIBE (R355): Action 0: creates or replaces the session's subscription. -/
  | cmdEventSubscribe (r : CmdRef) (b : List Byte)
  /-- CMD_EVENT_CANCEL (R362): Action 1 of CMD_EVENT_SUBSCRIBE: cancels the session's subscription. -/
  | cmdEventCancel (r : CmdRef) (b : List Byte)
  /-- CMD_EVENT_STATUS (R362): Returns merger counters and subscriber states. -/
  | cmdEventStatus (r : CmdRef) (b : List Byte)
  /-- CMD_EVENT_REPLAY (R358): Returns records of the subscriber's history by sequence. -/
  | cmdEventReplay (r : CmdRef) (b : List Byte)
  /-- CMD_EVENT_RAISE (R362): Raises a TEST_EVENT with the given data. -/
  | cmdEventRaise (r : CmdRef) (b : List Byte)
  /-- CMD_START_REPORT (R365): Returns the start report with fence and failed-start records. -/
  | cmdStartReport (r : CmdRef) (b : List Byte)
  /-- CMD_RESET_RESTART (R363): Kind 0: restarts the module, keeping the failed-start record. -/
  | cmdResetRestart (r : CmdRef) (b : List Byte)
  /-- CMD_RESET_RECOVER_DIE (R372): Kind 1: recovers one media die. -/
  | cmdResetRecoverDie (r : CmdRef) (b : List Byte)
  /-- CMD_RESET_CLEAR_RESTART (R370): Kind 2: clears the failed-start record and restarts. -/
  | cmdResetClearRestart (r : CmdRef) (b : List Byte)
  /-- CMD_IDENTITY (R382): Returns the serial number and identity certificate bytes. -/
  | cmdIdentity (r : CmdRef) (b : List Byte)
  /-- CMD_ATTEST (R383): Builds and signs an attestation report over the controller's nonce. -/
  | cmdAttest (r : CmdRef) (b : List Byte)
  /-- CMD_FIRMWARE_WRITE (R381): Writes image bytes into the non-preferred slot, erasing it at offset 0. -/
  | cmdFirmwareWrite (r : CmdRef) (b : List Byte)
  /-- CMD_FIRMWARE_COMMIT (R381): Checks the written image and makes its slot preferred. -/
  | cmdFirmwareCommit (r : CmdRef) (b : List Byte)
  /-- CMD_FIRMWARE_STATUS (R380): Returns slots, validity, versions and fallback per package. -/
  | cmdFirmwareStatus (r : CmdRef) (b : List Byte)
  /-- CMD_OTP_READ (R378): Reads the factory, settings or repair area of an OTP block. -/
  | cmdOtpRead (r : CmdRef) (b : List Byte)
  /-- CMD_OTP_WRITE_SETTINGS (R378): Area 2: programs and verifies the next settings generation in both blocks. -/
  | cmdOtpWriteSettings (r : CmdRef) (b : List Byte)
  /-- CMD_OTP_WRITE_REPAIRS (R379): Area 3: commits pending repairs as the next repair generation. -/
  | cmdOtpWriteRepairs (r : CmdRef) (b : List Byte)
  /-- CMD_BIST_CONTROL (R375): Enables or disables background self-test on a die. -/
  | cmdBistControl (r : CmdRef) (b : List Byte)
  /-- CMD_BIST_RESULTS (R376): Returns failure records or test verdicts. -/
  | cmdBistResults (r : CmdRef) (b : List Byte)
  /-- CMD_TEST_RUN_START (R377): Action 0: claims and fences a die and starts its full on-command test. -/
  | cmdTestRunStart (r : CmdRef) (b : List Byte)
  /-- CMD_TEST_RUN_STATUS (R377): Action 1: returns the on-command test's state and verdict. -/
  | cmdTestRunStatus (r : CmdRef) (b : List Byte)
  /-- CMD_TEST_RUN_ABORT (R377): Action 2: aborts the test with verdicts INCOMPLETE and leaves the die fenced. -/
  | cmdTestRunAbort (r : CmdRef) (b : List Byte)
  /-- CMD_DIE_FENCE (R371): Fences a media die. -/
  | cmdDieFence (r : CmdRef) (b : List Byte)
  /-- CMD_TEST_UNLOCK (R384): With the jumper fitted, stops service, zeroises keys and opens scan. -/
  | cmdTestUnlock (r : CmdRef) (b : List Byte)
  /-- TRIGGER_WORD (R302): At least 10,000 ns ahead of each beat the time unit sends each media die a trigger word. -/
  | triggerWord (dt die kind rate index : Nat) (haps : List Hap)
  /-- BEAT_TRIGGER (R302): When the replica reads the word's stamp plus 2 ns the die releases the unit-level trigger of the beat. -/
  | beatTrigger (dt die kind rate : Nat)
  /-- ESCAPEMENT_WALK (R63): At a beat's issue instant the escapement walks the firing segments and issues one task instance per entry. -/
  | escapementWalk (dt cluster : Nat)
  /-- ESCAPEMENT_RESUME (R77): A stalled escapement resumes at the same entry when a pool slot or ready-queue place frees. -/
  | escapementResume (dt cluster : Nat)
  /-- TASK_START (R71): A ready task instance starts on its unit once its trigger has arrived, the unit is free, its flow is idle and no test window runs. -/
  | taskStart (dt die inst : Nat)
  /-- TASK_EXPIRED (R76): A task's deadline passes with its count above zero and it runs partial or is cancelled. -/
  | taskExpired (dt die inst : Nat)
  /-- TEST_WINDOW (R78): A TEST_WINDOW task starts and a BIST slice runs in it or it ends at once. -/
  | testWindow (dt die inst : Nat)
  /-- DECODE_TASK (R163): A decode task completes, having decoded, discarded, concealed or broken an access unit, and posts its record. -/
  | decodeTask (dt die inst : Nat) (haps : List Hap)
  /-- COMPOSE_TASK (R181): A composition completes: layers latched and blended, regions checked, frame verified or withheld, record posted. -/
  | composeTask (dt die inst : Nat) (haps : List Hap) (poison : List (Nat × Nat × Nat))
  /-- GRAPHIC_COPY (R196): Once every composition that latched the old front has completed, the new front is copied into the new back buffer. -/
  | graphicCopy (dt surface : Nat)
  /-- ENCODE_TASK (R201): An encode task completes a key, inter, recovery or repeat frame under the row budget guard and posts its record. -/
  | encodeTask (dt die inst : Nat) (haps : List Hap) (poison : List (Nat × Nat))
  /-- GANG_FINISH (R211): A GANG_FINISH task filters tile boundaries, assembles the temporal unit and posts the leg's record. -/
  | gangFinish (dt die inst : Nat) (haps : List Hap) (poison : List (Nat × Nat))
  /-- RECEIVE_TASK (R222): A RECEIVE task completes: jitter buffer, decode slice, conversion, beacon receiver, stages and meter for one beat. -/
  | receiveTask (dt die inst : Nat) (haps : List Hap)
  /-- SEND_TASK (R238): A SEND task completes: stages, beacon modulator and an encode slice, posting a frame at the window's end. -/
  | sendTask (dt die inst : Nat) (haps : List Hap) (poison : List Nat)
  /-- MIX (R245): The die's MIX task completes, forming every output as a gain-weighted sum and advancing ramps. -/
  | mix (dt die inst : Nat) (haps : List Hap) (poison : List (Nat × Nat)) (transit : List Nat)
  /-- TALKER_SELECTION (R258): Once per codec frame firmware forms each group's talker set from the leg reports and writes new statuses. -/
  | talkerSelection (dt die : Nat)
  /-- BEACON_LOST (R277): A heard-table entry not heard for heard_timeout is removed, or replaced when the table is full. -/
  | beaconLost (dt leg : Nat)
  /-- RECEIVED_FRAME (R84): A frame received on a port is classified and dropped, sent to firmware, the time unit or the command FIFO, or looked up. -/
  | receivedFrame (f : FrameRx)
  /-- RTP_PACKET (R101): An RTP packet on the standard path is checked for replay, policed, authenticated, delivered and copied to its targets. -/
  | rtpPacket (p : RtpRx)
  /-- EXPRESS_PACKET (R105): A pinned context's header window completes and copies are committed cut-through or queued store-and-forward. -/
  | expressPacket (p : RtpRx)
  /-- TAG_VERDICT (R107): The late ingress tag verdict of a cut-through packet arrives and failing copies are poisoned. -/
  | tagVerdict (dt cut : Nat)
  /-- INGRESS_FRAME_END (R108): A cut-through ingress frame ends; a bad FCS or length stomps the copy's FCS. -/
  | ingressFrameEnd (dt cut : Nat)
  /-- RTCP_PACKET (R404): An RTCP packet is associated with a port context, decrypted and passed to firmware, which may relay PLI, FIR or NACK or schedule a key frame. -/
  | rtcpPacket (f : FrameRx)
  /-- KEY_AUTO_ROLL (R124): After KEY_NEAR_LIMIT firmware rolls every target of the context to next_ctx within 200,000 ns. -/
  | keyAutoRoll (dt key : Nat)
  /-- MIGRATION_SEGMENT (R132): A segment reaching an armed import is accepted and stored or dropped. -/
  | migrationSegment (f : FrameRx)
  /-- SEAL_COMPLETE (R128): Sealing of an export image completes. -/
  | sealComplete (dt pkg : Nat)
  /-- SEGMENT_SEND (R131): The exporter sends the next migration segment at the stated rate. -/
  | segmentSend (dt pkg : Nat)
  /-- EGRESS_SELECT (R137): An interface can start a frame and the scheduler selects a leg by class, weight, shaping and window fit. -/
  | egressSelect (dt port iface : Nat)
  /-- TRANSMIT_COMPLETE (R139): A frame's last bit leaves and its buffer cells are freed. -/
  | transmitComplete (dt port iface : Nat)
  /-- LAUNCH_WINDOW_OPEN (R146): A launch timer's window opens at beat plus offset. -/
  | launchWindowOpen (dt timer : Nat)
  /-- QUEUE_SAMPLE (R149): At a sampling instant the listed queues are read and their samples sent to subscribers. -/
  | queueSample (dt pkg : Nat)
  /-- AU_ABANDON (R161): reorder_wait after a newer access unit completed, the incomplete head is abandoned. -/
  | auAbandon (dt stream : Nat)
  /-- PTP_SYNC_RECEIVED (R292): A Sync is received and stamped, giving one PTP measurement or passing through the transparent clock. -/
  | ptpSyncReceived (x : PtpRx)
  /-- PTP_DELAY_REQ_RECEIVED (R291): A master port receives a Delay_Req and sends a Delay_Resp. -/
  | ptpDelayReqReceived (x : PtpRx)
  /-- PTP_DELAY_RESP_RECEIVED (R292): A Delay_Resp is received and replaces the path delay. -/
  | ptpDelayRespReceived (x : PtpRx)
  /-- PTP_ANNOUNCE_RECEIVED (R294): An Announce is received and the BMCA updates port state and parent. -/
  | ptpAnnounceReceived (x : PtpRx)
  /-- ANNOUNCE_TIMEOUT (R290): No Announce within announce_timeout intervals and the port re-runs the BMCA. -/
  | announceTimeout (dt port : Nat)
  /-- UNICAST_NEGOTIATION (R290): A unicast negotiation message grants, refuses or cancels a grant under profile 1. -/
  | unicastNegotiation (x : PtpRx)
  /-- PTP_SYNC_SEND (R291): A master port sends a one-step Sync at its interval. -/
  | ptpSyncSend (dt port : Nat)
  /-- PTP_DELAY_REQ_SEND (R291): A slave port sends a Delay_Req at its interval. -/
  | ptpDelayReqSend (dt port : Nat)
  /-- PTP_ANNOUNCE_SEND (R294): A master port sends an Announce advertising clockClass by timebase state. -/
  | ptpAnnounceSend (dt port : Nat)
  /-- REGULATOR_UPDATE (R297): The regulator takes one measurement per interval, steps or steers the OCXO and updates the timebase state. -/
  | regulatorUpdate (dt : Nat)
  /-- SOURCE_TIMEOUT (R283): A source gives no valid measurement for source_timeout and is lost. -/
  | sourceTimeout (dt : Nat)
  /-- HOLDOVER_EXPIRED (R284): holdover_limit seconds pass in HOLDOVER and the timebase stops being traceable. -/
  | holdoverExpired (dt : Nat)
  /-- TIME_IN_EDGE (R296): A 1PPS edge on TIME IN is stamped and accepted or rejected. -/
  | timeInEdge (dt stamp : Nat)
  /-- TIME_IN_AVERAGE (R296): Each second the 10 MHz TIME IN error is averaged into one measurement. -/
  | timeInAverage (dt : Nat) (edges : List Nat)
  /-- TIME_IN_LOST (R300): No accepted 1PPS edge for 3 s, or 10 MHz amplitude fails for 1 ms. -/
  | timeInLost (dt : Nat) (amplitudeFailed : Bool)
  /-- TIME_OUT_EDGE (R301): TIME OUT emits its 1PPS, 10 MHz or mirror edge at its instant. -/
  | timeOutEdge (dt : Nat)
  /-- ONE_SHOT (R301): TIME OUT emits its one-shot pulse at the set instant. -/
  | oneShot (dt : Nat)
  /-- COUNTER_COMPARE (R282): Once per second the other IO die's counter is compared with the timebase and slewed. -/
  | counterCompare (dt : Nat) (err : Int)
  /-- REPLICA_CHECK (R302): Each second a media die's replica counter is checked and slewed. -/
  | replicaCheck (dt die : Nat) (err : Int)
  /-- OCXO_STABLE (R398): The OCXO reaches its stability after warm-up. -/
  | ocxoStable (dt : Nat)
  /-- REFRESH_DUE (R315): A pseudo-channel's refresh falls due and is issued, postponed or forced. -/
  | refreshDue (dt stack pch issued : Nat) (reqs : List MemReq)
  /-- TEMPERATURE_READING (R316): Every 10,000 ns the package reads each stack's temperature and switches refresh mode. -/
  | temperatureReading (dt stack : Nat) (t : Int)
  /-- HBM_SCRUB (R319): The background scrub reads and corrects the words of a pseudo-channel. -/
  | hbmScrub (dt stack pch : Nat) (found : List (Nat × Bool))
  /-- BEAT_AUDIT (R325): At each audio beat every die audits every book it holds. -/
  | beatAudit (dt die : Nat) (leaks : List (Nat × Int))
  /-- OPTICS_INSERTED (R343): Optics are detected in a cage and management access begins. -/
  | opticsInserted (dt port media : Nat) (modes : List Nat) (advertisedMs : Nat) (highWarning : Int)
  /-- OPTICS_REMOVED (R343): Optics are removed and every interface of the port goes down. -/
  | opticsRemoved (dt port : Nat)
  /-- CMIS_POLL (R343): Every 100 ms the module reads the optics' flags and advances media readiness. -/
  | cmisPoll (dt port moduleState : Nat) (activated : List Nat) (flags : List (Nat × Nat × Nat × Nat)) (temperature : Int) (status : Nat)
  /-- BRINGUP_STAGE_COMPLETE (R333): A bring-up stage's work completes and the interface moves to the next stage. -/
  | bringupStageComplete (dt port iface mode : Nat) (limits : List (Nat × Nat))
  /-- BRINGUP_STAGE_TIMEOUT (R333): A bring-up stage times out and the interface counts bringup_fail. -/
  | bringupStageTimeout (dt port iface : Nat)
  /-- BRINGUP_RETRY (R333): 100 ms after a timeout the interface restarts at stage 1. -/
  | bringupRetry (dt port iface : Nat)
  /-- UP_HOLD_END (R334): Alignment has held for up_hold and the interface goes up. -/
  | upHoldEnd (dt port iface : Nat)
  /-- DOWN_HOLD_END (R334): Lock loss or remote fault persists for down_hold and the interface goes down. -/
  | downHoldEnd (dt port iface : Nat)
  /-- FEC_WINDOW (R345): Each 1 s window the interface estimates pre-FEC BER. -/
  | fecWindow (dt port iface estimate corrected uncorrectable : Nat)
  /-- IPL_REPLAY (R340): A flit group fails its CRC on the inter-package link and is replayed. -/
  | iplReplay (dt dir : Nat)
  /-- LANE_FAILURE (R341): An inter-package lane loses clock recovery or exceeds its error rate and is spared, narrowed or the link stops. -/
  | laneFailure (dt dir lane cause errors : Nat)
  /-- EVENT_ARRIVAL (R352): A record reaches the merger and is held, or discarded when after its release instant. -/
  | eventArrival (dt index : Nat) (haps : List Hap)
  /-- EVENT_RELEASE (R351): At stamp plus 2,000,000 ns the merger releases a record in order into subscriber queues. -/
  | eventRelease (dt : Nat)
  /-- EVENT_PACKET_SEND (R357): A kind 0 EVENT packet is sent when full or flush_ms after its first record, within max_pps. -/
  | eventPacketSend (dt sub kind : Nat)
  /-- MAINS_APPLIED (R363): Mains is applied and a start begins. -/
  | mainsApplied (dt : Nat)
  /-- START_STAGE_COMPLETE (R363): A start stage's work completes on its sites and the next stage begins, or the start ends in service or setting mode. -/
  | startStageComplete (dt : Nat) (fails : List (Nat × Nat × Nat))
  /-- START_STAGE_TIMEOUT (R363): A start stage's timeout passes on a site, fencing, removing a package or failing the start. -/
  | startStageTimeout (dt : Nat) (sites : List Nat)
  /-- RESTART_DELAY (R368): 5 s after a failed start a new start begins, in setting mode after three within 600 s. -/
  | restartDelay (dt : Nat)
  /-- SETTING_MODE_RETRY (R369): With no package meeting the minimal working set a setting-mode start runs every 60 s. -/
  | settingModeRetry (dt : Nat)
  /-- DIE_TO_DIE_LINK_FAILURE (R371): A media die's die-to-die link fails in service and the die is fenced. -/
  | dieToDieLinkFailure (dt die : Nat)
  /-- DIE_RECOVERY_COMPLETE (R372): A die recovery's stages finish and the die returns at the next audio beat, or stays fenced. -/
  | dieRecoveryComplete (dt die : Nat) (failed : Option (Nat × Nat × Nat × Nat))
  /-- BIST_SLICE_START (R373): At its round offset a die starts a background self-test slice and claims its target. -/
  | bistSliceStart (dt die kind target : Nat)
  /-- BIST_SLICE_END (R375): A slice ends, folding its signature and releasing its claim. -/
  | bistSliceEnd (dt die target misr : Nat) (faults : List (Nat × Nat × Nat))
  /-- ON_COMMAND_TEST_COMPLETE (R377): An on-command test finishes and the die is restarted or stays fenced. -/
  | onCommandTestComplete (dt die done failures : Nat) (sigOk restartOk : Bool)
  /-- JUMPER (R384): The test-header jumper is fitted or removed. -/
  | jumper (dt : Nat) (fitted : Bool)
  /-- THERMAL_LOOP (R392): Every second the thermal loop reads its sensors and sets the fan speed. -/
  | thermalLoop (dt : Nat) (readings : List (Nat × Int)) (tachs : List Nat)
  /-- FAN_FAILED (R393): A fan's tachometer reads below half its command for 2 s. -/
  | fanFailed (dt fan rpm : Nat)
  /-- THERMAL_STOP (R394): A sensor at or above its stop threshold for 1 s stops the module as a failed start. -/
  | thermalStop (dt site : Nat)
  /-- MAINS_INTERRUPTION (R389): Input drops below 75 V or is interrupted. -/
  | mainsInterruption (dt : Nat)
  /-- HOLD_UP_EXPIRY (R389): An interruption outlasts the hold-up and every domain except 1 stops. -/
  | holdUpExpiry (dt : Nat)
  /-- MAINS_RESTORED (R389): Input returns while the standby rail is up, counted as a failed start at stage 1. -/
  | mainsRestored (dt : Nat)
  /-- STANDBY_RAIL_DROP (R389): The standby rail drops 2 s after output loss, counting as removal of mains. -/
  | standbyRailDrop (dt : Nat)
  /-- PSU_INPUT (R389): Input stays between 75 and 85 V for more than 1 s, or returns within range. -/
  | psuInput (dt state decivolts : Nat)
  /-- PSU_FAULT (R398): A supply output faults for over-current, over-temperature or regulation. -/
  | psuFault (dt output cause : Nat)
  /-- EFFECTIVE_INSTANT (R45): A command packet's effective instant (a future apply_at) arrives and changes not tied to a beat or a packet stamp take effect: a reset or OTP write begins, a port mode changes, a decode resync acts, the counter is set, identifiers and removed pairs are freed. -/
  | effectiveInstant (dt : Nat)
  /-- LEASE_RENEWAL (R29): The renewal timer of a port's DHCP lease runs out and the port renews the address as its RFC prescribes. -/
  | leaseRenewal (dt port : Nat)
  /-- DHCP_RETRANSMISSION (R29): A DHCP retransmission timer runs out within a step of address acquisition and the port retransmits as that step's RFC prescribes. -/
  | dhcpRetransmission (dt port : Nat)
  /-- DFE_TAP_LIMIT (R336): Continuous adaptation of a lane receiver drives a DFE tap to its limit in service and the lane raises ADAPT_LIMIT. -/
  | dfeTapLimit (dt port lane tap : Nat)
  /-- OCXO_ALARM (R398): The OCXO's alarm line asserts or clears and OCXO_STATE reports the alarm state. -/
  | ocxoAlarm (dt : Nat) (on : Bool)
  /-- ALIGNMENT_LOSS (R333): Alignment or FEC lock is lost on an interface, ending its hold stage unfinished and returning it to stage 1, or starting the down_hold timer when the interface is up. -/
  | alignmentLoss (dt port iface cause : Nat) (lost : Bool)
  /-- UNICAST_GRANT_EXPIRY (R290): The duration of a profile 1 unicast grant runs out, so the module as grantee renews its request or, as grantor, ends the grant. -/
  | unicastGrantExpiry (dt port id : Nat)
deriving DecidableEq, Repr, Inhabited

end Sys2Proof
end

