-- ==== Sys2Proof/Machine/CryptoMsg.lean ====
section
/-! DEFINITION. Crypto messages block by block, and the crypto units that serve them (R112, R126, R127). -/

namespace Sys2Proof.Machine

/- Messages. -/

/-- A message takes one block of its input: keystream or cipher, then authentication of what stands on the wire. -/
def CryptoMsg.block (m : CryptoMsg) (b : List Byte) : CryptoMsg :=
  let r := m.run
  let (r1, c) : CipherRun × List Byte := match m.mode with
    | .ctr w => let (n, c) := ctrStep m.roundKeys w r.counter b; ({ r with counter := n, position := r.position + b.length }, c)
    | .f8 =>
      let (js, c) := f8Step m.roundKeys r.f8Iv (r.counter, r.f8Prev) b
      ({ r with counter := js.1, f8Prev := js.2, position := r.position + b.length }, c)
    | .cbc => let (p, c) := cbcStep m.roundKeys r.chain b; ({ r with chain := p }, c)
    | .uncbc => let (p, c) := uncbcStep m.roundKeys r.chain b; ({ r with chain := p }, c)
  let wire := if m.opens then b else c
  let r2 : CipherRun := match m.mac with
    | .ghash => { r1 with ghash := ghashStep m.hashKey r1.ghash wire, textBytes := r1.textBytes + wire.length }
    | .hmac k => { r1 with inner := r1.inner.take k wire }
  { m with run := r2, output := m.output ++ c }

/-- A message takes the blocks of its input that are left. A suspended message goes on from its saved values, so it ends as one that was never
suspended (R127). -/
def CryptoMsg.finish (m : CryptoMsg) : CryptoMsg := m.input.foldl CryptoMsg.block { m with input := [] }

/-- The tag of a message that has taken all of its input. -/
def CryptoMsg.tag (m : CryptoMsg) : List Byte :=
  match m.mac with
  | .ghash => (beBytes 16 (ghashMul (m.run.ghash ^^^ (m.run.aadBytes * 8 * 2 ^ 64 + m.run.textBytes * 8)) m.hashKey ^^^ m.tagMask)).take m.tagBytes
  | .hmac k => (hmacFinish k m.macKey (m.run.inner.take k m.trailer)).take m.tagBytes

/-- A GCM message under a key and a nonce, its additional data taken. -/
def gcmMsg (key : List Byte) (nonce : Nat) (aad text : List Byte) (opens : Bool) : CryptoMsg :=
  let rk := roundKeys key
  let h := aes rk 0
  { mode := .ctr 32, mac := .ghash, opens := opens, roundKeys := rk, hashKey := h, tagMask := aes rk (nonce * 2 ^ 32 + 1), tagBytes := 16,
    input := blocks16 text,
    run := { counter := nonce * 2 ^ 32 + 2, ghash := (blocks16 aad).foldl (ghashStep h) 0, aadBytes := aad.length } }

/-- An HMAC-SHA1 message, its header taken; what follows the text comes behind. -/
def sha1Msg (mode : CipherMode) (key auth header text trailer : List Byte) (run : CipherRun) (tagBytes : Nat) (opens : Bool) : CryptoMsg :=
  { mode := mode, mac := .hmac .sha1, opens := opens, roundKeys := roundKeys key, macKey := auth, trailer := trailer, tagBytes := tagBytes,
    input := blocks16 text, run := { run with inner := (hmacStart .sha1 auth).take .sha1 header } }

/-- Image work under a seal key (R128, R129): AES-256-CBC and HMAC-SHA-384 over the header and the ciphertext. -/
def imageMsg (encKey macKey : Nat) (iv : Nat) (header text : List Byte) (opens : Bool) : CryptoMsg :=
  let mac := beBytes 48 macKey
  { work := if opens then .opening else .sealing, mode := if opens then .uncbc else .cbc, mac := .hmac .sha384, opens := opens,
    roundKeys := roundKeys (beBytes 32 encKey), macKey := mac, tagBytes := 48, input := blocks16 text,
    run := { chain := iv, inner := (hmacStart .sha384 mac).take .sha384 header } }

/- Units. -/

/-- A cipher cycle, at 2.0 GHz. -/
def cipherCycle : Instant := 32768

def WorkKind.isImage : WorkKind → Bool
  | .sealing => true | .opening => true | .urgent => false | .packet => false

/-- A class of work suspends another (R126): an urgent message every other, any packet message image work. -/
def WorkKind.suspends : WorkKind → WorkKind → Bool
  | .urgent, .urgent => false
  | .urgent, _ => true
  | .packet, w => w.isImage
  | _, _ => false

/-- From one block to the next: a cipher cycle, or for image work, which runs at 16 Gbit/s, 8 ns. -/
def WorkKind.blockTime (w : WorkKind) : Instant := if w.isImage then ns 8 else cipherCycle

/-- The first waiting message of a kind, and the others. -/
def firstReady (f : WorkKind → Bool) : List CryptoMsg → Option (CryptoMsg × List CryptoMsg)
  | [] => none
  | m :: ms => if f m.work then some (m, ms) else (firstReady f ms).map (fun p => (p.1, m :: p.2))

/-- What an idle unit in rotation takes next: urgent messages in the order they became ready, the suspended packet message, the other packet messages,
the suspended image work, and image work. Resumption takes 4 cipher cycles (R126). -/
def CryptoUnit.pick (u : CryptoUnit) : CryptoUnit :=
  let start := fun (m : CryptoMsg) (rest : List CryptoMsg) => { u with service := some m, ready := rest, next := u.next + m.work.blockTime }
  let resume := fun (m : CryptoMsg) => u.next + 4 * cipherCycle + m.work.blockTime
  if u.outOf then u
  else match firstReady (· == .urgent) u.ready with
  | some (m, rest) => start m rest
  | none => match u.packetSave with
    | some m => { u with service := some m, packetSave := none, next := resume m }
    | none => match firstReady (fun w => !w.isImage) u.ready with
      | some (m, rest) => start m rest
      | none => match u.imageSave with
        | some m => { u with service := some m, imageSave := none, next := resume m }
        | none => match u.ready with
          | m :: rest => start m rest
          | [] => u

/-- A message in service ends: a sealing is kept for the export. -/
def CryptoUnit.endMsg (u : CryptoUnit) (m : CryptoMsg) : CryptoUnit :=
  { u with service := none, sealed_ := if m.work == .sealing then some m else u.sealed_ }

/-- A message in service is suspended at a block boundary; its state is saved within 4 cipher cycles (R126). -/
def CryptoUnit.suspend (u : CryptoUnit) (m : CryptoMsg) : CryptoUnit :=
  let v := { u with service := none, next := u.next + 4 * cipherCycle }
  if m.work.isImage then { v with imageSave := some m } else { v with packetSave := some m }

/-- A unit works until an instant (on fuel). At a block boundary it ends its message, gives way to a message that suspends it, or takes the
next block. -/
def CryptoUnit.serve (t : Instant) : Nat → CryptoUnit → CryptoUnit
  | 0, u => u
  | f + 1, u =>
    match u.service with
    | none => let v := u.pick; if v.service.isNone then u else CryptoUnit.serve t f v
    | some m =>
      if t < u.next then u
      else if u.ready.any (fun x => x.work.suspends m.work) then CryptoUnit.serve t f (u.suspend m)
      else match m.input with
        | [] => CryptoUnit.serve t f (u.endMsg m)
        | b :: rest => CryptoUnit.serve t f { u with service := some ({ m with input := rest }.block b), next := u.next + m.work.blockTime }

/-- Blocks that a unit has before it. -/
def CryptoUnit.load (u : CryptoUnit) : Nat :=
  sumN ((u.service.toList ++ u.packetSave.toList ++ u.imageSave.toList ++ u.ready).map (fun m => m.input.length + 4))

/-- A unit works until an instant, from when it became idle where it is idle. -/
def CryptoUnit.workTo (u : CryptoUnit) (t : Instant) : CryptoUnit := u.serve t (4 * u.load + 8)

/-- A message becomes ready at an instant. -/
def CryptoUnit.submit (u : CryptoUnit) (m : CryptoMsg) (t : Instant) : CryptoUnit :=
  let v := u.workTo t
  { v with next := if v.service.isNone then max v.next t else v.next, ready := v.ready ++ [m] }.workTo t

/-- A unit has nothing before it: it stands between messages. -/
def CryptoUnit.idle (u : CryptoUnit) : Bool := u.service.isNone && u.packetSave.isNone && u.imageSave.isNone && u.ready.isEmpty

/-- A unit leaves rotation for a slice, or comes back at an instant. -/
def CryptoUnit.leave (u : CryptoUnit) : CryptoUnit := { u with outOf := true }
def CryptoUnit.return_ (u : CryptoUnit) (t : Instant) : CryptoUnit := { u with outOf := false, next := max u.next t }.workTo t

end Sys2Proof.Machine
end

