-- ==== Sys2Proof/Config.lean ====
section
/-! DEFINITION. What an implementation fixes and what the spec leaves open: uninterpreted constants, so that no
proof can rest on a value of them.
Every constant is a DESIGN CHOICE (log entries 4 to 7, 20, 36, 41, 43, 45 to 49, 63, 65, 67, 69 and 72). -/

namespace Sys2Proof.Config

/-- The airflow variant, 0 for -A and 1 for -B (R1, Table 2.10). -/
opaque variant : Bool
/-- Module serial number (factory area, Table 17.6). -/
opaque serial : BitVec 64
/-- MAC address of port A (0) or B (1) (R331). -/
opaque macAddress : Nat → BitVec 48
/-- The identity certificate in DER (R382). -/
opaque identityCert : List Byte
/-- OCXO factory centre setting, in 2^-16 ppb (R297). -/
opaque ocxoBase : Int
/-- The bytes of the factory area of a package's OTP block beyond the fields the model names (Table 17.6). -/
opaque factoryByte : Nat → Nat → Byte
/-- The 32 bytes a random draw gives (module_random of Table 2.4, the iv of R128); the argument is the draw's number. -/
opaque random : Nat → Nat
/-- The private identity key (R382), and the secret of a signature over a digest (ECDSA draws one; which is not stated). -/
opaque identityKey : Nat
opaque signNonce : List Byte → Nat
/-- The MAC address that firmware resolves for an address on a port, by ARP or neighbour discovery (Table 4.3): port, address. -/
opaque neighbourMac : Nat → Nat → BitVec 48
/-- Whether the controller's policy has a feedback message relayed toward the sender (R84): context, message (1 PLI, 2 FIR, 3 NACK). -/
opaque relays : Nat → Nat → Bool
/-- The RTCP packet that firmware makes of a feedback message that it relays (R84): context toward whose sender it goes, message, its bytes. -/
opaque relayMessage : Nat → Nat → List Byte → List Byte
/-- Tile compression (R165, whose form is not printed): by bit depth and the tile's 384 samples, the sectors that it uses and the bytes in its area;
and the samples that an area's bytes stand for. -/
opaque tileSectors : Nat → List Nat → Nat
opaque tileByte : Nat → List Nat → Nat → Byte
opaque tileSample : Nat → List Byte → Nat → Nat
/-- What a buffer holds whose form no rule states (Table 14.4): handle, instant, offset. -/
opaque bufferByte : Nat → Nat → Nat → Byte
/-- One sample of a decoded frame (R155: the output of the codec's decoding process): codec, what the process has carried from earlier access
units, payloads of this one, samples of the pictures it predicts from, 3 × frame + plane, index. -/
opaque decodedSample : Nat → Nat → List (List Byte) → List (List Nat) → Nat → Nat → Nat
/-- What the decoding process carries on, after an access unit, beside its pictures: codec, what it had, payloads. -/
opaque decoderContext : Nat → Nat → List (List Byte) → Nat
/-- operating_point_idc of an AV1 operating point that the sequence does not list (R153 leaves it open). -/
opaque operatingIdc : Nat → Nat
/-- What a surface holds outside the picture last written to it: plane, x, y (no rule states it). -/
opaque outsidePicture : Nat → Nat → Nat → Nat
/- A beacon receiver's measurements (R271, R272; no rule prints the algorithms). Samples are listed newest first; a gain is a code G. -/

/-- Power of the base block over samples, in Q8.8 dBFS. -/
opaque basePower : List Int → Int
/-- Energy of the correlation of samples with P1 and P2, and its ratio to the residual noise energy in Q8.8 dB: gain, 576 samples. -/
opaque correlation : Nat → List Int → Nat
opaque correlationRatio : Nat → List Int → Int
/-- Power of a preamble per subcarrier after the gain, in Q8.8 dBFS: gain, its 576 samples. -/
opaque preamblePower : Nat → List Int → Int
/-- The received value r(k, n) of a packet, with 100 fraction bits: gain, its samples up to the end of symbol n, n, subcarrier k. -/
opaque receivedCell : Nat → List Int → Nat → Nat → Int × Int
/-- A ratio of powers in Q8.8 dB (R270 gives no rounding): numerator, denominator. -/
opaque decibels : Nat → Nat → Int
/- An encode unit codes blocks (no rule prints its algorithms; R12 makes each a function of what it reads). Blocks are lists of samples: luma, Cb, Cr. -/

/-- The entropy coder at the start of a tile: what the frame signals, tile; and after a block: before, source, prediction. -/
opaque coderStart : List Nat → Nat → Nat
opaque coderNext : Nat → List Nat → List Nat → Nat
/-- The vector that search finds, in quarter samples: codec, qp, source, window. -/
opaque motionVector : Nat → Nat → List Nat → List Nat → Int × Int
/-- A predicted sample: codec, window, vector, index. -/
opaque interpolated : Nat → List Nat → Int × Int → Nat → Nat
/-- A reconstructed sample: codec, qp, source, prediction, coder, index. -/
opaque codedSample : Nat → Nat → List Nat → List Nat → Nat → Nat → Nat
/-- Bits of a block: codec, qp, source, prediction, coder. -/
opaque blockBits : Nat → Nat → List Nat → List Nat → Nat → Nat
/-- SATD of a block's prediction, in the unit of Table 9.4: codec, source, prediction. -/
opaque blockSatd : Nat → List Nat → List Nat → Nat
/-- Intra DC prediction with zero residual: codec, block above, block to the left, index. -/
opaque dcSample : Nat → List Nat → List Nat → Nat → Nat
/-- Bits of a block of a skipped row: codec, key frame, coder. -/
opaque skipBits : Nat → Bool → Nat → Nat
/-- A sample after the in-loop filters: codec, qp, width, samples, index. -/
opaque loopFiltered : Nat → Nat → Nat → List Nat → Nat → Nat
/-- Bytes of a parameter set or sequence header: what the frame signals, its place; and one of them. -/
opaque paramBytes : List Nat → Nat → Nat
opaque paramByte : List Nat → Nat → Nat → Byte
/-- Byte of a coded picture: the coder's state at its end, unit, index. -/
opaque streamByte : Nat → Nat → Nat → Byte
/-- What firmware's rate control carries from frame to frame (R212 leaves it to firmware): what it had, the frame's record. -/
opaque rateNext : Nat → List Nat → Nat
/-- Whether rate control lets an inter frame predict from slot 1, and the qp that it chooses. -/
opaque rateControlRef : Nat → Bool
opaque rateControlQp : Nat → Nat
/- A library stage (R226) whose algorithm no rule prints runs in passes over 32-bit words (R224); by the codes of Table 10.2. R12 makes
each a function of its settings, what it reads and what it has carried. -/

/-- Passes of a stage; and for one of them the move-scaling mode with its constant or guard. -/
opaque stagePasses : Nat → Nat
opaque passScaling : Nat → Nat → Nat × Int
/-- The words that a pass writes: stage, pass, what the stage carries, settings, block exponent, words moved. -/
opaque passWords : Nat → Nat → Nat → List Int → Nat → List Int → List Int
/-- What a stage carries on: stage, what it carried, settings, words. -/
opaque stageNext : Nat → Nat → List Int → List Int → Nat
/-- The Opus encoder chooses discontinuous transmission for a frame (R238): what it carries, settings, samples. -/
opaque opusDtx : Nat → List Int → List Int → Bool
/-- Converter coefficient of R234, Q1.31: phase, tap. -/
opaque converterCoef : Nat → Nat → Int
/-- Decimator coefficient of R238: table 1 or 2, index. -/
opaque decimatorCoef : Nat → Nat → Int
/-- Bytes of an audio leg's bitstream buffer (no rule gives its size). -/
opaque audioBitstreamBytes : Nat
/-- Bytes of a parameter block (no rule gives its size). -/
opaque parameterBlockBytes : Nat
/-- Band-limiter coefficient of R262: index 0 to 94. -/
opaque bandLimiterCoef : Nat → Int
/-- Expected signature of a background test (R375): kind of element (R9), kind of test. -/
opaque bistExpected : Nat → Nat → Nat
/-- Bytes of management memory that the optics of a port answer: port, bank, page, offset, instant, and what a command has written there. -/
opaque cmisByte : Nat → Nat → Nat → Nat → Nat → Option Byte → Byte
/-- SNR at the slicer of a lane, Q8.8 dB: site, instant. -/
opaque laneSnr : Nat → Nat → Int
/-- Adapted tap of a lane, Q1.7: site, tap (0 to 15 of the FFE, 16 to 27 of the DFE), instant. -/
opaque laneTap : Nat → Nat → Nat → Int
/-- Signal detect (0) and clock recovery (1) of a lane: site, which, instant. -/
opaque laneSignal : Nat → Nat → Nat → Bool
/-- Errors that a PRBS checker has counted: site, start of the test, instant. -/
opaque prbsErrorCount : Nat → Nat → Nat → Nat
/-- Bank size of a FIFO ("numbered in a fixed order", Table 14.12, not given): kind of element (R9), fifo. -/
opaque fifoBankWords : Nat → Nat → Nat
/-- Number of FIFOs at an element of a kind (not given). -/
opaque fifoCount : Nat → Nat
/-- Whether a FIFO of an element of a kind is one of Table 14.8 ("numbered in a fixed order", not given). -/
opaque fifoEcc : Nat → Nat → Bool
/-- Packets that a FIFO has passed in transfers that no row lists: site, FIFO, instant. -/
opaque fifoPackets : Nat → Nat → Nat → Nat
/-- The terms of a book that stand on FIFOs, links and descriptors not given by number (Table 14.9): site, book, instant. -/
opaque bookExpected : Nat → Nat → Nat → Nat
/-- How long an audit has held grants, in ns (R325 bounds it by 12): site, instant. -/
opaque auditHeld : Nat → Nat → Nat
/-- What a stack holds where no rule gives the address of what is stored (R310 leaves addresses to firmware): stack, address, instant. -/
opaque memByte : Nat → Nat → Nat → Byte
/-- Course of a real-time port's read-ahead buffer over a task (R313; no rule says how memory fills it and the unit drains it): unit's or crosspoint's
site, quadrant, beat; steps of so many ns, each with the bytes buffered at its end. -/
opaque readAhead : Nat → Nat → Nat → List (Nat × Nat)
/-- The fan speed in rpm that gives an airflow, in 0.1 m³/h (Table 18.2 gives airflow, not rpm). -/
opaque fanRpm : Nat → Nat
/-- The lowest fan speed in rpm that keeps every sensor 10 °C below its warning threshold (R392): sites and readings. -/
opaque fanNeed : List (Nat × Int) → Nat
/-- The speed in rpm of a fan at full speed, and at the start of stage 1. -/
opaque fanFull : Nat
opaque fanStart : Nat
/-- The controller-authority keys that the factory enrols (R378): entries of 832 bits as in Table 17.7. -/
opaque factoryKeys : List Nat
/-- The lowest firmware version that the factory's settings allow (Table 17.7). -/
opaque factoryFloor : Nat
/-- firmware_version and body_digest of the image that the factory writes into slot 0. -/
opaque factoryVersion : Nat
opaque factoryDigest : Nat
/-- Byte of a slot that no command has written, and that the factory has not: package, slot, offset. -/
opaque erasedByte : Nat → Nat → Nat → Byte
/-- The image keys of the factory area (R380, Table 17.6), by key_id: X, then Y; a number that is no point where the area holds no such key. -/
opaque imageKey : Nat → Nat
/-- Whether a programmed generation verifies (R378): package, area, generation. -/
opaque otpVerifies : Nat → Nat → Nat → Bool
/-- Byte of a generation that is not programmed, or whose programming failed: package, area, offset in the area. -/
opaque otpByte : Nat → Nat → Nat → Byte
/-- How far the counter that a start loads is off, in 2^-16 ns: by the number of the start. R305 bounds it. -/
opaque counterDrift : Nat → Int
/-- The spare that repairs a fault (R376, R379: no rule allots spares): site, address, bit; its number. -/
opaque spareOf : Nat → Nat → Nat → Nat
/-- Slices that the on-command test of a die runs (R377): one number, since dies are built alike (R9). -/
opaque testPlan : Nat
/-- Slices that a running on-command test has done, and failures it has found (R377): die, instant. -/
opaque testProgress : Nat → Nat → Nat
opaque testFound : Nat → Nat → Nat

end Sys2Proof.Config
end

