-- ==== Sys2Proof/Machine/Types/Sched.lean ====
section
/-! DEFINITION. State of escapements, tables and task pools (03_escapement_and_tasks.md). -/

namespace Sys2Proof.Machine

/-- A grid (R60, R61). -/
inductive Grid where
  | audio
  | video (f : Nat)
deriving DecidableEq, Repr, Inhabited

/-- A successor reference (Table 3.2). -/
structure SuccRef where
  nextBeat : Bool := false
  cluster : Nat
  first : Nat
  count : Nat := 1
deriving DecidableEq, Repr, Inhabited

/-- What an entry's operation is, and the object it serves (Table 3.1 with the subject chapters' operations). -/
inductive Op where
  | join
  | testWindow
  | decode (stream : Nat)
  | compose (output : Nat)
  | encode (leg : Nat) (tile : Nat)
  | gangFinish (leg : Nat)
  | receive (leg : Nat)
  | send (leg : Nat)
  | mix
deriving DecidableEq, Repr, Inhabited

/-- A task descriptor (Table 3.1). Durations are in ns, as the table's fields are. -/
structure Descriptor where
  unit : Nat := 0xFFFFFFFF
  op : Op := .join
  depCount : Nat := 0
  cancel : Bool := false
  notice : Bool := false
  record : Bool := false
  flow : Nat := 0
  deadline : Nat := 0
  service : Nat := 0
  inHandle : Nat := 0
  outHandle : Nat := 0
  paramHandle : Nat := 0
  succ : List SuccRef := []
deriving DecidableEq, Repr, Inhabited

/-- A segment (R62). -/
structure Segment where
  slot : Nat
  period : Nat := 1
  phase : Nat := 0
  first : Nat := 0
  count : Nat := 0
deriving DecidableEq, Repr, Inhabited

/-- A table bank (R62): entries, segments and the grid slots that are bound. -/
structure Bank where
  entries : List Descriptor := []
  segments : List Segment := []
  slots : List Grid := []
deriving DecidableEq, Repr, Inhabited

/-- The trace of a cluster (R79, Table 3.10). -/
structure Trace where
  state : Nat := 0
  entry : Nat := 0
  inst : Nat := 0
  outcome : Nat := 0
  beat : Instant := 0
  issued : Instant := 0
  ready : Instant := 0
  started : Instant := 0
  completed : Instant := 0
deriving DecidableEq, Repr, Inhabited

/-- An entry the walk has still to issue: segment and entry number. -/
structure ToIssue where
  seg : Nat
  entry : Nat
deriving DecidableEq, Repr, Inhabited

/-- The escapement of a media cluster (R62 to R65). The shadow bank is a function of the active bank and of the changes that
are pending (R65), so the state holds those and not a second copy. -/
structure Escapement where
  activeBank : Nat := 0
  active : Bank := {}
  /-- Instant of the latest beat walked, or of the instant from which beats are walked. -/
  lastBeat : Instant := 0
  /-- The walk in progress, when it has stalled: its beat and the entries still to issue (R77). -/
  stalled : List ToIssue := []
  stallBeat : Instant := 0
  /-- When the latest stall ended, with the walks that it delayed (R77). -/
  stallEnd : Instant := 0
  /-- When the latest walk ended (R63). -/
  walkEnd : Instant := 0
  /-- Changes that have taken effect, in that order: the instant from which a beat takes each, and the table for earlier beats (R64). -/
  held : List (Instant × Bank) := []
  /-- Counts carried against entries (R70). -/
  carried : Tab Nat := []
  /-- Instances still to be issued that expire with an expired fan-in JOIN (R402): entry and beat. -/
  killed : List (Nat × Instant) := []
  issueLate : Nat := 0
  expired : Nat := 0
  overrun : Nat := 0
  trace : Trace := {}
deriving DecidableEq, Repr, Inhabited

/-- The life of a task instance (R71 to R76). -/
inductive Phase where
  | waiting | ready | inService (start : Instant)
deriving DecidableEq, Repr, Inhabited

/-- A task instance in a die's pool (R69 to R76). -/
structure Inst where
  id : Nat
  cluster : Nat
  entry : Nat
  seg : Nat
  grid : Grid := .audio
  desc : Descriptor
  beat : Instant
  nextBeat : Instant
  count : Nat
  noticePending : Bool := false
  phase : Phase := .waiting
  issued : Instant := 0
  /-- bit 0 expired, bit 1 inputs_incomplete, bit 2 pred_expired, bit 3 overrun (Table 3.3). -/
  expired : Bool := false
  inputsIncomplete : Bool := false
  predExpired : Bool := false
deriving DecidableEq, Repr, Inhabited

/-- The common part of a completion record (Table 3.3). -/
structure CompletionRec where
  unit : Nat
  entry : Nat
  cluster : Nat
  outcome : Nat
  beat : Instant
  completed : Instant
  serviceNs : Nat
  op : Op
  /-- The subject chapter's bytes after the first 48, field by field (Tables 7.6, 8.3, 9.4). -/
  rest : List Nat := []
deriving DecidableEq, Repr, Inhabited

/-- A trigger word on its way to a die (R302). -/
structure TriggerWord where
  grid : Grid
  index : Nat
  stamp : Instant
deriving DecidableEq, Repr, Inhabited

/-- The dependence-count book of a pool (Table 14.9, book 4). -/
structure DepBook where
  sent : Nat := 0
  received : Nat := 0
  carriedAdded : Nat := 0
  absorbed : Nat := 0
  discarded : Nat := 0
deriving DecidableEq, Repr, Inhabited

/-- Task pool, units and triggers of one media die (R69 to R78, R302). -/
structure Pool where
  insts : List Inst := []
  nextInst : Nat := 1
  peak : Nat := 0
  poolStalls : Nat := 0
  queueStalls : Nat := 0
  /-- For each grid, the latest beat whose trigger has been released on the die (R302). -/
  triggered : List (Grid × Instant) := []
  words : List TriggerWord := []
  records : List CompletionRec := []
  book : DepBook := {}
  /-- Error of the replica counter at its latest check, in 0.25 ns, and the instant of the check (R302). -/
  replicaErr : Int := 0
  replicaAt : Instant := 0
deriving DecidableEq, Repr, Inhabited

end Sys2Proof.Machine
end

