-- ==== Sys2Proof/Machine/Grid.lean ====
section
/-! DEFINITION. Beat grids (R59 to R61). -/

namespace Sys2Proof.Machine

/-- Beats per TAI second. -/
def Grid.rate : Grid → Nat
  | .audio => 400
  | .video f => f

/-- Instant of the beat of global index i (R60, R61). -/
def Grid.beatAt (g : Grid) (i : Nat) : Instant :=
  sec (i / g.rate) + ns (i % g.rate * 1000000000 / g.rate)

/-- Number of beats strictly before the instant t, which is the index of the first beat at or after t. -/
def Grid.indexAtOrAfter (g : Grid) (t : Instant) : Nat :=
  let s := t / sec 1
  let r := t % sec 1
  -- the beats of this second lie at ns (j × 10⁹ / f); count those strictly before r
  let j := if r = 0 then 0 else
    let n := (r - 1) / 65536     -- last whole nanosecond strictly before r
    min g.rate (((n + 1) * g.rate - 1) / 1000000000 + 1)
  s * g.rate + j

/-- The first beat at or after t. -/
def Grid.firstAtOrAfter (g : Grid) (t : Instant) : Instant := g.beatAt (g.indexAtOrAfter t)

/-- The index of the latest beat at or before t. -/
def Grid.indexAtOrBefore (g : Grid) (t : Instant) : Nat := g.indexAtOrAfter (t + 1) - 1

/-- Whether t is a beat of the grid. -/
def Grid.isBeat (g : Grid) (t : Instant) : Bool := g.firstAtOrAfter t == t

/-- The index of a beat. -/
def Grid.indexOf (g : Grid) (t : Instant) : Nat := g.indexAtOrAfter t

/-- The earliest of some instants. -/
def earliest : List Instant → Option Instant
  | [] => none
  | t :: ts => some (ts.foldl min t)

/-- The first beat at or after t over several grids. -/
def firstBeat (gs : List Grid) (t : Instant) : Option Instant := earliest (gs.map (·.firstAtOrAfter t))

/-- The first beat strictly after t over several grids. -/
def nextBeat (gs : List Grid) (t : Instant) : Option Instant := firstBeat gs (t + 1)

/-- How far ahead of a beat its walk begins (R63). -/
def walkLead : Instant := ns 100000

/-- Grid k of the kind field of a command: 0 audio, 1 video at rate f. -/
def gridOf (kind rate : Nat) : Grid := if kind = 0 then .audio else .video rate

end Sys2Proof.Machine
end

