-- ==== Sys2Proof/Machine/Operands.lean ====
section
/-! DEFINITION. Operand forms: the parameter blocks of R49 and R50, time fields, and result blocks. -/

namespace Sys2Proof.Machine

/-- One field of a parameter block: bytes, default (R50), mask of reserved bits (R49). A wholly reserved field
(`skip`) yields no value. -/
structure Fld where
  w : Nat
  dflt : Option Nat := none
  rsv : Nat := 0
  skip : Bool := false
deriving DecidableEq, Repr, Inhabited

/-- A field of w bytes without a default. -/
def fN (w : Nat) : Fld := { w := w }
/-- A field of w bytes with a default. -/
def fD (w d : Nat) : Fld := { w := w, dflt := some d }
/-- A flags field without a default; `used` is the mask of its defined bits. -/
def fF (w used : Nat) : Fld := { w := w, rsv := 256 ^ w - 1 - used }
/-- A flags field with a default. -/
def fFD (w used d : Nat) : Fld := { w := w, dflt := some d, rsv := 256 ^ w - 1 - used }
/-- A reserved field without a default. -/
def fR (w : Nat) : Fld := { w := w, rsv := 256 ^ w - 1, skip := true }
/-- A reserved field whose Default column holds 0. -/
def fRD (w : Nat) : Fld := { w := w, dflt := some 0, rsv := 256 ^ w - 1, skip := true }
/-- A time field (R49): 112 bits of stamp, 16 reserved bits. -/
def fT : Fld := { w := 16, rsv := 0xFFFF }
/-- A time field with the default 0. -/
def fTD : Fld := { w := 16, dflt := some 0, rsv := 0xFFFF }

/-- Read the fields of a block: values, offsets of reserved bits that are set, and the bytes after the last field.
`none` when the block ends inside a field or before a field that has no default (R50). -/
def readFields : List Fld → Nat → List Byte → Option (List Nat × List Nat × List Byte)
  | [], _, b => some ([], [], b)
  | f :: fs, off, b =>
    let head : Option (Nat × List Byte) :=
      if b.isEmpty then f.dflt.map (fun d => (d, []))
      else if b.length < f.w then none
      else some (beNat (b.take f.w), b.drop f.w)
    match head with
    | none => none
    | some (v, rest) =>
      match readFields fs (off + f.w) rest with
      | none => none
      | some (vs, bad, tl) =>
        some ((if f.skip then vs else v :: vs), (if v &&& f.rsv ≠ 0 then off :: bad else bad), tl)

/-- Write the fields of a block: the values in order, reserved fields zero (R49). -/
def writeFields : List Fld → List Nat → List Byte
  | [], _ => []
  | f :: fs, vs =>
    if f.skip then zeros f.w ++ writeFields fs vs
    else match vs with
      | [] => []
      | x :: xs => beBytes f.w x ++ writeFields fs xs

/-- The values are as many as the fields that yield one, fit their widths and leave their reserved bits zero. -/
def fieldsFit : List Fld → List Nat → Bool
  | [], vs => vs.isEmpty
  | f :: fs, vs =>
    decide (0 < f.w) &&
    (if f.skip then fieldsFit fs vs
     else match vs with
      | [] => false
      | x :: xs => decide (x < 256 ^ f.w) && (x &&& f.rsv == 0) && fieldsFit fs xs)

/-- Value i of a parsed block. -/
def fv (v : List Nat) (i : Nat) : Nat := v.getD i 0

/-- An instant as the 128 bits of a time field (R6, R49). -/
def timeRaw (t : Instant) : Nat :=
  (t / 65536000000000) * 2 ^ 64 + (t / 65536 % 1000000000) * 2 ^ 32 + (t % 65536) * 2 ^ 16

/-- The nanoseconds of a time field are in range (R49). -/
def timeOk (raw : Nat) : Bool := decide (raw / 2 ^ 32 % 2 ^ 32 ≤ 999999999)

/-- The instant that a time field names. -/
def timeOf (raw : Nat) : Instant :=
  (raw / 2 ^ 64) * 65536000000000 + (raw / 2 ^ 32 % 2 ^ 32) * 65536 + raw / 2 ^ 16 % 2 ^ 16

/-- A 16-byte time field (R49). -/
def timeBytes (t : Instant) : List Byte := beBytes 16 (timeRaw t)

/-- A page of a list: `n` items from `start`, at most `limit`. -/
def page {α : Type} (l : List α) (start limit : Nat) : List α := (l.drop start).take limit

/-- Entries that follow a page. -/
def pageRest {α : Type} (l : List α) (start limit : Nat) : Nat := l.length - start - limit

/-- An error with the offset of the offending field. -/
def badAt (st : Status) (off : Nat) : Err := { status := st, off := off }
/-- An error that names a site. -/
def badSite (st : Status) (off site : Nat) : Err := { status := st, off := off, site := site }
/-- An error with a detail. -/
def badDetail (st : Status) (detail : Nat) : Err := { status := st, detail := detail }

/-- The range check of a field (R50): BAD_VALUE outside lo to hi. -/
def range (v lo hi off : Nat) : Bool × Err := (!(decide (lo ≤ v) && decide (v ≤ hi)), badAt .badValue off)
/-- A check that gives BAD_VALUE at an offset. -/
def needs (ok : Bool) (off : Nat) : Bool × Err := (!ok, badAt .badValue off)
/-- A check that gives another status. -/
def needsSt (ok : Bool) (st : Status) (off : Nat) : Bool × Err := (!ok, badAt st off)

/-- The 16 bits of a status in a packet (Table 2.9 and the tables of the subject chapters). -/
def Status.code : Status → Nat
  | .ok => 0x0000 | .badLength => 0x0001 | .badOpcode => 0x0002 | .reservedNonzero => 0x0003 | .badValue => 0x0004
  | .resourceHeld => 0x0005 | .badSite => 0x0006 | .siteFenced => 0x0007 | .settingMode => 0x0008 | .deadlinePassed => 0x0009
  | .tooLate => 0x000A | .notExecuted => 0x000B | .busy => 0x000C | .notFound => 0x000D | .exists_ => 0x000E | .noClaim => 0x000F
  | .certInvalid => 0x0010 | .certNotEnrolled => 0x0011 | .certExpired => 0x0012 | .handshakeSignature => 0x0013 | .sessionLimit => 0x0014
  | .sessionExpired => 0x0015 | .badVersion => 0x0016 | .internal => 0x0017 | .tableFull => 0x0101 | .poolExhausted => 0x0102
  | .badDependence => 0x0103 | .noPlacement => 0x0104 | .beatOverrun => 0x0105 | .contextFull => 0x0201 | .pinFull => 0x0202
  | .badLayerMap => 0x0203 | .duplicateSsrc => 0x0204 | .keySpent => 0x0301 | .badKeyLength => 0x0302 | .limitTooHigh => 0x0303
  | .keyContextFull => 0x0304 | .mkiInUse => 0x0305 | .sealFailed => 0x0306 | .frameExceedsWindow => 0x0401 | .queueFull => 0x0402
  | .rateUnreachable => 0x0403 | .badPolicer => 0x0404 | .profileUnsupported => 0x0501 | .levelExceeded => 0x0502
  | .decodeCapacity => 0x0503 | .refSlotsFull => 0x0504 | .tooManyLayers => 0x0601 | .badGeometry => 0x0602 | .regionLimit => 0x0603
  | .composeCapacity => 0x0604 | .linebufShort => 0x0611 | .encodeCapacity => 0x0701 | .sizeUnsupported => 0x0702
  | .gangUnavailable => 0x0703 | .codecUnsupported => 0x0704 | .legCapacity => 0x0801 | .stageUnsupported => 0x0802
  | .cycleBudget => 0x0803 | .rateUnsupported => 0x0804 | .tieLinesFull => 0x0901 | .badRamp => 0x0902 | .crossDieRoute => 0x0903
  | .beaconDisabled => 0x0A01 | .badSubcarrier => 0x0A02 | .payloadTooLong => 0x0A03 | .timeNotLocked => 0x0B01 | .gainLimit => 0x0B02
  | .profileConflict => 0x0B03 | .triggerPast => 0x0B04 | .auditBusy => 0x0C01 | .badAddress => 0x0C02 | .modeUnsupported => 0x0D01
  | .opticsAbsent => 0x0D02 | .laneInUse => 0x0D03 | .cmisError => 0x0D04 | .subscriberLimit => 0x0E01 | .badInterval => 0x0E02
  | .otpExhausted => 0x0F01 | .imageSignature => 0x0F02 | .imageRollback => 0x0F03 | .unlockRefused => 0x0F04 | .testRunning => 0x0F05

end Sys2Proof.Machine
end

