-- ==== Sys2Proof/Machine/Sites.lean ====
section
/-! DEFINITION. Site codes (R52) and the numbering of clusters and units. -/

namespace Sys2Proof.Machine

def siteKind (c : Nat) : Nat := c / 2 ^ 28
def siteDie (c : Nat) : Nat := c / 2 ^ 24 % 16
def siteQuad (c : Nat) : Nat := c / 2 ^ 20 % 16
def siteCluster (c : Nat) : Nat := c / 2 ^ 16 % 16
def siteUnit (c : Nat) : Nat := c / 2 ^ 8 % 256
def siteIndex (c : Nat) : Nat := c % 256

/-- A site code from its fields (R52). -/
def mkSite (kind die quad cluster unit index : Nat) : Nat :=
  kind * 2 ^ 28 + die * 2 ^ 24 + quad * 2 ^ 20 + cluster * 2 ^ 16 + unit * 2 ^ 8 + index

/-- The code names an element that exists, with the unused fields zero (R52). -/
def siteExists (c : Nat) : Bool :=
  let d := siteDie c; let q := siteQuad c; let k := siteCluster c; let u := siteUnit c; let i := siteIndex c
  match siteKind c with
  | 0 => d == 0 && q == 0 && k == 0 && u == 0 && (decide (i ≤ 4) || (decide (8 ≤ i) && decide (i ≤ 13)))
  | 1 => decide (d ≤ 1) && q == 0 && k == 0 && u == 0 && (decide (i ≤ 5) || (decide (8 ≤ i) && decide (i ≤ 11)))
  | 2 => decide (d ≤ 1) && q == 0 && k == 0 && u == 0 && decide (i ≤ 7)
  | 3 => decide (d ≤ 1) && q == 0 && k == 0 && u == 0 && decide (i ≤ 17)
  | 4 => decide (d ≤ 1) && q == 0 && k == 0 && u == 0 && (decide (i ≤ 7) || i == 255)
  | 5 => decide (d ≤ 7) && q == 0 && k == 0 && u == 0 && decide (i ≤ 3)
  | 6 => decide (d ≤ 7) && decide (q ≤ 3) && k == 0 && u == 0 && (decide (i ≤ 7) || i == 255)
  | 7 => decide (d ≤ 7) && decide (q ≤ 3) && decide (k ≤ 5) && u == 0 && i == 0
  | 8 => decide (d ≤ 7) && decide (q ≤ 3) && decide (k ≤ 5) && decide (u ≤ if k ≤ 3 then 4 else 15) && i == 0
  | _ => false

def noSite : Nat := 0xFFFFFFFF

/-- The media die's own site, its crosspoint, task pool and stack. -/
def dieSite (d : Nat) : Nat := mkSite 5 d 0 0 0 0
def xpSite (d : Nat) : Nat := mkSite 5 d 0 0 0 1
def tpSite (d : Nat) : Nat := mkSite 5 d 0 0 0 2
def ioSite (p : Nat) : Nat := mkSite 1 p 0 0 0 1
def otpSite (p : Nat) : Nat := mkSite 1 p 0 0 0 3
def ioHbmSite (p : Nat) : Nat := mkSite 1 p 0 0 0 5
def pcSite (p i : Nat) : Nat := mkSite 2 p 0 0 0 i
def portSite (p : Nat) : Nat := mkSite 4 p 0 0 0 255
def laneSite (p l : Nat) : Nat := mkSite 4 p 0 0 0 l
def sysSite (i : Nat) : Nat := mkSite 0 0 0 0 0 i
def sysTimeOut : Nat := sysSite 4

/-- The kind of element that a site code names, as the code of its first example (R9: elements of one kind are built alike). -/
def siteSort (c : Nat) : Nat :=
  let i := siteIndex c
  match siteKind c with
  | 0 => mkSite 0 0 0 0 0 (min i 8)
  | 1 => mkSite 1 0 0 0 0 (min i 8)
  | 2 => mkSite 2 0 0 0 0 0
  | 3 => mkSite 3 0 0 0 0 0
  | 4 => mkSite 4 0 0 0 0 (if i = 255 then 255 else 0)
  | 5 => mkSite 5 0 0 0 0 i
  | 6 => mkSite 6 0 0 0 0 (if i = 255 then 255 else 0)
  | 7 => mkSite 7 0 0 (if siteCluster c ≤ 3 then 0 else 4) 0 0
  | 8 => if siteCluster c ≤ 3 then mkSite 8 0 0 0 (siteUnit c / 2 * 2) 0 else mkSite 8 0 0 4 0 0
  | _ => c

/-- Kinds of site that command fields accept. -/
def isMediaDie (c : Nat) : Bool := siteExists c && siteKind c == 5 && siteIndex c == 0
def isXp (c : Nat) : Bool := siteExists c && siteKind c == 5 && siteIndex c == 1
def isTp (c : Nat) : Bool := siteExists c && siteKind c == 5 && siteIndex c == 2
def isIo (c : Nat) : Bool := siteExists c && siteKind c == 1 && siteIndex c == 1
def isStack (c : Nat) : Bool :=
  siteExists c && ((siteKind c == 5 && siteIndex c == 3) || (siteKind c == 1 && siteIndex c == 5))
def isPort (c : Nat) : Bool := siteExists c && siteKind c == 4 && siteIndex c == 255
def isExtLane (c : Nat) : Bool := siteExists c && siteKind c == 4 && siteIndex c != 255
def isIplLane (c : Nat) : Bool := siteExists c && siteKind c == 3
def isPacketCluster (c : Nat) : Bool := siteExists c && siteKind c == 2
def isMediaCluster (c : Nat) : Bool := siteExists c && siteKind c == 7
def isUnit (c : Nat) : Bool := siteExists c && siteKind c == 8
def isDec (c : Nat) : Bool := isUnit c && decide (siteCluster c ≤ 3) && decide (siteUnit c ≤ 1)
def isEnc (c : Nat) : Bool := isUnit c && decide (siteCluster c ≤ 3) && (siteUnit c == 2 || siteUnit c == 3)
def isComp (c : Nat) : Bool := isUnit c && decide (siteCluster c ≤ 3) && siteUnit c == 4
def isAu (c : Nat) : Bool := isUnit c && decide (4 ≤ siteCluster c)

/-- The package a site belongs to; none for the module-level parts. -/
def sitePkg (c : Nat) : Option Nat :=
  if siteKind c = 0 then none else if siteKind c ≤ 4 then some (siteDie c) else some (siteDie c / 4)

/-- The media die a site belongs to, for kinds 0x5 to 0x8. -/
def siteMediaDie (c : Nat) : Option Nat :=
  if 5 ≤ siteKind c ∧ siteKind c ≤ 8 then some (siteDie c) else none

/-- The package of a media die (R8). -/
def pkgOfDie (d : Nat) : Nat := d / 4

/-- Cluster code within a die: quadrant × 6 + c (Table 3.2). -/
def clusterCode (c : Nat) : Nat := siteQuad c * 6 + siteCluster c

/-- Clusters are numbered die × 24 + code; a unit's or cluster's site gives its cluster's number. -/
def clusterNo (c : Nat) : Nat := siteDie c * 24 + clusterCode c

/-- The site of a cluster number. -/
def clusterSite (n : Nat) : Nat := mkSite 7 (n / 24) (n % 24 / 6) (n % 6) 0 0

/-- The die of a cluster number. -/
def clusterDie (n : Nat) : Nat := n / 24

/-- The cluster number is an audio cluster's. -/
def clusterIsAudio (n : Nat) : Bool := decide (4 ≤ n % 6)

/-- A unit of a cluster number. -/
def unitSite (n u : Nat) : Nat := mkSite 8 (n / 24) (n % 24 / 6) (n % 6) u 0

/-- Whether site c is the site a or lies below it in the six levels (R399). -/
def siteUnder (a c : Nat) : Bool :=
  if a == noSite then true
  else if a == c then true
  else match siteKind a with
    | 0 => siteIndex a == 0 && siteKind c == 0
    | 1 => siteIndex a == 0 && sitePkg c == some (siteDie a) ||
           siteIndex a == 1 && sitePkg c == some (siteDie a) && (siteKind c == 2 || siteKind c == 4 ||
             siteKind c == 3 || (siteKind c == 1 && decide (2 ≤ siteIndex c) && siteIndex c != 5))
    | 4 => siteIndex a == 255 && siteKind c == 4 && siteDie c == siteDie a
    | 5 => siteIndex a == 0 && decide (5 ≤ siteKind c) && siteDie c == siteDie a
    | 6 => siteIndex a == 255 && decide (6 ≤ siteKind c) && siteDie c == siteDie a && siteQuad c == siteQuad a
    | 7 => siteKind c == 8 && siteDie c == siteDie a && siteQuad c == siteQuad a && siteCluster c == siteCluster a
    | _ => false

end Sys2Proof.Machine
end

