-- ==== Sys2Proof/Machine/Types/Audio.lean ====
section
/-! DEFINITION. Audio legs, crosspoints, talker groups, beacons (10, 11 and 12). -/

namespace Sys2Proof.Machine

/-- An equaliser section (Table 10.8), Q2.30. -/
structure Biquad where
  b0 : Int
  b1 : Int
  b2 : Int
  a1 : Int
  a2 : Int
  x1 : Int := 0
  x2 : Int := 0
  y1 : Int := 0
  y2 : Int := 0
deriving DecidableEq, Repr, Inhabited

/-- A sub-band of G.722 (R233): predicted signal, its zero part, predictor coefficients, earlier signals, log scale factor, scale factor. -/
structure SubBand where
  s : Int := 0
  sz : Int := 0
  a1 : Int := 0
  a2 : Int := 0
  r1 : Int := 0
  p1 : Int := 0
  p2 : Int := 0
  b : List Int := [0, 0, 0, 0, 0, 0]
  d : List Int := [0, 0, 0, 0, 0, 0]
  nb : Int := 0
  det : Int := 32
deriving DecidableEq, Repr, Inhabited

/-- What a codec stage carries from frame to frame (R230, R233, R238): the bands and the filter of G.722, the decimator's latest samples
(newest first), and, of an algorithm that no rule prints, a number that stands for its state. -/
structure Coder where
  low : SubBand := {}
  high : SubBand := { det := 8 }
  qmf : List Int := []
  decim : List Int := []
  token : Nat := 0
deriving DecidableEq, Repr, Inhabited

/-- The configurable stages of one path (R226): equaliser, suppression depth, gain control (target, maximum gain). -/
structure Stages where
  eq : Option (List Biquad) := none
  ns : Option Nat := none
  agc : Option (Int × Nat) := none
  /-- What suppression and gain control carry from beat to beat. -/
  nsState : Nat := 0
  agcState : Nat := 0
deriving DecidableEq, Repr, Inhabited

/-- The parameters of an audio leg (Table 10.6). -/
structure AudioCfg where
  codec : Nat := 5
  flags : Nat := 1
  bandwidth : Nat := 4
  lossPct : Nat := 10
  bitrate : Nat := 32000
  jbTarget : Nat := 40000000
  vadThreshold : Int := -12800
  rtpBase : W32 := 0
  sendDeadline : Nat := 2000000
deriving DecidableEq, Repr, Inhabited

/-- A packet held in the jitter buffer (R230): whether it carries in-band FEC data of the frame before it (R232). -/
structure JbPacket where
  ts : W32
  seq : BitVec 16
  arrival : Instant
  fecNext : Bool := false
  data : List Byte := []
deriving DecidableEq, Repr, Inhabited

/-- The counters of Table 10.9. -/
structure AudioCtrs where
  packets : Ctr := 0
  late : Ctr := 0
  duplicate : Ctr := 0
  badDuration : Ctr := 0
  oversize : Ctr := 0
  concealed : Ctr := 0
  fecRecovered : Ctr := 0
  dtx : Ctr := 0
  silence : Ctr := 0
  reanchors : Ctr := 0
  skips : Ctr := 0
  catchups : Ctr := 0
  underruns : Ctr := 0
  mixMissing : Ctr := 0
  framesSent : Ctr := 0
deriving DecidableEq, Repr, Inhabited

/-- A leg report (Table 10.4). -/
structure LegReport where
  codecFrame : Nat := 0
  level : Int := -32768
  flags : Nat := 0
  steer : Nat := 0
  jbFrames : Nat := 0
  eLevel : Nat := 0
  delta : Int := 0
  jbDelay : Nat := 0
  skips : Nat := 0
  catchups : Nat := 0
deriving DecidableEq, Repr, Inhabited

/-- The anchor of a jitter buffer (R230). -/
structure Anchor where
  ts : W32
  arrival : Instant
  /-- Beat at which frame 0 starts. -/
  start : Instant
deriving DecidableEq, Repr, Inhabited

/-- Beacon parameters (Table 12.7). -/
structure BeaconCfg where
  txEnable : Bool := false
  rxEnable : Bool := false
  subHi : Nat := 115
  maxSymbols : Nat := 16
  tag : Nat := 0
  period : Nat := 200
  phase : Nat := 0
  level : Int := -9216
  detThreshold : Nat := 2048
  loadMargin : Nat := 768
  heardTimeout : Nat := 10
  appData : List Byte := []
deriving DecidableEq, Repr, Inhabited

/-- The packet the receiver is on (R272 to R274): the sample it starts at (120 × beat index + sample), its strength, its samples so far,
newest first, its header once that has passed, and the receiver's settings when it became current, which it completes under (R280). -/
structure BeaconCur where
  start : Nat
  strength : Int
  samples : List Int := []
  header : Option Nat := none
  cfg : BeaconCfg := {}
deriving DecidableEq, Repr, Inhabited

/-- An entry of the heard table (R277, Table 12.9). -/
structure Heard where
  tag : Nat
  packets : Nat := 1
  strength : Int
  seq : Nat
  delay : Int
  at_ : Instant
deriving DecidableEq, Repr, Inhabited

/-- The beacon of a leg (R262 to R280). -/
structure Beacon where
  cfg : BeaconCfg := {}
  seq : W16 := 0
  /-- Loading counts n1 to n4 (R265, R270), newest first, each with the stamp of its measurement. -/
  loading : List (Instant × List Nat) := [(0, [5, 0, 0, 0])]
  /-- Smoothed S_g of the pairs that have been measured (R270). -/
  snr : Tab Int := []
  gain : Nat := 0
  gainFrozen : Bool := false
  current : Option BeaconCur := none
  /-- The latest 640 samples that the receiver has read, newest first (R271). -/
  store : List Int := []
  locked : Bool := false
  /-- Own packets received after each of the latest due beats, newest first; the first number is that of the latest (R276). -/
  due : List Nat := []
  /-- Samples of the packet in transmission that are still to be sent (R268). -/
  txSamples : List Int := []
  epsilon : Int := 0
  ownStrength : Int := 0
  ownPackets : Nat := 0
  lastOwn : Instant := 0
  heard : List Heard := []
  sent : Ctr := 0
  deferred : Ctr := 0
  detected : Ctr := 0
  ownGood : Ctr := 0
  foreignGood : Ctr := 0
  headerFail : Ctr := 0
  payloadFail : Ctr := 0
  superseded : Ctr := 0
  collisions : Ctr := 0
  rxEvent : Limiter := {}
  rxSup : Nat := 0
  rxCol : Nat := 0
  rxHdr : Nat := 0
  rxPay : Nat := 0
  txEvent : Limiter := {}
deriving DecidableEq, Repr, Inhabited

/-- An audio leg (R221 to R241). -/
structure AudioLeg where
  cfg : AudioCfg := {}
  stateHandle : Nat := 0
  jitterBuffer : Nat := 0
  bitstream : Nat := 0
  /-- Parameter blocks of the RECEIVE and SEND entries: the first handle (Table 3.1). -/
  params : Nat := 0
  rx : Stages := {}
  tx : Stages := {}
  jb : List JbPacket := []
  anchor : Option Anchor := none
  everAnchored : Bool := false
  /-- Number of the next frame to start (R230). -/
  nextFrame : Nat := 0
  /-- Cause of Table 10.5 that the next anchor raises; 0 for a leg's first. -/
  cause : Nat := 0
  lastSeq : Option (BitVec 16) := none
  runConcealed : Nat := 0
  runSilence : Nat := 0
  noPacketRun : Nat := 0
  /-- Slices of the current frame already run (R227). -/
  slice : Nat := 0
  sliceKind : Nat := 0
  /-- Bytes that the current frame is decoded from. -/
  sliceData : List Byte := []
  decoder : Coder := {}
  encoder : Coder := {}
  /-- Decoded samples waiting in the converter's input FIFO (R235). -/
  fifo : List Int := []
  completions : Nat := 0
  started : Bool := false
  /-- Synthesiser position p, Q24.40, and history of the filter (R234). -/
  p : Nat := 0
  history : List Int := []
  delta : Int := 0
  /-- Steering updates waiting for a beat with i mod 8 = 0 (R237), oldest first, with their stamps. -/
  deltaNext : List (Instant × Int) := []
  kb : Nat := 128
  kj : Nat := 32
  steerBeacon : Bool := false
  /-- Locks and unlocks of the beacon that wait for a beat with i mod 8 = 0 (R237), oldest first, with their stamps. -/
  lockNext : List (Instant × Bool) := []
  /-- Blocks of the drift estimate that may still take packets (R236): smallest value and packets, by block number; and the last valid m. -/
  blocks : Tab (Int × Nat) := []
  lastMin : Option (Nat × Int) := none
  /-- Samples of the receive path over the codec frame, for the meter (R240), as a sum of squares. -/
  sumSquares : Nat := 0
  frameConcealed : Bool := false
  frameFec : Bool := false
  frameSilence : Bool := false
  frameMixMissing : Bool := false
  frameUnderrun : Bool := false
  frameSkips : Nat := 0
  frameCatchups : Nat := 0
  jbDelay : Nat := 0
  eLevel : Nat := 0
  report : LegReport := {}
  /-- Latest 94 samples given to the band-limiter (R262), newest first. -/
  limiter : List Int := []
  /-- The codec-frame window being filled: index of its first beat, its samples, and the encoder settings taken at its start; and
  the window being encoded (R238, R239). -/
  window : Option (Nat × List Int × AudioCfg) := none
  encoding : Option (Nat × List Int × AudioCfg) := none
  ctrs : AudioCtrs := {}
  driftEvent : Limiter := {}
  underEvent : Limiter := {}
  beacon : Beacon := {}
  /-- Receive-path outputs of the latest beats, newest first: beat, completion, samples (R243, R246, R256). -/
  outs : List (Instant × Instant × List Int) := []
deriving DecidableEq, Repr, Inhabited

/-- A running ramp of a node (R250). -/
structure Ramp where
  s : Int
  t : Int
  r : Nat
  n : Nat := 0
deriving DecidableEq, Repr, Inhabited

/-- A crosspoint node (R247 to R257). Gain −32,768 is off. -/
structure Node where
  gain : Int := -32768
  target : Int := -32768
  current : Int := -32768
  rampLen : Nat := 480
  delay1 : Bool := false
  ramp : Option Ramp := none
  removing : Bool := false
  /-- A commanded change has been taken and has not yet been mixed (R251). -/
  fresh : Bool := false
deriving DecidableEq, Repr, Inhabited

/-- A member of a talker group (R257, R258). -/
structure Member where
  port : Nat
  pinned : Bool := false
  /-- The status in force at the crosspoint. -/
  talker : Bool := false
  /-- Frame in which the member was last active. -/
  last : Option Nat := none
deriving DecidableEq, Repr, Inhabited

/-- A talker group (Table 11.5). -/
structure TalkerGroup where
  maxTalkers : Nat := 3
  holdFrames : Nat := 25
  margin : Nat := 1536
  duck : Int := -32768
  attack : Nat := 240
  release : Nat := 4800
  members : List Member := []
  /-- The latest frame judged (R258). -/
  codecFrame : Option Nat := none
  /-- Talkers of the latest frame judged (R258), by port. -/
  talkers : List Nat := []
  /-- Statuses written and waiting for their beat (R259): the beat's index and the talkers' ports, oldest first. -/
  pending : List (Nat × List Nat) := []
deriving DecidableEq, Repr, Inhabited

/-- A tie line, seen from its sending die (R254). -/
structure TieLine where
  srcDie : Nat
  srcPort : Nat
  dstDie : Nat
  dstPort : Nat
  /-- Samples that have arrived in time, newest first: the sending beat and the samples (R255, R256). -/
  arrived : List (Instant × List Int) := []
deriving DecidableEq, Repr, Inhabited

/-- The crosspoint of a die (R243 to R260). -/
structure Crosspoint where
  /-- Nodes, by 1,664 × input + output. -/
  nodes : Tab Node := []
  /-- Outputs of the latest mixes, newest first: beat, and samples by port (R245). -/
  outputs : List (Instant × Tab (List Int)) := []
  groups : Tab TalkerGroup := []
  mixes : Ctr := 0
  lateInputs : Ctr := 0
  tieLate : Ctr := 0
  talkerLate : Ctr := 0
  lateEvent : Limiter := {}
  tieEvent : Limiter := {}
deriving DecidableEq, Repr, Inhabited

/-- Audio state of the module. -/
structure AudioState where
  legs : Tab AudioLeg := []
  xps : Tab Crosspoint := []
  ties : List TieLine := []
deriving DecidableEq, Repr, Inhabited

end Sys2Proof.Machine
end

