-- ==== Sys2Proof/Machine/Types/Egress.lean ====
section
/-! DEFINITION. Leg queues, classes, policers, launch timers (06_scheduling_policing.md). -/

namespace Sys2Proof.Machine

/-- What a queued frame carries. -/
inductive Payload where
  | media (h : MediaHdr)
  | serverHello (h : ServerHello)
  | reject (session : Nat) (status : Status)
  | reply (session seq : Nat) (r : Reply) (fragment : Nat)
  | events (session seq : Nat) (subscriber firstSeq : Nat) (recs : List EventRec)
  | samples (session seq : Nat) (subscriber pkg firstSeq : Nat) (instant : Instant) (recs : List (List Nat))
  | segment (pkg index : Nat) (data : List Byte)
  | ptp (m : PtpMsg)
  /-- A frame that the transparent clock passes on, with its t_rx (R293). -/
  | ptpPass (frame : List Byte) (rx : Instant)
  | dhcp (family : Nat) (kind : Nat)
  | rtcp (ctx kind : Nat)
deriving DecidableEq, Repr, Inhabited

/-- A copy in a leg queue. `len` runs from destination MAC through FCS; `body` is the UDP payload, where the module forms it when it
queues the copy. -/
structure Copy where
  len : Nat
  enq : Instant
  arrival : Instant := 0
  dstUdp : Nat := 0
  dstAddr : Nat := 0
  srcUdp : Nat := 0
  srcAddr : Nat := 0
  dscp : Nat := 0
  vid : Nat := 0
  body : List Byte := []
  /-- The packet on whose tag verdict an express store-and-forward copy waits (R105). -/
  hold : Option Nat := none
  payload : Payload
deriving DecidableEq, Repr, Inhabited

/-- The parameters of a leg (Table 6.4). -/
structure LegCfg where
  port : Nat := 0
  iface : Nat := 0
  cls : Nat := 0
  timed : Bool := false
  rate : Nat := 0xFFFFFFFF
  burst : Nat := 65536
  maxDepth : Nat := 262144
  maxFrame : Nat := 9238
  weight : Nat := 1
  timer : Nat := 0xFFFFFFFF
deriving DecidableEq, Repr, Inhabited

/-- A token bucket in µbit (R140). -/
structure Bucket where
  level : Int := 0
  last : Instant := 0
deriving DecidableEq, Repr, Inhabited

/-- A leg queue (R136 to R140, Table 6.8). -/
structure Leg where
  cfg : LegCfg := {}
  queue : List Copy := []
  bucket : Bucket := {}
  deficit : Int := 0
  enqueued : Ctr := 0
  sent : Ctr := 0
  depthDrops : Ctr := 0
  bufferDrops : Ctr := 0
  windowRefused : Ctr := 0
  windowMisses : Ctr := 0
  lastSojourn : Nat := 0
  /-- Window for which this leg's miss has been counted. -/
  missedWindow : Option Instant := none
  dropEvent : Limiter := {}
  refusedEvent : Limiter := {}
deriving DecidableEq, Repr, Inhabited

/-- One traffic class of an interface (R137, R141). -/
structure ClassState where
  weight : Nat := 1
  rate : Nat := 0xFFFFFFFF
  bucket : Bucket := {}
  deficit : Int := 0
deriving DecidableEq, Repr, Inhabited

/-- A frame in transmission on an interface. -/
structure InTx where
  leg : Option Nat
  cls : Nat
  copy : Copy
  start : Instant
  until_ : Instant
  /-- The cut-through packet the frame copies (R106). -/
  cut : Option Nat := none
deriving DecidableEq, Repr, Inhabited

/-- The egress scheduler's view of an interface (R135, R137, R141). -/
structure EgIface where
  strictCount : Nat := 4
  overhead : Int := 20
  classBurst : Nat := 65536
  classes : Tab ClassState := []
  internal : List Copy := []
  /-- Internal frames that wait at their producer for a free cell (R139). -/
  waiting : List Copy := []
  tx : Option InTx := none
  /-- Cut-through copies that are committed and have not ended (R138). -/
  cuts : List InTx := []
  /-- Round-robin positions: class, and leg per class. -/
  rrClass : Nat := 0
  rrLeg : Tab Nat := []
deriving DecidableEq, Repr, Inhabited

/-- The parameters of a policer (Table 6.6). -/
structure PolicerCfg where
  mode : Nat := 0
  yellowDrop : Bool := false
  cir : Nat := 8
  cbs : Nat := 0
  pir : Nat := 0
  ebsOrPbs : Nat := 0
deriving DecidableEq, Repr, Inhabited

/-- A policer (R142 to R144). -/
structure Policer where
  cfg : PolicerCfg := {}
  c : Int := 0
  e : Int := 0
  last : Instant := 0
  green : Ctr := 0
  yellow : Ctr := 0
  red : Ctr := 0
  redEvent : Limiter := {}
deriving DecidableEq, Repr, Inhabited

/-- The parameters of a launch timer (Table 6.7). -/
structure TimerCfg where
  grid : Grid := .audio
  guard : Bool := true
  port : Nat := 0
  iface : Nat := 0
  period : Nat := 1
  phase : Nat := 0
  offset : Nat := 0
  length : Nat := 0
deriving DecidableEq, Repr, Inhabited

/-- A held launch timer (R145, R146). `cfgFrom` is the effective instant of the parameters in force: they apply from the
first window that opens at or after it (R151). -/
structure Timer where
  cfg : TimerCfg := {}
  cfgFrom : Instant := 0
  old : Option TimerCfg := none
  windows : Ctr := 0
  misses : Ctr := 0
  frames : Ctr := 0
  open_ : Option Instant := none
  missEvent : Limiter := {}
deriving DecidableEq, Repr, Inhabited

/-- The sampling list of an IO die (R149). -/
structure Sampling where
  intervalUs : Nat := 0
  legs : List Nat := []
deriving DecidableEq, Repr, Inhabited

/-- Samples of one sampling instant that wait for a subscriber, from list position `pos` on (R360). -/
structure SampleSet where
  sub : Nat
  pkg : Nat
  instant : Instant
  pos : Nat := 0
  recs : List (List Nat) := []
deriving DecidableEq, Repr, Inhabited

/-- Egress state of the module. -/
structure EgressState where
  legs : Tab Leg := []
  /-- Interfaces, numbered 8 × port + interface. -/
  ifaces : Tab EgIface := []
  /-- Packet-buffer cells in use per IO die (R139). -/
  cells0 : Nat := 0
  cells1 : Nat := 0
  policers : Tab Policer := []
  /-- DSCP colour maps, 64 entries of 0 green, 1 yellow, 2 red (R143); unlisted reads green. -/
  colour0 : Tab Nat := []
  colour1 : Tab Nat := []
  timers : Tab Timer := []
  sampling0 : Sampling := {}
  sampling1 : Sampling := {}
  /-- Samples not yet sent, per subscriber (R360). -/
  samplesWaiting : List SampleSet := []
deriving DecidableEq, Repr, Inhabited

end Sys2Proof.Machine
end

