-- ==== Sys2Proof/Machine/Types/Events.lean ====
section
/-! DEFINITION. The event merger and its subscribers (16_events_and_telemetry.md). -/

namespace Sys2Proof.Machine

/-- A record in the history of a subscriber, with its sequence (R358). -/
structure SeqRec where
  seq : Nat
  rec_ : EventRec
deriving DecidableEq, Repr, Inhabited

/-- A subscriber (R355 to R359, Table 16.6). -/
structure Subscriber where
  session : Nat
  events : Bool := true
  samples : Bool := false
  flushMs : Nat := 10
  maxPps : Nat := 1000
  /-- Masks with the instants from which they apply, newest first: a record takes the newest that applies at its stamp (R355). -/
  masks : List (Instant × BitVec 256) := []
  /-- Released records not yet sent, with their release instants. -/
  queue : List (SeqRec × Instant) := []
  history : List SeqRec := []
  nextSeq : Nat := 0
  /-- The next sequence as last copied to the standby (R359). -/
  copied : Nat := 0
  packets : Ctr := 0
  records : Ctr := 0
  dropped : Ctr := 0
  droppedPending : Nat := 0
  second : Nat := 0
  sentInSecond : Nat := 0
deriving DecidableEq, Repr, Inhabited

/-- The merger (R351 to R354). -/
structure EventState where
  /-- Records raised and on their way to the merger (R351). -/
  raised : List EventRec := []
  /-- Records held by the merger until their release. -/
  held : List EventRec := []
  released : Ctr := 0
  lateDiscarded : Ctr := 0
  fifoLost : Ctr := 0
  samplesLost : Ctr := 0
  /-- Subscribers 0 to 3. -/
  subs : Tab Subscriber := []
deriving DecidableEq, Repr, Inhabited

end Sys2Proof.Machine
end

