-- ==== Sys2Proof/Machine/Types/Memory.lean ====
section
/-! DEFINITION. Stacks, buffers, FIFOs and books (14_memory_and_fifos.md). -/

namespace Sys2Proof.Machine

/-- Refresh mode of a stack (Table 14.10). -/
inductive RefreshMode where
  | normal | doubled | selfRefresh
deriving DecidableEq, Repr, Inhabited

/-- One pseudo-channel's refresh state (R315). -/
structure Pch where
  postponed : Nat := 0
  due : Instant := 0
  lastRefresh : Instant := 0
  /-- The class of the latest request granted in the alternation: real-time, or bulk (R314). -/
  lastRealTime : Bool := false
  /-- Instant of the latest scrub (R319). -/
  lastScrub : Instant := 0
deriving DecidableEq, Repr, Inhabited

/-- One HBM stack (R307 to R319, Table 14.10). -/
structure Stack where
  temperature : Int := 0
  /-- Instant of the latest reading (R316). -/
  lastReading : Instant := 0
  mode : RefreshMode := .normal
  pchs : Tab Pch := []
  maxPostponed : Nat := 0
  refreshes : Ctr := 0
  forced : Ctr := 0
  batches : Ctr := 0
  corrected : Ctr := 0
  uncorrected : Ctr := 0
  scrubPasses : Ctr := 0
  /-- Words with a bit error: address of the 64-bit word, and 1 (single) or 2 (double bit) (R319). -/
  flaws : Tab Nat := []
  overtempEvent : Limiter := {}
  correctedEvent : Limiter := {}
deriving DecidableEq, Repr, Inhabited

/-- One FIFO (R320 to R323, Table 14.12): the credits that its producer holds, of two; the packets closed and not drained, oldest first, with
the words read of the oldest; and the arrivals of the credits that return. -/
structure Fifo where
  credits : Nat := 2
  closed : List Nat := []
  read : Nat := 0
  returning : List Instant := []
  packets : Ctr := 0
  underrun : Bool := false
  errors : Nat := 0
  uncorrected : Nat := 0
  underruns : Nat := 0
  underrunEvent : Limiter := {}
  eccEvent : Limiter := {}
deriving DecidableEq, Repr, Inhabited

/-- An allocated buffer (R310): its kind, stack, bytes, and the quadrant whose local window holds it. -/
structure Buffer where
  size : Nat := 0
  quad : Nat := 0
deriving DecidableEq, Repr, Inhabited

/-- Memory state of the module. -/
structure MemState where
  /-- Stacks 0 to 7 of D0 to D7, 8 and 9 of the IO dies. -/
  hbms : Tab Stack := []
  /-- FIFOs, by site code × 65,536 + number. -/
  fifos : Tab Fifo := []
  /-- Allocated buffers, by handle. -/
  buffers : Tab Buffer := []
  /-- Contents that an import has written into a buffer (R129), by handle. -/
  contents : Tab (List Byte) := []
  /-- Spans of time in which a port of a quadrant has asserted panic, in order and apart (R313), by stack × 4 + quadrant. -/
  panics : Tab (List (Instant × Instant)) := []
  /-- Next index of a kind on a stack, by kind × 16 + stack: handles are never reused (R310). -/
  nextIndex : Tab Nat := []
  /-- Errors of the books, total less expected, by book × 16 + site (0 to 7 Dn, 8 and 9 IO dies) (R326). -/
  bookError : Tab Int := []
  imbalances : Ctr := 0
  /-- Latest audit ordered by command, by site code. -/
  audits : Tab Instant := []
  /-- Latest beat audit of each place (R325). -/
  beatAudits : Tab Instant := []
deriving DecidableEq, Repr, Inhabited

end Sys2Proof.Machine
end

