-- ==== Sys2Proof/Machine/Types/Ports.lean ====
section
/-! DEFINITION. Ports, interfaces and lanes (15_ports_and_lanes.md). -/

namespace Sys2Proof.Machine

/-- The settings of a port (Table 15.4). -/
structure PortCfg where
  mode : Nat := 0
  adminDown : Nat := 0
  media : Nat := 0
  mtu : Nat := 9238
  upHold : Nat := 100
  downHold : Nat := 0
  berAlarm : Nat := 10000000
deriving DecidableEq, Repr, Inhabited

/-- An interface (Table 15.5): `stage` 0 down, 1 to 6 the stage of Table 15.2, 7 up, 8 administratively down, 9 absent. -/
structure Iface where
  stage : Nat := 9
  since : Instant := 0
  /-- When alignment loss began while up (down_hold timer, R334), and its cause. -/
  lossSince : Option (Instant × Nat) := none
  retryAt : Option Instant := none
  changed : Instant := 0
  rxFrames : Ctr := 0
  rxErrors : Ctr := 0
  rxPause : Ctr := 0
  txFrames : Ctr := 0
  txDown : Ctr := 0
  txOversize : Ctr := 0
  fecCorrected : Ctr := 0
  fecUncorrectable : Ctr := 0
  bringupFail : Nat := 0
  failEvent : Limiter := {}
  fecEvent : Limiter := {}
deriving DecidableEq, Repr, Inhabited

/-- The optics in a cage (R343). `media` 1 optical, 2 passive copper, 3 active electrical. -/
structure Optics where
  media : Nat := 1
  /-- Port modes whose application they advertise. -/
  modes : List Nat := [1, 2, 3]
  /-- The duration that they advertise for stage 1 of Table 15.2, in ms. -/
  advertisedMs : Nat := 0
  /-- The high temperature warning that they advertise (Table 18.3). -/
  highWarning : Int := 75
  moduleState : Nat := 0
  temperature : Int := 0
  /-- What a management transfer answers: 0 success, else the detail of CMIS_ERROR (R344). -/
  status : Nat := 0
  /-- Alarm and warning flags found set at the latest poll: bank, page, byte, flags. -/
  flags : List (Nat × Nat × Nat × Nat) := []
  /-- Bytes written by command, by ((bank × 256) + page) × 256 + offset. -/
  written : Tab Byte := []
  insertedAt : Instant := 0
  firstAccess : Option Instant := none
deriving DecidableEq, Repr, Inhabited

/-- A port. -/
structure Port where
  cfg : PortCfg := {}
  /-- Mode in force, 1 to 3; 0 before the first start. -/
  mode : Nat := 0
  /-- Interface 0 alone runs, on L0 (start and setting mode, R332). -/
  single : Bool := false
  /-- The mode that auto-negotiation has resolved on passive copper (R332); 0 none. -/
  resolved : Nat := 0
  optics : Option Optics := none
  ifaces : Tab Iface := []
  lastPoll : Instant := 0
  mismatchRaised : Bool := false
deriving DecidableEq, Repr, Inhabited

/-- A lane (Table 15.6). `state` is kept for inter-package lanes: 0 unused, 1 active, 2 spare, 4 failed; an external lane is active
when the mode uses it. -/
structure Lane where
  state : Nat := 0
  quietTx : Bool := false
  quietRx : Bool := false
  /-- 0 none, 1 near-end loopback, 2 far-end loopback, 3 PRBS. -/
  test : Nat := 0
  pattern : Nat := 0
  testSince : Instant := 0
  /-- Adaptation is frozen, with the taps of this instant. -/
  frozenAt : Option Instant := none
  /-- c(−3) to c(1), in 1/64 of full swing. -/
  txFfe : List Int := [0, 0, 0, 64, 0]
  /-- PAM4 symbols by which the receive word boundary has moved. -/
  shift : Nat := 0
  symbolErrors : Ctr := 0
  prbsBits : Ctr := 0
  prbsErrors : Ctr := 0
  slips : Ctr := 0
deriving DecidableEq, Repr, Inhabited

/-- One direction of the inter-package link (R340 to R342). -/
structure IplDir where
  narrowed : Bool := false
  down : Bool := false
  retryEvent : Limiter := {}
deriving DecidableEq, Repr, Inhabited

/-- Port state of the module. External lanes are numbered 8 × port + lane, inter-package lanes 32 × direction + lane. -/
structure PortsState where
  portA : Port := {}
  portB : Port := {}
  lanes : Tab Lane := []
  iplLanes : Tab Lane := []
  ipl0 : IplDir := {}
  ipl1 : IplDir := {}
deriving DecidableEq, Repr, Inhabited

end Sys2Proof.Machine
end

