-- ==== Sys2Proof/Machine/Types/Start.lean ====
section
/-! DEFINITION. Start-up, fencing, self-test, OTP, firmware, supply and cooling (17 and 18). -/

namespace Sys2Proof.Machine

/-- The operating phase of the module (R363 to R370, R384, R389). -/
inductive Run where
  /-- Mains absent. -/
  | off
  /-- A start is at this stage. -/
  | starting (stage : Nat)
  /-- In service. -/
  | service
  /-- In setting mode. -/
  | setting
  /-- A start has failed; a new one begins 5 s after (R368). -/
  | failed
  /-- A setting-mode start found no package with the minimal working set; one is run every 60 s (R369). -/
  | settingRetry
  /-- Outputs lost, standby rail still up (R389). -/
  | standby
  /-- Scan is open until mains is removed (R384). -/
  | unlocked
deriving DecidableEq, Repr, Inhabited

/-- A failure at start or its record: stage, cause, site, detail (Tables 17.4, 17.11). -/
structure FailRec where
  stage : Nat := 0
  cause : Nat := 0
  kind : Nat := 0
  site : Nat := 0
  detail : Nat := 0
  /-- Balance-clock second since mains-on. -/
  atS : Nat := 0
deriving DecidableEq, Repr, Inhabited

/-- A media die's service state (R371, R372, R377). -/
structure DieState where
  fenced : Bool := true
  cause : Nat := 0
  failRec : Option FailRec := none
  /-- 0 none, 1 a recovery is under way, 2 an on-command test is under way. -/
  work : Nat := 0
  workSince : Instant := 0
  /-- The audio beat at which the die returns to service (R372). -/
  restoreAt : Option Instant := none
  /-- On-command test (R377): 0 idle, 1 running, 2 done; verdict 1 pass, 2 fail, 3 incomplete. -/
  testState : Nat := 0
  testVerdict : Nat := 0
  testDone : Nat := 0
  testFailures : Nat := 0
deriving DecidableEq, Repr, Inhabited

/-- A background test of a site (R375). -/
structure BistTest where
  sig : Nat := 0xFFFFFFFF
  count : Nat := 0
  failures : Nat := 0
  /-- 0 none yet, 1 pass, 2 fail, 3 incomplete, 4 running. -/
  verdict : Nat := 0
deriving DecidableEq, Repr, Inhabited

/-- A failure record of self-test (R376). -/
structure BistFailure where
  site : Nat
  kind : Nat
  slice : Nat
  repairable : Bool
  pending : Bool
  address : Nat
  bit : Nat
  found : Instant
deriving DecidableEq, Repr, Inhabited

/-- A slice that is running (R374). `die` is 0 to 7 for a media die, 8 and 9 for the IO dies. -/
structure Slice where
  die : Nat
  kind : Nat
  target : Nat
  claim : Nat
  started : Instant
  /-- The crypto unit under a slice of kind 6 (Table 17.5). -/
  unit : Nat := 0
  /-- A test window of the unit has run the slice (R78). -/
  ran : Bool := false
deriving DecidableEq, Repr, Inhabited

/-- A repair entry (R379). -/
structure Repair where
  site : Nat
  kind : Nat
  spare : Nat
  index : Nat
deriving DecidableEq, Repr, Inhabited

/-- A settings generation (Table 17.7). `keys` are the enrolled entries of 104 bytes; `valid` tells whether its check holds. -/
structure Settings where
  minFirmware : Nat := 0
  keys : List Nat := []
  valid : Bool := true
deriving DecidableEq, Repr, Inhabited

/-- A repair generation (R379). -/
structure RepairGen where
  repairs : List Repair := []
  valid : Bool := true
deriving DecidableEq, Repr, Inhabited

/-- One OTP block (Table 17.6): settings and repair generations by number. Its factory area is fixed by Config. -/
structure OtpBlock where
  settings : Tab Settings := []
  repairs : Tab RepairGen := []
  /-- The key read path is open (R384). -/
  keyPath : Bool := true
deriving DecidableEq, Repr, Inhabited

/-- A firmware slot: the factory's image, or the bytes that commands have written (R380, R381). -/
structure Image where
  factory : Bool := false
  bytes : Tab Byte := []
deriving DecidableEq, Repr, Inhabited

/-- A package's firmware store (Table 17.8). -/
structure FirmwareStore where
  slot0 : Image := {}
  slot1 : Image := {}
  preferred : Nat := 0
  /-- The slot whose image runs; 0xFF none. -/
  running : Nat := 0xFF
  fallback : Bool := false
deriving DecidableEq, Repr, Inhabited

/-- Start, test and trust state of the module. -/
structure StartState where
  run : Run := .off
  /-- Balance-clock time since mains-on (the supervisor island's clock), in 2^-16 ns. -/
  balance : Nat := 0
  /-- Balance-clock time at which the stage in progress began, and at which the start began. -/
  stageSince : Nat := 0
  startSince : Nat := 0
  settingStart : Bool := false
  /-- Starts since mains-on. -/
  starts : Nat := 0
  restartAt : Nat := 0
  duration : Nat := 0
  /-- Failed starts: the latest eight, newest first, and the count since mains-on (R368). -/
  failures : List FailRec := []
  totalFailed : Nat := 0
  /-- Balance-clock times of the failed starts of the last 600 s. -/
  failTimes : List Nat := []
  /-- Packages that take part in this start, and those that may still meet the media-service working set; their records
  (Table 17.2), and the control cores that have failed stage 4. -/
  part0 : Bool := false
  part1 : Bool := false
  svc0 : Bool := false
  svc1 : Bool := false
  coreFails : List Nat := []
  pkgRec0 : Option FailRec := none
  pkgRec1 : Option FailRec := none
  dies : Tab DieState := []
  /-- Clock domains that run (Table 1.6), each with the site of its share: an IO die, or a media die for its share of 4, 5, 6, 7, 10, 11
  and 17. -/
  domains : List (Nat × Nat) := []
  otp0 : OtpBlock := {}
  otp1 : OtpBlock := {}
  fw0 : FirmwareStore := {}
  fw1 : FirmwareStore := {}
  jumper : Bool := false
  scanOpen : Bool := false
  /-- Background self-test: the running slices; by die (0 to 7, IO dies 8 and 9), the latest round with a slice and the next of its four offsets;
  dies whose self-test is disabled. -/
  slices : List Slice := []
  sliceRound : Tab (Nat × Nat) := []
  bistOff : List Nat := []
  /-- Background tests, by site code × 8 + kind. -/
  tests : Tab BistTest := []
  bistFailures0 : List BistFailure := []
  bistFailures1 : List BistFailure := []
  pendingRepairs0 : List Repair := []
  pendingRepairs1 : List Repair := []
  reported : List (Nat × Nat × Nat) := []
  bistPass : Nat := 0
  bistFail : Nat := 0
  bistIncomplete : Nat := 0
deriving DecidableEq, Repr, Inhabited

/-- Supply, fans and thermal state (R389 to R394). -/
structure PowerState where
  lowRaised : Bool := false
  /-- Balance-clock times at which the input was interrupted and the outputs were lost. -/
  interrupted : Option Nat := none
  outputLost : Option Nat := none
  /-- Commanded speed of all fans, in rpm, and the failed positions. -/
  fanCommand : Nat := 0
  fansFailed : List Nat := []
  /-- Every fan runs at full speed (R393, R394). -/
  fansFull : Bool := false
  /-- Latest readings by site code. -/
  readings : Tab Int := []
  warned : List Nat := []
  /-- Since when each sensor is at or above its stop threshold. -/
  stopSince : Tab Instant := []
  /-- The output and the cause of the latest supply fault (Table 18.8). -/
  psuFault : Option (Nat × Nat) := none
  /-- Balance-clock time of the latest pass of the thermal loop. -/
  loopAt : Option Nat := none
  /-- Every port transmitter is quiet (R384, R394). -/
  portsQuiet : Bool := false
deriving DecidableEq, Repr, Inhabited

end Sys2Proof.Machine
end

