-- ==== Sys2Proof/Machine/Types/Change.lean ====
section
/-! DEFINITION. The changes that commands stage (R45): plain data, applied at their effective instants. -/

namespace Sys2Proof.Machine

/-- Changes of the command protocol itself (02_command_protocol.md). -/
inductive VcpChange where
  /-- A port's routable address, VCP port and VID (R58). `family` 0 returns the port to DHCP. -/
  | address (port family prefixLen addr gateway vcpPort vid : Nat)
  /-- A session closes (R37, R57). -/
  | sessionClose (id : Nat)
  /-- A claim is released with the effect of the subject's freeing command (R56). -/
  | claimRelease (id : Nat)
  /-- An event is raised, stamped with the instant at which the change takes effect. -/
  | raise (source code data pkg : Nat)
deriving DecidableEq, Repr, Inhabited

/-- Changes of escapements and pools that commands make: a trace is armed, a peak is read and starts anew. -/
inductive SchedChange where
  | traceArm (cluster entry : Nat)
  | peakReset (die : Nat)
deriving DecidableEq, Repr, Inhabited

/-- Changes of stream contexts and targets (04_forwarding_and_layers.md) and of their keys (R125). -/
inductive FwdChange where
  | streamCreate (id : Nat) (cfg : StreamCfg)
  | streamDelete (id : Nat)
  | targetAdd (ctx num : Nat) (cfg : TargetCfg)
  | targetSelect (ctx num : Nat) (sel : LayerSel)
  | targetRemove (ctx num : Nat)
  | pin (ctx : Nat)
  | unpin (ctx : Nat)
  | policerUnbind (ctx : Nat)
  | rollIngress (ctx key : Nat)
  | rollTarget (ctx num key : Nat)
deriving DecidableEq, Repr, Inhabited

/-- Changes of key contexts, seal keys and images (05_cipher_engine.md). -/
inductive CipherChange where
  | keyInstall (id : Nat) (k : KeyCtx)
  | keyDelete (id : Nat)
  | keyLimit (id srtcp srtp : Nat)
  | keyLink (id next : Nat)
  | sealKey (pkg id enc mac : Nat)
  | exportStart (pkg : Nat) (x : Export)
  | exportResend (pkg first until_ : Nat)
  | exportDiscard (pkg : Nat)
  | importArm (pkg : Nat) (x : Import)
  | importOpen (pkg : Nat) (contents : List (Nat × List Byte))
  | importDiscard (pkg : Nat)
deriving DecidableEq, Repr, Inhabited

/-- Changes of legs, classes, policers, launch timers and sampling (06_scheduling_policing.md). -/
inductive EgressChange where
  | legSet (id : Nat) (cfg : LegCfg)
  | legDelete (id : Nat)
  | classSet (iface strict : Nat) (overhead : Int) (weights rates : List Nat) (burst : Nat)
  | policerSet (id : Nat) (cfg : PolicerCfg)
  | policerDelete (id : Nat)
  | colours (pkg : Nat) (map : List Nat)
  | timerSet (id : Nat) (cfg : TimerCfg) (fresh : Bool)
  | timerFree (id : Nat)
  | sampling (pkg interval : Nat) (legs : List Nat) (append : Bool)
deriving DecidableEq, Repr, Inhabited

/-- The fields that a CMD_ENCODE_SET sets; none keeps the value in force (Table 9.7). `fresh` holds the handles of new
surfaces where the coded size or rotation changes. -/
structure EncodePatch where
  targetKbps : Option Nat := none
  codedWidth : Option Nat := none
  codedHeight : Option Nat := none
  bufferMs : Option Nat := none
  rotation : Option Nat := none
  maxFrameBytes : Option Nat := none
  keyInterval : Option Nat := none
  ltrInterval : Option Nat := none
  qpMin : Option Nat := none
  qpMax : Option Nat := none
  fresh : Option (Nat × Nat) := none
deriving DecidableEq, Repr, Inhabited

/-- Changes of decode streams, outputs, graphics, filters and encode legs (07, 08, 09). -/
inductive VideoChange where
  | decodeCreate (id : Nat) (x : DecodeStream)
  | decodeDelete (id : Nat)
  | decodeSelect (id op outLayers : Nat) (outs : List Nat)
  | decodeResync (id : Nat)
  | outputCreate (id : Nat) (cfg : OutputCfg) (pair : Nat)
  | outputDelete (id : Nat)
  | layerSet (out num : Nat) (cfg : LayerCfg)
  | layerRemove (out num : Nat)
  | regionSet (out num : Nat) (cfg : RegionCfg)
  | regionRemove (out num : Nat)
  | graphicCreate (handle die w h : Nat)
  | graphicWrite (handle off : Nat) (data : List Byte)
  /-- `from_` is the first instant whose compositions show the new front; the packet's reply fixes it. -/
  | graphicFlip (handle : Nat) (from_ : Instant)
  | graphicDelete (handle : Nat)
  | filterLoad (die set first : Nat) (phases : List FilterPhase)
  | encodeCreate (id : Nat) (x : EncodeLeg)
  | encodeDelete (id : Nat)
  | encodeSet (id : Nat) (p : EncodePatch)
  | encodeKey (id : Nat)
  | encodeRecovery (id : Nat)
deriving DecidableEq, Repr, Inhabited

/-- The fields that a CMD_AUDIO_SET sets (Table 10.7). -/
structure AudioPatch where
  flags : Option Nat := none
  bandwidth : Option Nat := none
  lossPct : Option Nat := none
  bitrate : Option Nat := none
  jbTarget : Option Nat := none
  vadThreshold : Option Int := none
  resync : Bool := false
deriving DecidableEq, Repr, Inhabited

/-- The value that CMD_AUDIO_STAGE sets in one path. -/
inductive StageValue where
  | eq (sections : List Biquad)
  | ns (depth : Nat)
  | agc (target : Int) (maxGain : Nat)
deriving DecidableEq, Repr, Inhabited

/-- Changes of audio legs, crosspoints, talker groups and beacons (10, 11, 12). -/
inductive AudioChange where
  | legCreate (id : Nat) (x : AudioLeg)
  | legDelete (id : Nat)
  | legSet (id : Nat) (p : AudioPatch)
  | stageSet (id : Nat) (send : Bool) (v : StageValue)
  | stageRemove (id : Nat) (send : Bool) (stage : Nat)
  | steer (id kb kj : Nat)
  | beacon (id : Nat) (cfg : BeaconCfg)
  | node (die inPort outPort : Nat) (gain : Int) (ramp : Nat) (remove delay1 : Bool)
  | tieConnect (t : TieLine)
  | tieFree (srcDie srcPort : Nat)
  | groupSet (die num : Nat) (g : TalkerGroup)
  | groupDelete (die num : Nat)
  | memberAdd (die num port : Nat) (pinned : Bool)
  | memberRemove (die num port : Nat)
deriving DecidableEq, Repr, Inhabited

/-- Changes of memory: allocated buffers (R310), the highest count of postponed refreshes that a read starts anew (Table 14.10),
audits ordered by command. -/
inductive MemChange where
  | alloc (handle size quad : Nat)
  | free (handle : Nat)
  | postponedReset (stack : Nat)
  | audit (site books : Nat)
  /-- Errors that a read has met: addresses of the words, 1 single and 2 double. -/
  | readErrors (stack : Nat) (errors : Tab Nat)
deriving DecidableEq, Repr, Inhabited

/-- Changes of subscriptions (R355, R362). -/
inductive EventChange where
  | subscribe (num session flags flushMs maxPps mask : Nat)
  | cancel (session : Nat)
deriving DecidableEq, Repr, Inhabited

/-- Changes of the timebase, of PTP, TIME IN and TIME OUT (13_time_and_ptp.md). -/
inductive TimeChange where
  | ptpClock (cfg : PtpClockCfg)
  | ptpPort (port : Nat) (cfg : PtpPortCfg)
  | regulator (cfg : RegCfg)
  | forceHoldover
  | releaseHoldover
  /-- The counter reads `time` at the effective instant. -/
  | timeSet (time utc : Nat)
  | timeIn (mode : Nat) (traceable : Bool) (delay : Int)
  | timeOut (cfg : TimeOutCfg) (fresh : Bool)
  | timeOutFree
deriving DecidableEq, Repr, Inhabited

/-- Changes of ports, lanes and optics (15_ports_and_lanes.md). Lanes are named by site. -/
inductive PortChange where
  | mode (port : Nat) (cfg : PortCfg)
  | quiet (site : Nat) (tx rx quiet : Bool)
  | testEnd (site : Nat)
  | loopback (site kind : Nat)
  | prbs (site pattern : Nat)
  | slip (site symbols : Nat)
  | txFfe (site : Nat) (taps : List Int)
  | freeze (site : Nat) (frozen : Bool)
  | cmisWrite (port bank page off : Nat) (data : List Byte)
deriving DecidableEq, Repr, Inhabited

/-- Changes of start, test, OTP, firmware and trust (17_start_test_security.md). -/
inductive StartChange where
  | restart (clear : Bool)
  | recover (die : Nat)
  | firmwareWrite (off : Nat) (data : List Byte)
  | firmwareCommit (slot : Nat)
  | otpSettings (s : Settings)
  | otpRepairs
  | bist (site : Nat) (enable : Bool)
  | testStart (die : Nat)
  | testAbort (die : Nat)
  | fence (die : Nat)
  | unlock
deriving DecidableEq, Repr, Inhabited

/-- Where a change takes effect (R45). The scopes that name an object are those whose rule ties the change to the object's
next task: it is taken by the first task whose beat is at or after the change's first beat. -/
inductive Scope where
  /-- At the effective instant itself. -/
  | instant
  /-- By a compose output's first composition (R196). -/
  | composition (output : Nat)
  /-- By an encode leg's first encode (R215). -/
  | encoding (leg : Nat)
  /-- By an audio leg's first task (R239). -/
  | audioTask (leg : Nat)
  /-- By a die's first mix (R249). -/
  | mixing (die : Nat)
  /-- After the packet's reply has been sent, whatever its effective instant (R57, R58). -/
  | afterReply
  /-- At the effective instant, and not before the packet's reply has left the module (R335, R384, R387). -/
  | afterSent
deriving DecidableEq, Repr, Inhabited

/-- One change, by the chapter that owns it. -/
inductive Change where
  | vcp (c : VcpChange)
  | sched (c : SchedChange)
  | egress (c : EgressChange)
  | fwd (c : FwdChange)
  | cipher (c : CipherChange)
  | video (c : VideoChange)
  | audio (c : AudioChange)
  | mem (c : MemChange)
  | event (c : EventChange)
  | time (c : TimeChange)
  | port (c : PortChange)
  | start (c : StartChange)
deriving DecidableEq, Repr, Inhabited

/-- A change of a packet that has run but has not yet taken effect. `eff` is none until the packet's reply fixes its
effective instant (R45); `beat` is then the instant at or after which a beat takes the change. -/
structure Staged where
  session : Nat
  seq : Nat
  eff : Option Instant := none
  beat : Instant := 0
  scope : Scope
  change : Change
deriving DecidableEq, Repr, Inhabited

end Sys2Proof.Machine
end

