-- ==== Sys2Proof/Machine/State.lean ====
section
/-! DEFINITION. The state of the block: plain data, holding every piece of state the spec gives the module.
Values at reset are a DESIGN CHOICE (log entry 3). -/

namespace Sys2Proof.Machine

/-- The state of the module. -/
structure State where
  /-- Commands that wait, first in, first out. -/
  pending : List Instr := []
  /-- The module timebase (R6, R282), in 2^-16 ns from TAI 0. -/
  now : Instant := 0
  /-- Changes that have been made but have not yet taken effect (R45, R65), in the order in which they were made. -/
  staged : List Staged := []
  vcp : VcpState := {}
  role : RoleState := {}
  /-- Escapements, by cluster number. -/
  escs : Tab Escapement := []
  /-- Task pools, by media die. -/
  pools : Tab Pool := []
  fwd : FwdState := {}
  cipher : CipherState := {}
  egress : EgressState := {}
  video : VideoState := {}
  audio : AudioState := {}
  time : TimeState := {}
  mem : MemState := {}
  ports : PortsState := {}
  events : EventState := {}
  start : StartState := {}
  power : PowerState := {}
deriving DecidableEq, Repr, Inhabited

/-- Faults: none. The spec gives every command of the table an effect in every state, so no step ends in a fault. -/
inductive Fault where
deriving DecidableEq, Repr

/-- Refusals. -/
inductive Refusal where
  /-- Raised by an arm of `exec` whose command has no meaning yet; safe, since nothing is claimed about it. -/
  | notModelled (mnemonic : String)
deriving DecidableEq, Repr

/-- What the factory writes into both OTP blocks: settings generation 1 (R378). -/
def OtpBlock.factory : OtpBlock :=
  { settings := [(1, { minFirmware := Config.factoryFloor, keys := Config.factoryKeys })] }

/-- What the factory writes into both firmware stores: an image in slot 0, which is preferred. -/
def FirmwareStore.factory : FirmwareStore := { slot0 := { factory := true } }

/-- The module right after reset: mains absent, every table empty, every counter zero (R363: state begins with mains). Only OTP and the
firmware store hold something, which the factory has written. -/
def State.reset : State :=
  { start := { otp0 := .factory, otp1 := .factory, fw0 := .factory, fw1 := .factory } }

end Sys2Proof.Machine
end

