-- ==== Sys2Proof/Machine/Tab.lean ====
section
/-! DEFINITION. Small tables of numbered objects: lists of pairs with strictly rising numbers, one canonical form. -/

namespace Sys2Proof.Machine

/-- The object numbered k, if the table lists one. -/
def Tab.find {α : Type} : Tab α → Nat → Option α
  | [], _ => none
  | (j, a) :: t, k => if j = k then some a else Tab.find t k

/-- Whether the table lists k. -/
def Tab.has {α : Type} (t : Tab α) (k : Nat) : Bool := (Tab.find t k).isSome

/-- The object numbered k, or d where none is listed. -/
def Tab.getD {α : Type} (t : Tab α) (k : Nat) (d : α) : α := (Tab.find t k).getD d

/-- Put a at number k, keeping the numbers in rising order. -/
def Tab.put {α : Type} : Tab α → Nat → α → Tab α
  | [], k, a => [(k, a)]
  | (j, b) :: t, k, a =>
    if k < j then (k, a) :: (j, b) :: t
    else if k = j then (k, a) :: t
    else (j, b) :: Tab.put t k a

/-- Remove number k. -/
def Tab.del {α : Type} (t : Tab α) (k : Nat) : Tab α := t.filter (fun p => p.1 != k)

/-- Change the object numbered k, if it is listed. -/
def Tab.modify {α : Type} (t : Tab α) (k : Nat) (f : α → α) : Tab α :=
  t.map (fun p => if p.1 = k then (p.1, f p.2) else p)

/-- Change the object numbered k, taking d for it where none is listed. -/
def Tab.update {α : Type} (t : Tab α) (k : Nat) (d : α) (f : α → α) : Tab α := t.put k (f (t.getD k d))

/-- Change every object. -/
def Tab.mapVals {α : Type} (t : Tab α) (f : Nat → α → α) : Tab α := t.map (fun p => (p.1, f p.1 p.2))

/-- The numbers listed, in rising order. -/
def Tab.keys {α : Type} (t : Tab α) : List Nat := t.map (·.1)

/-- The objects listed, in rising order of number. -/
def Tab.vals {α : Type} (t : Tab α) : List α := t.map (·.2)

/-- The canonical form: strictly rising numbers. -/
def Tab.wf {α : Type} : Tab α → Bool
  | [] => true
  | [_] => true
  | p :: q :: t => decide (p.1 < q.1) && Tab.wf (q :: t)

/-- The lowest number from `base` on that is not in the list (R403); the list need not be sorted. -/
def lowestFree (used : List Nat) (base : Nat) : Nat :=
  ((List.range (used.length + 1)).map (· + base)).find? (fun k => !used.contains k) |>.getD base

/-- The first failing check of a list, in order (R68). -/
def firstFail {ε : Type} : List (Bool × ε) → Option ε
  | [] => none
  | (bad, e) :: t => if bad then some e else firstFail t

end Sys2Proof.Machine
end

