-- ==== Sys2Proof/Machine/Ops.lean ====
section
/-! DEFINITION. Named operations over the state that every family shares: time, service state, events, claims. -/

namespace Sys2Proof.Machine

abbrev Out := Host.Outcome State Fault Refusal

/-- Time passes before a command (log entry 2): the timebase and the supervisor island's balance clock advance by dt
while mains is present. -/
def State.advance (s : State) (dt : Nat) : State :=
  match s.start.run with
  | .off => s
  | _ => { s with now := s.now + dt, start := { s.start with balance := s.start.balance + dt } }

/-- The module is in service or in setting mode. -/
def State.live (s : State) : Bool :=
  match s.start.run with
  | .service => true
  | .setting => true
  | _ => false

/-- The module is in service. -/
def State.serving (s : State) : Bool := s.start.run == .service
/-- The module is in setting mode. -/
def State.inSetting (s : State) : Bool := s.start.run == .setting

/-- Control firmware runs, so records that are raised are merged: in service, in setting mode, and while a start is under way. -/
def State.merging (s : State) : Bool :=
  match s.start.run with
  | .starting _ => true
  | _ => s.live

/-- The inter-package link carries transfers (R342: with either direction down none that crosses it is ever delivered). -/
def State.iplCarries (s : State) : Bool := !s.ports.ipl0.down && !s.ports.ipl1.down

/-- A transfer between two packages is delivered. -/
def State.linked (s : State) (p q : Nat) : Bool := p == q || s.iplCarries

/-- A package takes part in service (R14, R18). -/
def State.pkgUp (s : State) (p : Nat) : Bool := if p = 0 then s.role.up0 else if p = 1 then s.role.up1 else false

/-- A media die's service record. -/
def State.die (s : State) (d : Nat) : DieState := s.start.dies.getD d {}

/-- A media die is fenced; it returns to service at the audio beat fixed for it (R372). -/
def State.dieFenced (s : State) (d : Nat) : Bool :=
  (s.die d).fenced && !(match (s.die d).restoreAt with | some t => decide (t ≤ s.now) | none => false)

/-- A media die is in service: its package is, and it is not fenced. -/
def State.dieUp (s : State) (d : Nat) : Bool := s.pkgUp (pkgOfDie d) && !s.dieFenced d

/-- A media die is in service at an instant t from now on, as far as is settled: a die that returns at a beat is issued the work of that
beat and its trigger before it (R63, R302, R372). -/
def State.dieUpBy (s : State) (d : Nat) (t : Instant) : Bool :=
  s.dieUp d || (s.pkgUp (pkgOfDie d) && (match (s.die d).restoreAt with | some u => decide (u ≤ t) | none => false))

/-- An existing site is in service (R52: otherwise SITE_FENCED). The OTP block and the supervisor island of a package keep
running when the package has left media service (R18), but commands that name its sites are refused. -/
def State.siteUp (s : State) (c : Nat) : Bool :=
  match siteMediaDie c with
  | some d => s.dieUp d
  | none =>
    match sitePkg c with
    | some p => s.pkgUp p
    | none => true

/-- The two site checks of step 2 of R68: the code names an element of an accepted kind, and it is in service. -/
def State.siteChecks (s : State) (c : Nat) (accepted : Bool) (off : Nat) : List (Bool × Err) :=
  [(!(siteExists c && accepted), badSite .badSite off c), (!s.siteUp c, badSite .siteFenced off c)]

/-- A whole module value restricted to one port, 0 or 1. -/
def PortsState.port (p : PortsState) (i : Nat) : Port := if i = 0 then p.portA else p.portB
def PortsState.setPort (p : PortsState) (i : Nat) (x : Port) : PortsState :=
  if i = 0 then { p with portA := x } else { p with portB := x }
def VcpState.addr (v : VcpState) (i : Nat) : PortAddr := if i = 0 then v.addrA else v.addrB
def VcpState.setAddr (v : VcpState) (i : Nat) (x : PortAddr) : VcpState :=
  if i = 0 then { v with addrA := x } else { v with addrB := x }

/- Events (R350, R351). -/

/-- Event data: value v in bits lo + w − 1 to lo, saturating at the field's maximum (R350). -/
def dBits (lo w v : Nat) : Nat := sat w v * 2 ^ lo

/-- Event data of a signed value, two's complement, saturating. -/
def dInt (lo w : Nat) (v : Int) : Nat := (satI w v % (2 ^ w : Nat)).toNat * 2 ^ lo

/-- Event data of a code that identifies something: it is not a count, and its low w bits are taken. -/
def dCode (lo w v : Nat) : Nat := v % 2 ^ w * 2 ^ lo

/-- Raise an event stamped t (R351: the record sets off to the merger). -/
def State.raiseAt (s : State) (t : Instant) (source code data : Nat) (pkg : Nat := 0) : State :=
  { s with events := { s.events with
      raised := s.events.raised ++ [{ stamp := t, source := source, code := code, data := BitVec.ofNat 120 data, pkg := pkg }] } }

/-- Raise an event stamped with the present instant. -/
def State.raise (s : State) (source code data : Nat) (pkg : Nat := 0) : State := s.raiseAt s.now source code data pkg

/-- Raise an event where the condition holds. -/
def State.raiseIf (s : State) (c : Bool) (source code data : Nat) (pkg : Nat := 0) : State :=
  if c then s.raise source code data pkg else s

/-- A happening of an event that fires at most once per interval: the count to report if it fires now, and the limiter. -/
def Limiter.hit (l : Limiter) (now interval : Instant) : Option Nat × Limiter :=
  let due := match l.last with
    | none => true
    | some t => decide (t + interval ≤ now)
  if due then (some (l.pending + 1), { l with last := some now, pending := 0 })
  else (none, { l with pending := l.pending + 1 })

/- Claims (R55, R56, R399). -/

/-- The holder that a claimant of an occupied resource is told of (R51, R55). -/
def State.heldErr (s : State) (c : Claim) (site off : Nat) : Err :=
  let holder := if c.session = 0 then 0
    else if (s.vcp.sessions.any (fun x => x.id == c.session && x.expired.isNone)) then c.session else 0xFFFFFFFF
  { status := .resourceHeld, off := off, site := site, holderClaim := c.id, holderSession := holder,
    holderOpcode := c.opcode }

/-- The claim that holds a resource. -/
def VcpState.holder (v : VcpState) (r : Resource) : Option Claim := v.claims.find? (fun c => c.res == r)

/-- The change that releases the claim on a resource (R56). It names the claim, so a later claim on the same resource stays. -/
def VcpState.release (v : VcpState) (r : Resource) : List (Scope × Change) :=
  match v.holder r with
  | some c => [(.instant, .vcp (.claimRelease c.id))]
  | none => []

/-- Take a claim; the identifier rises and is never reused before the next start (R55). -/
def State.takeClaim (s : State) (site session opcode : Nat) (res : Resource) : State :=
  { s with vcp := { s.vcp with
      claims := s.vcp.claims ++ [{ id := s.vcp.nextClaim, site := site, session := session, opcode := opcode,
                                   taken := s.now, res := res }],
      nextClaim := s.vcp.nextClaim + 1 } }

/-- Drop a claim. -/
def State.dropClaim (s : State) (id : Nat) : State :=
  { s with vcp := { s.vcp with claims := s.vcp.claims.filter (fun c => c.id != id) } }

/-- An unspecified draw (module_random, iv, keys): the next number of the module's random source. -/
def State.draw (s : State) : Nat × State :=
  (s.vcp.draws, { s with vcp := { s.vcp with draws := s.vcp.draws + 1 } })

end Sys2Proof.Machine
end

