-- ==== Sys2Proof/Machine/EgressOps.lean ====
section
/-! DEFINITION. Operations of the egress scheduler: interfaces, the packet buffer, buckets, leg queues, changes.
Corners of egress: DEDUCED (log entry 28). -/

namespace Sys2Proof.Machine

/- Interfaces (R330). -/

/-- Interfaces of a port mode (Table 15.1). -/
def modeIfaces (mode : Nat) : Nat := match mode with | 1 => 1 | 2 => 2 | 3 => 8 | _ => 0

/-- The mode's interfaces of a port; while interface 0 runs on L0 alone it is the only one (R332). -/
def Port.ifaceCount (p : Port) : Nat := if p.single then 1 else modeIfaces p.mode

/-- rate_if of a port's interfaces in bit/ns (Table 15.1); 0 before a mode is in force. -/
def Port.rateIf (p : Port) : Nat :=
  if p.single then 100 else match p.mode with | 1 => 800 | 2 => 400 | 3 => 100 | _ => 0

/-- The port's mode has interface i. -/
def Port.hasIface (p : Port) (i : Nat) : Bool := decide (i < p.ifaceCount)

/-- Interface i of a port. -/
def Port.iface (p : Port) (i : Nat) : Iface := p.ifaces.getD i {}

/-- The interface is up (R334). -/
def Port.ifaceUp (p : Port) (i : Nat) : Bool := p.hasIface i && (p.iface i).stage == 7

def State.port (s : State) (p : Nat) : Port := s.ports.port p

/-- Change one interface's record. -/
def State.modIface (s : State) (p i : Nat) (f : Iface → Iface) : State :=
  { s with ports := s.ports.setPort p { s.port p with ifaces := (s.port p).ifaces.update i {} f } }

/-- Interface number in the egress tables: 8 × port + interface. -/
def ifNo (port iface : Nat) : Nat := 8 * port + iface

def EgressState.iface (e : EgressState) (n : Nat) : EgIface := e.ifaces.getD n {}
def State.setEgIface (s : State) (n : Nat) (x : EgIface) : State :=
  { s with egress := { s.egress with ifaces := s.egress.ifaces.put n x } }

/-- One traffic class of an interface. -/
def EgIface.cls (i : EgIface) (c : Nat) : ClassState := i.classes.getD c {}

/-- The port's routable address of a family; 0 while it has none (R29). -/
def State.routable (s : State) (port family : Nat) : Nat :=
  let a := s.vcp.addr port
  if a.family = family then a.addr else 0

/- The packet buffer (R139). -/

/-- Cells that a copy occupies. -/
def cellsOf (len : Nat) : Nat := ceilDiv len 256
def bufferCells : Nat := 196608
def reserveCells : Nat := 4096

def EgressState.cells (e : EgressState) (p : Nat) : Nat := if p = 0 then e.cells0 else e.cells1
def EgressState.setCells (e : EgressState) (p n : Nat) : EgressState :=
  if p = 0 then { e with cells0 := n } else { e with cells1 := n }

/- Buckets (R140, R141), in µbit. -/

/-- Credit of a byte count in µbit. -/
def ubit (bytes : Int) : Int := bytes * 8000000

/-- A bucket brought to the instant t. -/
def Bucket.at (b : Bucket) (rate burst : Nat) (empty : Bool) (t : Instant) : Bucket :=
  let grown := b.level + (rate : Int) * ((nsOf t : Int) - (nsOf b.last : Int))
  { level := min grown (if empty then 0 else ubit burst), last := t }

/-- A send debits the frame's length and the interface's overhead. -/
def Bucket.debit (b : Bucket) (len : Nat) (overhead : Int) : Bucket := { b with level := b.level - ubit (len + overhead) }

/-- The value of a rate field that means unshaped, or no class bucket. -/
def noRate : Nat := 0xFFFFFFFF

def Leg.shaped (l : Leg) : Bool := !l.cfg.timed && l.cfg.rate != noRate

/-- The leg's bucket at t. -/
def Leg.bucketAt (l : Leg) (t : Instant) : Bucket :=
  if l.shaped then l.bucket.at l.cfg.rate l.cfg.burst l.queue.isEmpty t else { level := 0, last := t }

/-- Legs of an interface and class. -/
def EgressState.legsOf (e : EgressState) (port iface cls : Nat) : List (Nat × Leg) :=
  e.legs.filter (fun p => p.2.cfg.port == port && p.2.cfg.iface == iface && p.2.cfg.cls == cls)

/-- No leg of the class holds a copy. The internal leg belongs to class 7. -/
def EgressState.classEmpty (e : EgressState) (port iface cls : Nat) : Bool :=
  (e.legsOf port iface cls).all (fun p => p.2.queue.isEmpty) &&
  (cls != 7 || (e.iface (ifNo port iface)).internal.isEmpty)

/-- The class bucket at t. -/
def EgressState.classBucketAt (e : EgressState) (port iface cls : Nat) (t : Instant) : Bucket :=
  let x := e.iface (ifNo port iface)
  let c := x.cls cls
  if c.rate == noRate then { level := 0, last := t }
  else c.bucket.at c.rate x.classBurst (e.classEmpty port iface cls) t

/-- Before a class becomes non-empty its bucket is brought to the instant t (R140, R141). -/
def EgressState.wakeClass (e : EgressState) (port iface cls : Nat) (t : Instant) : EgressState :=
  let x := e.iface (ifNo port iface)
  let b := e.classBucketAt port iface cls t
  { e with ifaces := e.ifaces.put (ifNo port iface) { x with classes := x.classes.put cls { x.cls cls with bucket := b } } }

/- The internal leg (R135, R139). -/

/-- Interface records of a port whose internal leg has frames that wait for cells. -/
def EgressState.waitingOf (e : EgressState) (port : Nat) : List (Nat × EgIface) :=
  e.ifaces.filter (fun p => p.1 / 8 == port && !p.2.waiting.isEmpty)

/-- The module's own producers on a port wait with a frame that waits for cells (R139). -/
def State.producerWaits (s : State) (port : Nat) : Bool := !(s.egress.waitingOf port).isEmpty

/-- Put a frame on an internal leg whose frame has cells. -/
def EgressState.putInternal (e : EgressState) (port iface : Nat) (c : Copy) (t : Instant) : EgressState :=
  let e1 := e.wakeClass port iface 7 t
  let n := ifNo port iface
  let x := e1.iface n
  ({ e1 with ifaces := e1.ifaces.put n { x with internal := x.internal ++ [c] } }).setCells port (e.cells port + cellsOf c.len)

/-- Put a frame on the internal leg of an interface (R135, R139): discarded and counted under tx_down when the port's
mode lacks the interface, waiting at its producer while the buffer has no free cell for it, else queued. -/
def State.sendInternal (s : State) (port iface : Nat) (c : Copy) : State :=
  if !(s.port port).hasIface iface then
    s.modIface port iface (fun i => { i with txDown := i.txDown + 1 })
  else
    let n := ifNo port iface
    if !s.producerWaits port && decide (s.egress.cells port + cellsOf c.len ≤ bufferCells) then
      { s with egress := s.egress.putInternal port iface c s.now }
    else
      let x := s.egress.iface n
      s.setEgIface n { x with waiting := x.waiting ++ [c] }

/-- The interface of the IO die whose waiting frame is the oldest. -/
def oldestWaiting : List (Nat × EgIface) → Option (Nat × EgIface)
  | [] => none
  | p :: ps =>
    let at_ := fun (q : Nat × EgIface) => (q.2.waiting.head?.map (·.enq)).getD 0
    match oldestWaiting ps with
    | none => some p
    | some q => if at_ q < at_ p then some q else some p

/-- Let the internal frames of an IO die that wait for cells in, the oldest first, while there is room (on fuel). -/
def EgressState.admitWaiting (e : EgressState) (port : Nat) (t : Instant) : Nat → EgressState
  | 0 => e
  | f + 1 =>
    match oldestWaiting (e.waitingOf port) with
    | none => e
    | some (n, x) =>
      match x.waiting with
      | [] => e
      | c :: rest =>
        if decide (e.cells port + cellsOf c.len ≤ bufferCells) then
          EgressState.admitWaiting
            (({ e with ifaces := e.ifaces.put n { x with waiting := rest } }).putInternal port (n % 8) c t) port t f
        else e

/- Leg queues (R139). -/

def legPkg (leg : Nat) : Nat := leg / 2 ^ 18

/-- The pseudo-leg that carries a migration export's segments in its traffic class (R131). -/
def exportLegNo (pkg : Nat) : Nat := 2 ^ 33 + pkg

/-- Where the copies of a deleted leg drain. -/
def drainNo (leg : Nat) : Nat := 2 ^ 32 + leg

def Leg.depth (l : Leg) : Nat := sumN (l.queue.map (·.len))

def EgressState.leg (e : EgressState) (id : Nat) : Leg := e.legs.getD id {}
def State.setLeg (s : State) (id : Nat) (l : Leg) : State :=
  { s with egress := { s.egress with legs := s.egress.legs.put id l } }

/-- QUEUE_DROP of a leg (R152): depth drops and buffer drops since the previous event, at most once a second. -/
def State.queueDrop (s : State) (id : Nat) (depth : Bool) : State :=
  let l := s.egress.leg id
  let lim := l.dropEvent
  let d := lim.pending + b2n depth
  let b := lim.aux + b2n (!depth)
  let due := match lim.last with
    | none => true
    | some t => decide (t + sec 1 ≤ s.now)
  if due then
    (s.setLeg id { l with dropEvent := { last := some s.now, pending := 0, aux := 0 } }).raise (76 + l.cfg.port) 0x0002
      (dCode 88 32 id + dBits 56 32 d + dBits 24 32 b) l.cfg.port
  else s.setLeg id { l with dropEvent := { lim with pending := d, aux := b } }

/-- WINDOW_REFUSED of a leg (R152), with the longest length refused. -/
def State.windowRefusal (s : State) (id len : Nat) : State :=
  let l := s.egress.leg id
  let (fire, lim) := l.refusedEvent.hit s.now (sec 1)
  let longest := max lim.aux len
  match fire with
  | some n =>
    (s.setLeg id { l with refusedEvent := { lim with aux := 0 } }).raise (76 + l.cfg.port) 0x0003
      (dCode 88 32 id + dBits 56 32 n + dBits 40 16 longest) l.cfg.port
  | none => s.setLeg id { l with refusedEvent := { lim with aux := longest } }

/- Launch timers (R145 to R147). -/

/-- The packet cluster's site of a timer identifier. -/
def timerSite (t : Nat) : Nat := pcSite (t / 512) (t / 64 % 8)

/-- The window of a timer that is open at, or opens first after, the instant t: its opening instant. -/
def TimerCfg.openAfter (c : TimerCfg) (t : Instant) : Instant :=
  -- the first chosen beat b with b + offset + length > t
  let from_ := t + 1 - ns (c.offset + c.length)
  let i0 := c.grid.indexAtOrAfter from_
  let i := i0 + (c.phase + c.period - i0 % c.period) % c.period
  c.grid.beatAt i + ns c.offset

/-- The opening of the first window at or after t. -/
def TimerCfg.openFrom (c : TimerCfg) (t : Instant) : Instant :=
  let i0 := c.grid.indexAtOrAfter (t - ns c.offset)
  let i := i0 + (c.phase + c.period - i0 % c.period) % c.period
  c.grid.beatAt i + ns c.offset

def TimerCfg.close (c : TimerCfg) (open_ : Instant) : Instant := open_ + ns c.length

/-- The window of a timer that is open at t, or opens first after it: the parameters that govern it, its opening and its closing. New
parameters apply from the first window that opens at or after their effective instant; a window opened before it keeps the old ones (R151). -/
def Timer.windowOf (x : Timer) (t : Instant) : TimerCfg × Instant × Instant :=
  let o := x.cfg.openAfter t
  let new := if x.cfgFrom ≤ o then o else x.cfg.openFrom x.cfgFrom
  match x.old with
  | none => (x.cfg, new, x.cfg.close new)
  | some c =>
    let o' := c.openAfter t
    if o' < x.cfgFrom ∧ o' < new then (c, o', c.close o') else (x.cfg, new, x.cfg.close new)

def Timer.window (x : Timer) (t : Instant) : Instant × Instant := (x.windowOf t).2

/-- The guarded windows of an interface that a frame from t on could meet, but for the windows of timer `own`: of each timer the one that is
open at t or opens next, and the one after it. -/
def EgressState.guarded (e : EgressState) (port iface : Nat) (own : Option Nat) (t : Instant) : List (Instant × Instant) :=
  let of := fun (w : TimerCfg × Instant × Instant) => if w.1.guard && w.1.port == port && w.1.iface == iface then [w.2] else []
  (e.timers.map (fun p =>
    if own == some p.1 then []
    else let w := p.2.windowOf t; of w ++ of (p.2.windowOf w.2.2))).flatten

/-- The shortest beat interval of a grid in ns (R146). -/
def minInterval (g : Grid) : Nat := match g with | .audio => 2500000 | .video f => 1000000000 / f

/-- Every window of one TAI second, in ns from the second: opening and closing (R147). -/
def TimerCfg.windows (c : TimerCfg) : List (Nat × Nat) :=
  ((List.range c.grid.rate).filter (fun i => i % c.period == c.phase)).map (fun i =>
    let o := nsOf (c.grid.beatAt i) + c.offset
    (o, o + c.length))

/-- Two timers' windows overlap somewhere in a second. -/
def TimerCfg.overlaps (a b : TimerCfg) : Bool :=
  a.windows.any (fun x => b.windows.any (fun y => decide (x.1 < y.2 ∧ y.1 < x.2)))

/-- Time a frame occupies an interface: its length plus preamble and inter-frame gap (20 bytes), in 2^-16 ns. -/
def wireTime (rateIf len : Nat) : Instant := if rateIf = 0 then 0 else (len + 20) * 8 * 65536 / rateIf

/-- MAC cycle of 0.8 ns (1.25 GHz), at whose boundaries a frame's first bit passes (R146, R303). -/
def macCycleAtOrAfter (t : Instant) : Instant := ceilDiv (t * 5) 262144 * 262144 / 5

/-- The fit rule of R146 for a timed leg's head copy at t: the window is open and t_first + tx ≤ close, where t_first is the first MAC cycle
boundary from now_first (`nf`) and the opening on, and tx is the length with the interface's overhead at rate_if, exactly. -/
def fits (x : Timer) (rateIf len : Nat) (overhead : Int) (t nf : Instant) : Bool :=
  let (o, close) := x.window t
  let first := macCycleAtOrAfter (max nf o)
  decide (o ≤ t) && decide (((first : Int) - (close : Int)) * (rateIf : Int) + ((len : Int) + overhead) * 8 * 65536 ≤ 0)

/-- The earliest instant at which a queued copy's first bit could leave the interface (now_first of R146): a frame in transmission goes first. -/
def State.nowFirst (s : State) (port iface : Nat) : Instant :=
  let x := s.egress.iface (ifNo port iface)
  let busy := x.cuts.filter (fun c => decide (c.start ≤ s.now))
  maxN (s.now :: ((match x.tx with | some f => [f.until_] | none => []) ++ busy.map (·.until_)))

/-- The head copy of a timed leg does not fit the window that is open now: the window's opening, once for each window (R146). -/
def State.missOf (s : State) (l : Leg) : Option Instant :=
  match l.queue, s.egress.timers.find l.cfg.timer with
  | c :: _, some tm =>
    let o := (tm.window s.now).1
    let x := s.egress.iface (ifNo l.cfg.port l.cfg.iface)
    let nf := s.nowFirst l.cfg.port l.cfg.iface
    if decide (o ≤ s.now) && c.hold.isNone && !fits tm (s.port l.cfg.port).rateIf c.len x.overhead s.now nf && l.missedWindow != some o then some o
    else none
  | _, _ => none

/-- WINDOW_MISS (R146, R152) for each timed leg of the interface whose head copy does not fit the window that is open now. -/
def State.noteMisses (s : State) (port iface : Nat) : State :=
  s.egress.legs.foldl (fun t p =>
    let l := p.2
    if !(l.cfg.timed && l.cfg.port == port && l.cfg.iface == iface) then t
    else match t.missOf l, t.egress.timers.find l.cfg.timer with
      | some o, some tm =>
        let (fire, lim) := tm.missEvent.hit t.now (sec 1)
        let t1 := t.setLeg p.1 { l with missedWindow := some o, windowMisses := l.windowMisses + 1 }
        let tm1 := { tm with misses := tm.misses + 1, missEvent := lim }
        let t2 := { t1 with egress := { t1.egress with timers := t1.egress.timers.put l.cfg.timer tm1 } }
        match fire with
        | some n => t2.raise (76 + port) 0x0001 (dCode 88 32 l.cfg.timer + dCode 56 32 p.1 + dBits 24 32 n) port
        | none => t2
      | _, _ => t) s

/- Enqueueing (R139). -/

/-- Enqueue a copy in a leg queue (R139): the state, and whether the copy was enqueued. A refused copy is counted under its
leg. A leg that does not exist refuses every copy without a count. -/
def State.enqueue (s : State) (id : Nat) (c : Copy) : State × Bool :=
  match s.egress.legs.find id with
  | none => (s, false)
  | some l =>
    let p := l.cfg.port
    if l.cfg.maxDepth < l.depth + c.len then
      ((s.setLeg id { l with depthDrops := l.depthDrops + 1 }).queueDrop id true, false)
    else if bufferCells - reserveCells < s.egress.cells p + cellsOf c.len then
      ((s.setLeg id { l with bufferDrops := l.bufferDrops + 1 }).queueDrop id false, false)
    else if l.cfg.timed && decide (l.cfg.maxFrame < c.len) then
      ((s.setLeg id { l with windowRefused := l.windowRefused + 1 }).windowRefusal id c.len, false)
    else
      -- the bucket of an empty queue is brought to now before the queue becomes active (R140)
      let l' := { l with bucket := l.bucketAt s.now, queue := l.queue ++ [{ c with enq := s.now }], enqueued := l.enqueued + 1 }
      let e := s.egress.wakeClass l.cfg.port l.cfg.iface l.cfg.cls s.now
      let t : State := { s with egress := ({ e with legs := s.egress.legs.put id l' }).setCells p (s.egress.cells p + cellsOf c.len) }
      (if l.cfg.timed && l.queue.isEmpty then t.noteMisses l.cfg.port l.cfg.iface else t, true)

/- Changes (R150, R151). -/

/-- Clamp a policer's buckets to new sizes, keeping their content (R150); the meter keeps the mode given at creation (R143). -/
def Policer.resize (p : Policer) (cfg : PolicerCfg) : Policer :=
  { p with cfg := { cfg with mode := p.cfg.mode }, c := min p.c (ubit cfg.cbs), e := min p.e (ubit cfg.ebsOrPbs) }

/-- A new policer: every bucket full (R143). -/
def Policer.fresh (cfg : PolicerCfg) (t : Instant) : Policer :=
  { cfg := cfg, c := ubit cfg.cbs, e := ubit cfg.ebsOrPbs, last := t }

/-- A policer's buckets brought to the instant t (R143): srTCM fills the first and overflows to the second; trTCM fills each
at its own rate. -/
def Policer.at (p : Policer) (t : Instant) : Policer :=
  let dt : Int := (nsOf t : Int) - (nsOf p.last : Int)
  if p.cfg.mode < 2 then
    let grown := p.c + (p.cfg.cir : Int) * dt
    let c := min grown (ubit p.cfg.cbs)
    { p with c := c, e := min (p.e + (grown - c)) (ubit p.cfg.ebsOrPbs), last := t }
  else
    { p with c := min (p.c + (p.cfg.cir : Int) * dt) (ubit p.cfg.cbs),
             e := min (p.e + (p.cfg.pir : Int) * dt) (ubit p.cfg.ebsOrPbs), last := t }

def applyEgress (c : EgressChange) (s : State) : State :=
  match c with
  | .legSet id cfg =>
    let e := s.egress
    match e.legs.find id with
    | some l =>
      let t : State := if l.queue.isEmpty then s else { s with egress := e.wakeClass cfg.port cfg.iface cfg.cls s.now }
      t.setLeg id { l with bucket := l.bucketAt s.now, cfg := cfg }
    | none => s.setLeg id { cfg := cfg, bucket := { level := 0, last := s.now } }
  | .legDelete id =>
    -- copies that are queued still leave (R139): they drain under a number outside the identifiers
    let l := s.egress.leg id
    let rest := s.egress.legs.del id
    if l.queue.isEmpty then { s with egress := { s.egress with legs := rest } }
    else
      let d := match rest.find (drainNo id) with
        | some o => { o with queue := o.queue ++ l.queue }
        | none => l
      { s with egress := { s.egress with legs := rest.put (drainNo id) d } }
  | .classSet n strict overhead weights rates burst =>
    let x := s.egress.iface n
    let port := n / 8
    let iface := n % 8
    let classes := (List.range 8).foldl (fun t k =>
      t.put k { x.cls k with weight := nth weights k 1, rate := nth rates k noRate,
                             bucket := s.egress.classBucketAt port iface k s.now }) x.classes
    s.setEgIface n { x with strictCount := strict, overhead := overhead, classBurst := burst, classes := classes }
  | .policerSet id cfg =>
    let p := match s.egress.policers.find id with
      | some p => (p.at s.now).resize cfg
      | none => Policer.fresh cfg s.now
    { s with egress := { s.egress with policers := s.egress.policers.put id p } }
  | .policerDelete id => { s with egress := { s.egress with policers := s.egress.policers.del id } }
  | .colours pkg m =>
    let tab := ((List.range 64).zip m).filter (fun p => p.2 != 0)
    if pkg = 0 then { s with egress := { s.egress with colour0 := tab } }
    else { s with egress := { s.egress with colour1 := tab } }
  | .timerSet id cfg fresh =>
    let x := s.egress.timers.getD id {}
    let t : Timer := if fresh then { cfg := cfg, cfgFrom := s.now } else { x with cfg := cfg, cfgFrom := s.now, old := some x.cfg }
    { s with egress := { s.egress with timers := s.egress.timers.put id t } }
  | .timerFree id =>
    { s with egress := { s.egress with timers := s.egress.timers.del id } }
  | .sampling pkg interval legs app =>
    let old := if pkg = 0 then s.egress.sampling0 else s.egress.sampling1
    let x : Sampling := { intervalUs := interval, legs := if app then old.legs ++ legs else legs }
    if pkg = 0 then { s with egress := { s.egress with sampling0 := x } }
    else { s with egress := { s.egress with sampling1 := x } }

end Sys2Proof.Machine
end

