-- ==== Sys2Proof/Machine/Wire.lean ====
section
/-! DEFINITION. Frames as bytes: Ethernet, IP, UDP, RTP and its header extensions, read and written (R84, R85, R95, R97).
The layouts of the standards are PRESUMED (log entry 57). -/

namespace Sys2Proof.Machine

/-- n bytes from an offset, as a number. -/
def fieldAt (b : List Byte) (off n : Nat) : Nat := beNat ((b.drop off).take n)

/- Ethernet. -/

/-- The frame check sequence of a frame's bytes, in the order in which they are sent. -/
def fcsBytes (body : List Byte) : List Byte := (beBytes 4 (crc32 (body.map (·.toNat)))).reverse

/-- A frame without its check sequence. -/
def frameBody (f : List Byte) : List Byte := f.take (f.length - 4)

/-- The frame check sequence is good. -/
def fcsGood (f : List Byte) : Bool := f.drop (f.length - 4) == fcsBytes (frameBody f)

/-- VLAN tags in front of an EtherType: how many, up to two, the VID of the first, and what follows them. -/
def vlanStrip : Nat → List Byte → Nat × Nat × List Byte
  | 0, b => (0, 0, b)
  | n + 1, b =>
    if 4 ≤ b.length ∧ (fieldAt b 0 2 = 0x8100 ∨ fieldAt b 0 2 = 0x88A8) then
      let r := vlanStrip n (b.drop 4)
      (r.1 + 1, fieldAt b 2 2 % 4096, r.2.2)
    else (0, 0, b)

/-- What a frame is at layer 2: destination and source MAC, VLAN tags and VID, EtherType, and what follows it. -/
structure EthFrame where
  dst : Nat := 0
  src : Nat := 0
  tags : Nat := 0
  vid : Nat := 0
  type : Nat := 0
  rest : List Byte := []
deriving DecidableEq, Repr, Inhabited

def ethOf (f : List Byte) : EthFrame :=
  let b := frameBody f
  let r := vlanStrip 2 (b.drop 12)
  { dst := fieldAt b 0 6, src := fieldAt b 6 6, tags := r.1, vid := r.2.1, type := fieldAt r.2.2 0 2, rest := r.2.2.drop 2 }

/-- A MAC control frame: PAUSE or priority flow control (R331). -/
def EthFrame.isPause (e : EthFrame) : Bool := e.type == 0x8808 && (fieldAt e.rest 0 2 == 0x0001 || fieldAt e.rest 0 2 == 0x0101)

/- IP. -/

/-- The ones' complement sum of 16-bit words; a last odd byte counts as the upper half of a word. -/
def onesSum (b : List Byte) : Nat :=
  let s := sumN ((chunks 2 (ceilDiv b.length 2) b).map (fun w => beNat (w ++ zeros (2 - w.length))))
  if s = 0 then 0 else (s - 1) % 65535 + 1

/-- An Internet checksum field over bytes in which the field itself is zero. -/
def inetSum (b : List Byte) : Nat := 65535 - onesSum b

/-- What a packet is at layers 3 and 4, as Table 4.1 asks. -/
structure IpPkt where
  family : Nat := 0
  bad : Bool := false
  options : Bool := false
  fragment : Bool := false
  /-- Protocol or next header. -/
  proto : Nat := 0
  dscp : Nat := 0
  src : Nat := 0
  dst : Nat := 0
  /-- Length of the IP packet as its header states it. -/
  len : Nat := 0
  /-- What follows the IP header, within that length. -/
  body : List Byte := []
deriving DecidableEq, Repr, Inhabited

/-- Next headers of IPv6 that are extension headers. -/
def ip6Extension (n : Nat) : Bool := [0, 43, 44, 50, 51, 60, 135, 139, 140].contains n

def ipv4Of (b : List Byte) : IpPkt :=
  let v := fieldAt b 0 1
  let ihl := v % 16
  let len := fieldAt b 2 2
  let head := b.take (4 * ihl)
  { family := 4
    bad := v / 16 != 4 || decide (ihl < 5) || onesSum head != 65535 || decide (len < 4 * ihl) || decide (b.length < len)
    options := decide (5 < ihl)
    fragment := fieldAt b 6 2 % 2 ^ 14 != 0
    proto := fieldAt b 9 1, dscp := fieldAt b 1 1 / 4, src := fieldAt b 12 4, dst := fieldAt b 16 4, len := len
    body := (b.take len).drop (4 * max 5 ihl) }

def ipv6Of (b : List Byte) : IpPkt :=
  let len := 40 + fieldAt b 4 2
  { family := 6, bad := decide (b.length < len), options := ip6Extension (fieldAt b 6 1), proto := fieldAt b 6 1
    dscp := fieldAt b 0 2 / 64 % 64, src := fieldAt b 8 16, dst := fieldAt b 24 16, len := len, body := (b.take len).drop 40 }

/-- The IP packet of a frame; family 0 where it carries none. -/
def EthFrame.ip (e : EthFrame) : IpPkt := if e.type = 0x0800 then ipv4Of e.rest else if e.type = 0x86DD then ipv6Of e.rest else {}

/-- The EtherTypes and protocols that go to firmware (Table 4.1 rule 3): ARP, LLDP, ICMPv4, ICMPv6. -/
def EthFrame.isControl (e : EthFrame) : Bool :=
  e.type == 0x0806 || e.type == 0x88CC || (e.ip.family == 4 && e.ip.proto == 1) || (e.ip.family == 6 && e.ip.proto == 58)

/- UDP. -/

def IpPkt.isUdp (p : IpPkt) : Bool := p.family != 0 && p.proto == 17
def IpPkt.srcUdp (p : IpPkt) : Nat := fieldAt p.body 0 2
def IpPkt.dstUdp (p : IpPkt) : Nat := fieldAt p.body 2 2
/-- The payload of a UDP datagram, as its length field bounds it. -/
def IpPkt.udpPayload (p : IpPkt) : List Byte := (p.body.take (fieldAt p.body 4 2)).drop 8

/-- An address as the bytes of its family. -/
def addrBytes (family addr : Nat) : List Byte := beBytes (if family = 4 then 4 else 16) addr

/-- The pseudo-header of a UDP checksum. -/
def pseudoHeader (family src dst len : Nat) : List Byte := addrBytes family src ++ addrBytes family dst ++ beBytes 4 len ++ beBytes 4 17

/-- The UDP checksum of a packet holds; on IPv4 a zero field says that there is none. -/
def IpPkt.udpSumOk (p : IpPkt) : Bool :=
  let b := p.body.take (fieldAt p.body 4 2)
  (p.family == 4 && fieldAt p.body 6 2 == 0) || onesSum (pseudoHeader p.family p.src p.dst b.length ++ b) == 65535

/-- A UDP datagram; `sum` says whether its checksum is computed. A sum that comes out as zero is sent as all ones. -/
def udpBytes (family src dst sport dport : Nat) (sum : Bool) (payload : List Byte) : List Byte :=
  let n := 8 + payload.length
  let head := fun (c : Nat) => beBytes 2 sport ++ beBytes 2 dport ++ beBytes 2 n ++ beBytes 2 c
  let c := inetSum (pseudoHeader family src dst n ++ head 0 ++ payload)
  head (if sum then (if c = 0 then 65535 else c) else 0) ++ payload

/-- An IPv4 packet without options. -/
def ipv4Bytes (src dst dscp ident ttl : Nat) (body : List Byte) : List Byte :=
  let head := fun (c : Nat) => [0x45] ++ beBytes 1 (4 * dscp) ++ beBytes 2 (20 + body.length) ++ beBytes 2 ident ++ zeros 2 ++ beBytes 1 ttl ++
    [17] ++ beBytes 2 c ++ beBytes 4 src ++ beBytes 4 dst
  head (inetSum (head 0)) ++ body

/-- An IPv6 packet without extension headers. -/
def ipv6Bytes (src dst dscp ttl : Nat) (body : List Byte) : List Byte :=
  beBytes 4 (6 * 2 ^ 28 + dscp * 2 ^ 22) ++ beBytes 2 body.length ++ [17] ++ beBytes 1 ttl ++ beBytes 16 src ++ beBytes 16 dst ++ body

/-- A frame around an L3 packet, without its check sequence; vid 0 sends it untagged. -/
def ethBytes (dst src vid type : Nat) (rest : List Byte) : List Byte :=
  beBytes 6 dst ++ beBytes 6 src ++ (if vid = 0 then [] else beBytes 2 0x8100 ++ beBytes 2 vid) ++ beBytes 2 type ++ rest

/-- A UDP frame from destination MAC to the end of its payload. -/
def NetHdr.frame (h : NetHdr) (payload : List Byte) : List Byte :=
  let u := udpBytes h.family h.src h.dst h.sport h.dport h.sum payload
  if h.family = 4 then ethBytes h.dstMac h.srcMac h.vid 0x0800 (ipv4Bytes h.src h.dst h.dscp h.ident h.ttl u)
  else ethBytes h.dstMac h.srcMac h.vid 0x86DD (ipv6Bytes h.src h.dst h.dscp h.ttl u)

/- RTP (RFC 3550) and its header extensions (RFC 8285). -/

/-- Items of a one-byte block; identifier 15 ends the reading. -/
def extOneByte : Nat → List Byte → List ExtItem
  | 0, b => if b.isEmpty then [] else [.raw b]
  | n + 1, b =>
    match b with
    | [] => []
    | x :: rest =>
      if x = 0 then .pad :: extOneByte n rest
      else
        let id := x.toNat / 16
        let len := x.toNat % 16 + 1
        if id = 15 ∨ rest.length < len then [.raw b] else .elem id (rest.take len) :: extOneByte n (rest.drop len)

/-- Items of a two-byte block. -/
def extTwoByte : Nat → List Byte → List ExtItem
  | 0, b => if b.isEmpty then [] else [.raw b]
  | n + 1, b =>
    match b with
    | [] => []
    | x :: rest =>
      if x = 0 then .pad :: extTwoByte n rest
      else match rest with
        | [] => [.raw b]
        | l :: body => if body.length < l.toNat then [.raw b] else .elem x.toNat (body.take l.toNat) :: extTwoByte n (body.drop l.toNat)

/-- The bytes of an item in a block of form 1 or 2 (R97). -/
def ExtItem.bytes (form : Nat) : ExtItem → List Byte
  | .elem id v => if form = 1 then beBytes 1 (id * 16 + (v.length - 1)) ++ v else beBytes 1 id ++ beBytes 1 v.length ++ v
  | .pad => [0]
  | .raw b => b

/-- The form of an extension block's profile (R85). -/
def extForm (profile : Nat) : Nat := if profile = 0xBEDE then 1 else if profile / 16 = 0x100 then 2 else 3

def rtpOf (u : List Byte) : RtpPkt :=
  let b0 := fieldAt u 0 1
  let b1 := fieldAt u 1 1
  let cc := b0 % 16
  let afterCsrc := u.drop (12 + 4 * cc)
  let x := b0 / 16 % 2 == 1
  let profile := fieldAt afterCsrc 0 2
  let n := 4 * fieldAt afterCsrc 2 2
  let block := (afterCsrc.drop 4).take n
  let form := if x then extForm profile else 0
  { padding := b0 / 32 % 2 == 1, m := b1 / 128 == 1, pt := b1 % 128, seq := BitVec.ofNat 16 (fieldAt u 2 2)
    ts := BitVec.ofNat 32 (fieldAt u 4 4), ssrc := BitVec.ofNat 32 (fieldAt u 8 4), csrc := (u.drop 12).take (4 * cc), form := form
    profile := if x then profile else 0
    ext := if form = 1 then extOneByte n block else if form = 2 then extTwoByte n block else if form = 3 then [.raw block] else []
    body := if x then afterCsrc.drop (4 + n) else afterCsrc }

/-- The bytes of an extension block's items. -/
def extData (form : Nat) (l : List ExtItem) : List Byte := (l.map (ExtItem.bytes form)).flatten

/-- An RTP header with its extension block, as bytes. -/
def RtpPkt.header (p : RtpPkt) : List Byte :=
  let d := extData p.form p.ext
  beBytes 1 (128 + 32 * b2n p.padding + 16 * b2n (p.form != 0) + p.csrc.length / 4) ++ beBytes 1 (128 * b2n p.m + p.pt) ++
  beBytes 2 p.seq.toNat ++ beBytes 4 p.ts.toNat ++ beBytes 4 p.ssrc.toNat ++ p.csrc ++
  (if p.form = 0 then [] else beBytes 2 p.profile ++ beBytes 2 (d.length / 4) ++ d)

/-- Elements of a block, by identifier, with their values as numbers. -/
def RtpPkt.elements (p : RtpPkt) : List (Nat × Nat) :=
  p.ext.filterMap (fun i => match i with | .elem id v => some (id, beNat v) | _ => none)

/-- The value bytes of an element. -/
def RtpPkt.element (p : RtpPkt) (id : Nat) : Option (List Byte) :=
  p.ext.findSome? (fun i => match i with | .elem k v => if k = id then some v else none | _ => none)

/-- The payload without trailing padding; the last byte of the packet says how much there is. -/
def RtpPkt.payload (p : RtpPkt) : List Byte :=
  if p.padding then p.body.take (p.body.length - (p.body.getLastD 0).toNat) else p.body

/-- Trailing padding bytes of the block. -/
def RtpPkt.extPad (p : RtpPkt) : Nat := (p.ext.reverse.takeWhile (fun i => i == .pad)).length

/- The residence-time element (R97, R98). -/

/-- The value of a residence-time element: 3 bytes, saturated. -/
def rtValue (v : Nat) : List Byte := beBytes 3 (sat 24 v)

/-- Fill a block with padding to whole 32-bit words. -/
def padBlock (form : Nat) (l : List ExtItem) : List ExtItem :=
  let n := (extData form l).length
  l ++ List.replicate (4 * ceilDiv n 4 - n) .pad

/-- Write the element into the trailing padding of a block: the padding that it takes is gone. -/
def intoPadding (l : List ExtItem) (size : Nat) (e : ExtItem) : List ExtItem :=
  let pad := (l.reverse.takeWhile (fun i => i == .pad)).length
  l.take (l.length - pad) ++ [e] ++ List.replicate (pad - size) .pad

/-- The packet with a residence-time element of identifier `id` and value v: in place of the element `old` where the packet carries it,
else in trailing padding, a longer block, or a new one (R98). -/
def RtpPkt.withResidence (p : RtpPkt) (old id v : Nat) : RtpPkt :=
  let e := ExtItem.elem id (rtValue v)
  if (p.element old).isSome then
    { p with ext := p.ext.map (fun i => match i with | .elem k x => if k = old then e else .elem k x | j => j) }
  else
    let size := if p.form = 1 then 4 else 5
    match p.form with
    | 0 => if id ≤ 14 then { p with form := 1, profile := 0xBEDE, ext := padBlock 1 [e] } else { p with form := 2, profile := 0x1000, ext := padBlock 2 [e] }
    | f => if size ≤ p.extPad then { p with ext := intoPadding p.ext size e } else { p with ext := padBlock f (intoPadding p.ext 0 e) }

/- Layer information (Table 4.2). -/

/-- Bits of a byte string, most significant first. -/
def bitsOfBytes (b : List Byte) : List Bool := (b.map (fun x => (List.range 8).map (fun i => x.getLsbD (7 - i)))).flatten

/-- A reader of bits: the bits that are left. A read past the end gives zeros. -/
def takeBits (n : Nat) (b : List Bool) : Nat × List Bool :=
  ((b.take n).foldl (fun a x => 2 * a + b2n x) 0 * 2 ^ (n - min n b.length), b.drop n)

/-- The layers of a structure's templates: (spatial, temporal) until the end code (on fuel). -/
def ddLayers : Nat → Nat → Nat → List Bool → List (Nat × Nat) × List Bool
  | 0, _, _, b => ([], b)
  | n + 1, s, t, b =>
    let r := takeBits 2 b
    let go := fun (s' t' : Nat) => let q := ddLayers n s' t' r.2; ((s, t) :: q.1, q.2)
    match r.1 with
    | 0 => go s t
    | 1 => go s (t + 1)
    | 2 => go (s + 1) 0
    | _ => ([(s, t)], r.2)

/-- n indications of 2 bits each: as the descriptor codes them, 0 not present, 1 discardable, 2 switch, 3 required. -/
def ddIndications : Nat → List Bool → List Nat × List Bool
  | 0, b => ([], b)
  | n + 1, b => let r := takeBits 2 b; let q := ddIndications n r.2; (r.1 :: q.1, q.2)

/-- The indications of each template. -/
def ddTemplates (targets offset : Nat) : Nat → List (Nat × Nat) → List Bool → List Template × List Bool
  | _, [], b => ([], b)
  | i, l :: ls, b =>
    let r := ddIndications targets b
    let q := ddTemplates targets offset (i + 1) ls r.2
    ({ id := (offset + i) % 64, spatial := l.1, temporal := l.2, dti := r.1 } :: q.1, q.2)

/-- A template's frame differences, which the layer selector passes over (on fuel). -/
def ddSkipDiffs : Nat → List Bool → List Bool
  | 0, b => b
  | n + 1, b => let r := takeBits 1 b; if r.1 = 0 then r.2 else ddSkipDiffs n (r.2.drop 4)

/-- A number below n in the descriptor's non-symmetric code. -/
def ddNs (n : Nat) (b : List Bool) : Nat × List Bool :=
  let w := Nat.log2 n + 1
  let m := 2 ^ w - n
  let r := takeBits (w - 1) b
  if r.1 < m then r else let q := takeBits 1 r.2; (2 * r.1 - m + q.1, q.2)

/-- n numbers in that code. -/
def ddSkipNs (n : Nat) : Nat → List Bool → List Bool
  | 0, b => b
  | k + 1, b => ddSkipNs n k (ddNs n b).2

/-- A template structure, after its presence flag: up to 64 templates and 32 decode targets (R91). -/
def ddStructure (b : List Bool) : TemplateStruct × List Bool :=
  let o := takeBits 6 b
  let c := takeBits 5 o.2
  let targets := c.1 + 1
  let l := ddLayers 64 0 0 c.2
  let t := ddTemplates targets o.1 0 l.1 l.2
  let diffs := t.1.foldl (fun a _ => ddSkipDiffs 64 a) t.2
  let chains := ddNs (targets + 1) diffs
  let afterChains := if chains.1 = 0 then chains.2 else (ddSkipNs chains.1 targets chains.2).drop (4 * chains.1 * t.1.length)
  let res := takeBits 1 afterChains
  ({ templates := t.1, targets := targets }, if res.1 = 0 then res.2 else res.2.drop (32 * (maxN (l.1.map (·.1)) + 1)))

/-- A dependency descriptor: what the selector reads of it, and the structure that it carries. `known` gives the decode targets of the
structure that the context has stored. -/
def ddOf (v : List Byte) (known : Nat) : DepDesc × Option TemplateStruct :=
  let b := bitsOfBytes v
  let s := takeBits 1 b
  let e := takeBits 1 s.2
  let t := takeBits 6 e.2
  let n := takeBits 16 t.2
  let base : DepDesc := { template := t.1, frameStart := s.1 == 1, frameEnd := e.1 == 1, number := n.1 }
  if v.length ≤ 3 then (base, none)
  else
    let flags := takeBits 5 n.2
    let st := if flags.1 / 16 = 1 then (let r := ddStructure flags.2; (some r.1, r.2)) else (none, flags.2)
    let targets := match st.1 with | some x => x.targets | none => known
    let act := if flags.1 / 8 % 2 = 1 then st.2.drop targets else st.2
    let dti := if flags.1 / 4 % 2 = 1 then some (ddIndications targets act).1 else none
    ({ base with dti := dti }, st.1)

/-- A VP9 payload descriptor. -/
def vp9Of (p : List Byte) : Vp9Desc :=
  let b0 := fieldAt p 0 1
  let i := b0 / 128 == 1
  let l := b0 / 32 % 2 == 1
  let idLen := if !i then 0 else if fieldAt p 1 1 / 128 = 1 then 2 else 1
  let x := fieldAt p (1 + idLen) 1
  { l := l, sid := if l then x / 2 % 8 else 0, tid := if l then x / 32 else 0, b := b0 / 8 % 2 == 1, e := b0 / 4 % 2 == 1
    p := b0 / 64 % 2 == 1, u := l && x / 16 % 2 == 1 }

/-- An HEVC payload header; in a fragmentation unit the type stands in the FU header, and in an aggregation packet in its first unit. -/
def hevcOf (p : List Byte) : HevcHdr :=
  let b0 := fieldAt p 0 1
  let b1 := fieldAt p 1 1
  let t := b0 / 2 % 64
  { type := if t = 49 then fieldAt p 2 1 % 64 else if t = 48 then fieldAt p 4 1 / 2 % 64 else t
    layerId := b0 % 2 * 32 + b1 / 8, tidPlus1 := b1 % 8 }

end Sys2Proof.Machine
end

