-- ==== Sys2Proof/Machine/VcpWire.lean ====
section
/-! DEFINITION. VCP packets as bytes: header, protection, hellos, command payloads and replies (R31, R34, R38, Tables 2.1 to 2.7). -/

namespace Sys2Proof.Machine

/- The header and the protection of R31 and R34. -/

/-- The 20-byte header of Table 2.1. -/
def vcpHeader (type session seq length : Nat) : List Byte :=
  beBytes 2 0x5643 ++ [1] ++ beBytes 1 type ++ beBytes 4 session ++ beBytes 8 seq ++ beBytes 2 length ++ zeros 2

/-- A packet in clear text: sequence 0, no tag. -/
def vcpClear (type session : Nat) (payload : List Byte) : List Byte := vcpHeader type session 0 payload.length ++ payload

/-- The nonce of a packet: the direction's iv and its sequence (R34). -/
def vcpNonce (iv seq : Nat) : Nat := iv ^^^ seq % 2 ^ 64

/-- A protected packet of the module: AES-256-GCM under key_m2c, with the header as additional data. -/
def SessionKeys.protect (k : SessionKeys) (type session seq : Nat) (payload : List Byte) : List Byte :=
  let h := vcpHeader type session seq payload.length
  h ++ gcmSeal (beBytes 32 k.keyM2c) (vcpNonce k.ivM2c seq) h payload

/-- Types 0x03 to 0x06 are protected. -/
def vcpProtected (type : Nat) : Bool := decide (3 ≤ type ∧ type ≤ 6)

end Sys2Proof.Machine

namespace Sys2Proof

open Sys2Proof.Machine

/- A received packet. -/

def VcpRx.magic (x : VcpRx) : Nat := fieldAt x.bytes 0 2
def VcpRx.version (x : VcpRx) : Nat := fieldAt x.bytes 2 1
def VcpRx.type (x : VcpRx) : Nat := fieldAt x.bytes 3 1
def VcpRx.session (x : VcpRx) : Nat := fieldAt x.bytes 4 4
def VcpRx.seq (x : VcpRx) : Nat := fieldAt x.bytes 8 8
def VcpRx.length (x : VcpRx) : Nat := fieldAt x.bytes 16 2
/-- The tag, the last 16 bytes of a protected packet. -/
def VcpRx.tag (x : VcpRx) : Nat := fieldAt x.bytes (x.bytes.length - 16) 16

/-- magic, and the lengths and the sequence of R31. -/
def VcpRx.framingOk (x : VcpRx) : Bool :=
  decide (20 ≤ x.bytes.length) && x.magic == 0x5643 &&
  x.bytes.length == 20 + x.length + (if vcpProtected x.type then 16 else 0) && (vcpProtected x.type || x.seq == 0)

/-- The payload of a protected packet from the controller, where its tag verifies under the session's keys. -/
def VcpRx.opened (x : VcpRx) (k : SessionKeys) : Option (List Byte) :=
  gcmOpen (beBytes 32 k.keyC2m) (vcpNonce k.ivC2m x.seq) (x.bytes.take 20) (x.bytes.drop 20)

def VcpRx.tagOk (x : VcpRx) (k : SessionKeys) : Bool := (x.opened k).isSome

/- The hellos (Tables 2.3 and 2.4). -/

/-- A hello's packet. -/
def HelloRx.packet (h : HelloRx) : VcpRx := { dt := h.dt, peer := h.peer, bytes := h.bytes }
def HelloRx.payload (h : HelloRx) : List Byte := h.bytes.drop 20
def HelloRx.clientRandom (h : HelloRx) : Nat := fieldAt h.payload 0 32
def HelloRx.maxDatagram (h : HelloRx) : Nat := fieldAt h.payload 32 2
def HelloRx.certLength (h : HelloRx) : Nat := fieldAt h.payload 34 2
def HelloRx.reservedZero (h : HelloRx) : Bool := fieldAt h.payload 133 3 == 0
/-- client_share without its first byte: X, then Y. -/
def HelloRx.share (h : HelloRx) : Nat := fieldAt h.payload 37 96
/-- client_share is an uncompressed point of the curve. -/
def HelloRx.shareOk (h : HelloRx) : Bool := fieldAt h.payload 36 1 == 4 && onCurve h.share

end Sys2Proof

namespace Sys2Proof.Machine

/- Replies of the module to a hello. -/

/-- The payload of a SERVER_HELLO. -/
def ServerHello.payload (h : ServerHello) : List Byte :=
  beBytes 32 h.moduleRandom ++ beBytes 4 h.session ++ beBytes 2 h.maxDatagram ++ beBytes 2 (b2n h.validityUnchecked + 2 * b2n h.settingMode) ++
  [4] ++ beBytes 96 h.moduleShare ++ zeros 3 ++ beBytes 96 h.signature ++ beBytes 2 Config.identityCert.length ++ zeros 2 ++ Config.identityCert

/-- The transcript hash that both signatures cover. -/
def transcript (clientHello : List Byte) (h : ServerHello) : List Byte := sha384 (clientHello ++ { h with signature := 0 }.payload)

/-- The bytes of an ASCII label. -/
def ascii (s : String) : List Byte := s.toList.map (fun c => BitVec.ofNat 8 c.toNat)

/-- The keys of R34. -/
def sessionKeys (clientRandom moduleRandom ecdhX : Nat) : SessionKeys :=
  let prk := hkdfExtract .sha384 (beBytes 32 clientRandom ++ beBytes 32 moduleRandom) (beBytes 48 ecdhX)
  let part := fun (label : String) n => beNat (hkdfExpand .sha384 prk (ascii label) n)
  { keyC2m := part "vcp1 c2m key" 32, keyM2c := part "vcp1 m2c key" 32, ivC2m := part "vcp1 c2m iv" 12, ivM2c := part "vcp1 m2c iv" 12 }

/-- A signature by the module identity key over a digest; the per-signature secret is a free value. -/
def identitySign (digest : List Byte) : Nat := ecdsaSign Config.identityKey (Config.signNonce digest) digest

/- Command payloads (Tables 2.5 and 2.6). -/

/-- n records and their padding, with the status field of each; `none` where they do not fill the bytes exactly (R38). -/
def readRecords : Nat → List Byte → Option (List (PktRec × Nat))
  | 0, b => if b.isEmpty then some [] else none
  | n + 1, b =>
    let len := fieldAt b 2 2
    let whole := 8 + 4 * ceilDiv len 4
    if b.length < 8 ∨ b.length < whole then none
    else (readRecords n (b.drop whole)).map (fun r =>
      ({ opcode := fieldAt b 0 2, tag := fieldAt b 4 2, block := (b.drop 8).take len }, fieldAt b 6 2) :: r)

/-- The payload of a COMMAND packet as R401 judges it. -/
def readCommand (b : List Byte) : CmdPayload :=
  let recs := if b.length < 36 then none else readRecords (fieldAt b 32 1) (b.drop 36)
  { deadline := fieldAt b 0 16, applyAt := fieldAt b 16 16, countOk := recs.isSome, flags := fieldAt b 33 1, reservedZero := fieldAt b 34 2 == 0
    statusZero := (recs.getD []).all (fun r => r.2 == 0), records := (recs.getD []).map (·.1) }

/-- A command record with its padding. -/
def PktRec.bytes (r : PktRec) : List Byte :=
  beBytes 2 r.opcode ++ beBytes 2 r.block.length ++ beBytes 2 r.tag ++ zeros 2 ++ r.block ++ zeros (4 * ceilDiv r.block.length 4 - r.block.length)

/- Replies and rejects (Tables 2.2, 2.6 and 2.7). -/

/-- A result record with its padding. -/
def ResultRec.bytes (r : ResultRec) : List Byte :=
  beBytes 2 r.opcode ++ beBytes 2 r.block.length ++ beBytes 2 r.tag ++ beBytes 2 r.status.code ++ r.block ++
  zeros (4 * ceilDiv r.block.length 4 - r.block.length)

/-- The payload of fragment `index` of a reply. -/
def Reply.payload (r : Reply) (index : Nat) (recs : List ResultRec) : List Byte :=
  beBytes 8 r.cmdSeq ++ beBytes 2 r.status.code ++ beBytes 1 recs.length ++ beBytes 1 (16 * index + (r.fragments.length - 1)) ++
  timeBytes r.arrival ++ timeBytes r.effective ++ (recs.map ResultRec.bytes).flatten

/-- The packets of a reply, as they are sent and resent. -/
def Reply.packets (r : Reply) (k : SessionKeys) (session : Nat) : List (List Byte) :=
  ((List.range r.fragments.length).zip r.fragments).map (fun f => k.protect 5 session (r.firstSeq + f.1) (r.payload f.1 f.2))

/-- A REJECT. -/
def rejectBytes (session : Nat) (st : Status) : List Byte := vcpClear 7 session (beBytes 2 st.code ++ zeros 2 ++ beBytes 4 session)

end Sys2Proof.Machine

namespace Sys2Proof

open Sys2Proof.Machine

/-- The payload of a COMMAND packet. -/
def CmdPayload.bytes (c : CmdPayload) : List Byte :=
  beBytes 16 c.deadline ++ beBytes 16 c.applyAt ++ beBytes 1 c.records.length ++ beBytes 1 c.flags ++ zeros 2 ++ (c.records.map PktRec.bytes).flatten

end Sys2Proof
end

