-- ==== Sys2Proof/Machine/VcpOps.lean ====
section
/-! DEFINITION. Operations of the command protocol: sessions, packets sent, replies, and its changes.
Corners of the protocol: DEDUCED (log entries 13 to 16). -/

namespace Sys2Proof.Machine

/-- Bytes of an IP header towards an address: IPv4 addresses lie below 2^32. -/
def ipBytes (addr : Nat) : Nat := if addr < 2 ^ 32 then 20 else 40

/-- Length of the frame that carries a UDP payload, from destination MAC through FCS. A reply is tagged as the frame that it answers was
(DESIGN CHOICE, log entry 58: R28 does not say). -/
def vcpFrameLen (vid addr payload : Nat) : Nat :=
  14 + (if vid = 0 then 0 else 4) + ipBytes addr + 8 + payload + 4

/-- Send a VCP packet to a peer on the internal leg of its interface, from the address and port at which the peer's packet arrived, marked
DSCP 48 (R28, R135). -/
def State.sendVcp (s : State) (p : Peer) (body : List Byte) (x : Payload) : State :=
  s.sendInternal p.port p.iface
    { len := vcpFrameLen p.vid p.addr body.length, enq := s.now, arrival := s.now, dstUdp := p.udp, dstAddr := p.addr,
      srcUdp := p.localUdp, srcAddr := p.localAddr, dscp := 48, vid := p.vid, body := body, payload := x }

/-- Send a REJECT, at most one per second to a source address; a suppressed one is counted (R32, R400). Seconds are
those of the timebase. -/
def State.sendReject (s : State) (p : Peer) (session : Nat) (st : Status) : State :=
  if s.vcp.rejects.find p.addr == some (secOf s.now) then
    { s with vcp := { s.vcp with rejectsSuppressed := s.vcp.rejectsSuppressed + 1 } }
  else
    ({ s with vcp := { s.vcp with rejects := s.vcp.rejects.put p.addr (secOf s.now) } }).sendVcp p (rejectBytes session st)
      (.reject session st)

/-- Drop a VCP packet: counted per port, and reported by VCP_DROPPED at most once a second for each reason and port
(R32, R354). -/
def State.vcpDrop (s : State) (port reason session : Nat) : State :=
  let k := 8 * port + reason
  let (fire, lim) := (s.vcp.dropEvents.getD k {}).hit s.now (sec 1)
  let a := s.vcp.addr port
  let v := ({ s.vcp with dropEvents := s.vcp.dropEvents.put k lim }).setAddr port { a with vcpDrops := a.vcpDrops + 1 }
  let s1 := { s with vcp := v }
  match fire with
  | some n => s1.raise 224 0x0001 (dCode 112 8 reason + dCode 104 8 port + dCode 72 32 session + dBits 40 32 n)
  | none => s1

def VcpState.session (v : VcpState) (id : Nat) : Option Session := v.sessions.find? (fun x => x.id == id)

/-- Change a session. -/
def State.modSession (s : State) (id : Nat) (f : Session → Session) : State :=
  { s with vcp := { s.vcp with sessions := s.vcp.sessions.map (fun x => if x.id = id then f x else x) } }

/-- Established sessions (R36): those that have not expired. -/
def VcpState.established (v : VcpState) : List Session := v.sessions.filter (fun x => x.expired.isNone)

/-- The subscriptions of a session lapse, with their queues and histories (R37, R355). -/
def State.lapse (s : State) (id : Nat) : State :=
  { s with events := { s.events with subs := s.events.subs.filter (fun p => p.2.session != id) } }

/-- A session ends (R37): SESSION_ENDED is raised, its keys are erased, its subscription lapses; its claims stay. Its packets in execution
go unanswered, and what they have staged without an effective instant yet lapses (DESIGN CHOICE, log entry 59: R37 is silent). -/
def State.endSession (s : State) (id cause : Nat) : State :=
  match s.vcp.session id with
  | none => s
  | some x =>
    let s1 := ({ s with vcp := { s.vcp with sessions := s.vcp.sessions.filter (fun y => y.id != id),
                                            executing := s.vcp.executing.filter (fun p => p.session != id) },
                        staged := s.staged.filter (fun c => c.session != id || c.eff.isSome) }).lapse id
    if x.expired.isNone then s1.raise 225 0x0003 (dCode 88 32 id + dCode 80 8 cause) else s1

/-- Bytes of a result record with its header and padding (Table 2.6, R38). -/
def ResultRec.size (r : ResultRec) : Nat := 8 + 4 * ceilDiv r.block.length 4

/-- Pack result records into fragments in order, as many to a fragment as fit in `cap` bytes (R39). -/
def packRecords (cap : Nat) : List ResultRec → List ResultRec → Nat → List (List ResultRec)
  | [], cur, _ => [cur]
  | r :: rs, cur, used =>
    if !cur.isEmpty && decide (cap < used + r.size) then cur :: packRecords cap rs [r] r.size
    else packRecords cap rs (cur ++ [r]) (used + r.size)

/-- Bytes of records that fit in a fragment: max_datagram less header, reply preamble and tag (R39). -/
def fragmentCap (maxDatagram : Nat) : Nat := maxDatagram - 80

/-- Enqueue every fragment of a reply, as formed: a resent one is the same byte for byte (R28, R39, R40). -/
def State.sendReply (s : State) (p : Peer) (session : Nat) (r : Reply) : State :=
  ((List.range r.wire.length).zip r.wire).foldl (fun t f => t.sendVcp p f.2 (.reply session (r.firstSeq + f.1) r f.1)) s

/-- Form a reply for a session: cut it into fragments, number them in the module's direction and protect them (R34, R39, R40). -/
def Session.formReply (x : Session) (cmdSeq : Nat) (st : Status) (arrival eff : Instant) (recs : List ResultRec) :
    Reply × Session :=
  let frags := packRecords (fragmentCap x.maxDatagram) recs [] 0
  let r : Reply := { cmdSeq := cmdSeq, status := st, arrival := arrival, effective := eff, fragments := frags, firstSeq := x.txSeq }
  ({ r with wire := r.packets x.keys x.id }, { x with txSeq := x.txSeq + frags.length })

/-- Record a sequence in the window, keeping the 1,024 sequences up to H (R40). -/
def Session.record (x : Session) (seq tag : Nat) (st : SeqState) : Session :=
  let h := max x.high seq
  let w := (x.window.filter (fun e => e.seq != seq)) ++ [{ seq := seq, tag := tag, st := st }]
  { x with high := h, window := w.filter (fun e => decide (h < e.seq + 1024)) }

/-- The window's entry for a sequence. -/
def Session.entry (x : Session) (seq : Nat) : Option WinEntry := x.window.find? (fun e => e.seq == seq)

/- Management addressing (R29, R58). -/

/-- Send a DHCP message of a port: kind 1 the first message of a step, 2 a retransmission, 3 a renewal, 4 a rebinding. -/
def State.sendDhcp (s : State) (port family kind : Nat) : State :=
  s.sendInternal port 0
    { len := if family = 6 then 14 + 40 + 8 + 64 + 4 else 14 + 20 + 8 + 300 + 4, enq := s.now, arrival := s.now,
      dstUdp := if family = 6 then 547 else 67, srcUdp := if family = 6 then 546 else 68, payload := .dhcp family kind }

/-- The random part of a timer, in thousandths of it, from -100 to 100 (RFC 8415 section 15); a draw, so a free value. -/
def jitter (draw : Nat) : Int := (Config.random draw % 201 : Nat) - 100

/-- A time with its random part. -/
def jittered (t : Nat) (j : Int) : Nat := ((t : Int) * (1000 + j) / 1000).toNat

/-- How long a port waits for an answer to the request of number n of a step. DHCPv6 (RFC 8415): 1 s, then twice the time before, at most
3,600 s, each with its random part, which is not negative at first. DHCPv4 (RFC 2131): 4 s, twice as long each time up to 64 s, each give or take 1 s. -/
def dhcpWait (family n before draw : Nat) : Nat :=
  let j := jitter draw
  if family = 6 then
    if n = 0 then jittered (sec 1) (max j (-j))
    else
      let w := jittered (2 * before) (j / 2)
      if sec 3600 < w then jittered (sec 3600) j else w
  else ((sec (2 ^ min (n + 2) 6) : Int) + (sec 1 : Int) * j / 100).toNat

/-- The first timer of the DHCPv6 exchanges Renew and Rebind, and the largest (RFC 8415). -/
def renewWait (n before draw : Nat) : Nat :=
  let j := jitter draw
  if n = 0 then jittered (sec 10) j
  else
    let w := jittered (2 * before) (j / 2)
    if sec 600 < w then jittered (sec 600) j else w

/-- Start step 1 (DHCPv6) or step 2 (DHCPv4) of R29 on a port: the port has no routable address. -/
def State.startDhcp (s0 : State) (port : Nat) (ph : AddrPhase) : State :=
  let (d, s) := s0.draw
  let a := s.vcp.addr port
  let fam := match ph with | .dhcp4 => 4 | _ => 6
  let wait := dhcpWait fam 0 0 d
  ({ s with vcp := s.vcp.setAddr port { a with phase := ph, phaseSince := s.now, retransmissions := 0, family := 0, addr := 0, gateway := 0,
                                               prefixLen := 0, leaseEnd := 0, infinite := false, renewAt := 0, rebindAt := 0,
                                               asking := 0, wait := wait, nextTx := s.now + wait } }).sendDhcp port fam 1

def applyVcp (c : VcpChange) (s : State) : State :=
  match c with
  | .address port family plen addr gateway vcpPort vid =>
    let a := { s.vcp.addr port with vcpPort := vcpPort, vid := vid }
    let s1 := { s with vcp := s.vcp.setAddr port a }
    if family = 0 then s1.startDhcp port .dhcp6
    else { s1 with vcp := s1.vcp.setAddr port { a with phase := .commanded family, family := family, addr := addr,
                                                       gateway := gateway, prefixLen := plen, leaseEnd := 0, infinite := false,
                                                       renewAt := 0, rebindAt := 0, asking := 0, nextTx := 0 } }
  | .sessionClose id => s.endSession id 1
  | .claimRelease id => s.dropClaim id
  | .raise source code data pkg => s.raise source code data pkg

end Sys2Proof.Machine
end

