-- ==== Sys2Proof/Machine/CipherOps.lean ====
section
/-! DEFINITION. Operations on key contexts, usage counters and migration images (05_cipher_engine.md).
Corners of the cipher engine: DEDUCED (log entry 27). -/

namespace Sys2Proof.Machine

def keyPkg (k : Nat) : Nat := k / 2 ^ 21

/-- The srtp_limit ceiling (Table 5.2). -/
def srtpCeiling (t : Nat) : Nat := if t = 6 ∨ t = 7 then 2 ^ 36 else 2 ^ 48
def srtcpCeiling : Nat := 2 ^ 31

/-- A context is spent for a counter (R118). -/
def KeyCtx.spentSrtp (k : KeyCtx) : Bool := decide (k.srtpLimit ≤ k.srtpCount)
def KeyCtx.spentSrtcp (k : KeyCtx) : Bool := decide (k.srtcpLimit ≤ k.srtcpCount)
def KeyCtx.spent (k : KeyCtx) : Bool := k.spentSrtp || k.spentSrtcp
/-- Past the near-limit point of either counter (Table 5.7). -/
def KeyCtx.near (k : KeyCtx) : Bool :=
  decide (k.srtpLimit ≤ k.srtpCount + 1024) || decide (k.srtcpLimit ≤ k.srtcpCount + 1024)

def State.key (s : State) (id : Nat) : Option KeyCtx := s.cipher.keys.find id
def State.setKey (s : State) (id : Nat) (k : KeyCtx) : State :=
  { s with cipher := { s.cipher with keys := s.cipher.keys.put id k } }

/-- Targets that name the context as their egress key, as (context, target). -/
def FwdState.targetsOfKey (f : FwdState) (key : Nat) : List (Nat × Nat) :=
  (f.streams.map (fun p => (p.2.targets.filter (fun t => t.2.cfg.keyCtx == key)).map (fun t => (p.1, t.1)))).flatten

/-- Stream contexts and targets that name the key context (Table 5.7). -/
def FwdState.keyRefs (f : FwdState) (key : Nat) : Nat :=
  (f.streams.filter (fun p => p.2.cfg.keyCtx == key)).length + (f.targetsOfKey key).length

/-- The next context that an automatic roll may take: linked, not deleted, not spent on either counter (R124). -/
def State.rollNext (s : State) (k : KeyCtx) : Option Nat :=
  if k.nextCtx = 0 then none
  else match s.key k.nextCtx with
    | some n => if n.spent then none else some k.nextCtx
    | none => none

/-- Ask the counter store for one use of a key context (R116, R118, R119): the state and whether the use is granted. The
grant that reaches limit − 1,024 raises KEY_NEAR_LIMIT, the one that reaches limit KEY_EXHAUSTED. A deleted context is
treated as spent (R115). -/
def State.grant (s : State) (id : Nat) (srtcp : Bool) : State × Bool :=
  match s.key id with
  | none => (s, false)
  | some k =>
    let count := if srtcp then k.srtcpCount else k.srtpCount
    let limit := if srtcp then k.srtcpLimit else k.srtpLimit
    let armed := if srtcp then k.srtcpArmed else k.srtpArmed
    if limit ≤ count then (s.setKey id { k with refused := k.refused + 1 }, false)
    else
      let c := count + 1
      let nearNow := armed && c + 1024 == limit
      let next := s.rollNext k
      let rolls := nearNow && next.isSome && !(s.fwd.targetsOfKey id).isEmpty
      let k1 := if srtcp then { k with srtcpCount := c, srtcpArmed := armed && !nearNow }
        else { k with srtpCount := c, srtpArmed := armed && !nearNow }
      let k2 := if rolls then { k1 with rollDue := some s.now } else k1
      let s1 := s.setKey id k2
      let s2 := s1.raiseIf nearNow 75 0x0001
        (dCode 88 32 id + dCode 80 8 (b2n srtcp) + dCode 72 8 (b2n rolls) + dCode 40 32 k.nextCtx) (keyPkg id)
      let s3 := s2.raiseIf (c == limit) 75 0x0002 (dCode 88 32 id + dCode 80 8 (b2n srtcp)) (keyPkg id)
      (s3, true)

/- Migration images (R128 to R132). -/

def CipherState.exp (c : CipherState) (p : Nat) : Export := if p = 0 then c.exp0 else c.exp1
def CipherState.imp (c : CipherState) (p : Nat) : Import := if p = 0 then c.imp0 else c.imp1
def State.setExport (s : State) (p : Nat) (x : Export) : State :=
  if p = 0 then { s with cipher := { s.cipher with exp0 := x } } else { s with cipher := { s.cipher with exp1 := x } }
def State.setImport (s : State) (p : Nat) (x : Import) : State :=
  if p = 0 then { s with cipher := { s.cipher with imp0 := x } } else { s with cipher := { s.cipher with imp1 := x } }
def CipherState.sealKeys (c : CipherState) (p : Nat) : Tab SealKey := if p = 0 then c.sealKeys0 else c.sealKeys1

/-- Kind and stack of a buffer handle (R310). -/
def handleKind (h : Nat) : Nat := h / 2 ^ 26
def handleStack (h : Nat) : Nat := h / 2 ^ 22 % 16
/-- The handle is well-formed: a kind of Table 14.4 and a stack 0 to 9. -/
def handleOk (h : Nat) : Bool := decide (1 ≤ handleKind h ∧ handleKind h ≤ 13 ∧ handleStack h ≤ 9)
/-- The kinds that may be exported (Table 14.4). -/
def kindExportable (k : Nat) : Bool := decide (1 ≤ k ∧ k ≤ 11)

/-- Bytes of a buffer. -/
def MemState.bufferSize (m : MemState) (h : Nat) : Nat := (m.buffers.getD h {}).size

/-- Round up to a multiple of 16. -/
def up16 (n : Nat) : Nat := ceilDiv n 16 * 16

/-- Bytes of an image over the listed buffers: header, objects with their headers and padding, tag (R128). -/
def imageBytes (m : MemState) (handles : List Nat) : Nat :=
  64 + sumN (handles.map (fun h => 16 + up16 (m.bufferSize h))) + 48

/-- The header of a sealed image over `plain` bytes of plaintext (Table 5.4). -/
def Export.header (x : Export) (plain : Nat) : List Byte :=
  beBytes 4 0x56534931 ++ beBytes 2 1 ++ beBytes 2 x.handles.length ++ beBytes 4 x.imageId ++ beBytes 4 x.sealKeyId ++ beBytes 8 plain ++
  timeBytes x.started ++ zeros 8 ++ beBytes 16 x.iv

/-- An object of a plaintext (R128): its header, and its content zero-padded to a multiple of 16 bytes. -/
def imageObject (kind : Nat) (content : List Byte) : List Byte :=
  beBytes 4 kind ++ zeros 4 ++ beBytes 8 content.length ++ content ++ zeros (up16 content.length - content.length)

/-- Segments of an image (R131). -/
def segmentCount (imageLen : Nat) : Nat := ceilDiv imageLen 1024
/-- Data bytes of segment k. -/
def segmentLen (imageLen k : Nat) : Nat := min 1024 (imageLen - 1024 * k)

/-- Bytes of segment k that an import holds. -/
def Import.held (x : Import) (k : Nat) : Nat := min ((x.segments.getD k []).length) (segmentLen x.imageLength k)
/-- Bytes received. -/
def Import.received (x : Import) : Nat := sumN (x.segments.map (fun p => x.held p.1))
/-- The lowest segment not yet received whole, or the segment count. -/
def Import.firstMissing (x : Import) : Nat :=
  ((List.range (segmentCount x.imageLength)).find? (fun k => decide (x.held k < segmentLen x.imageLength k))).getD
    (segmentCount x.imageLength)
/-- The received image's bytes, in order. -/
def Import.bytes (x : Import) : List Byte :=
  (List.range (segmentCount x.imageLength)).foldl (fun b k => b ++ (x.segments.getD k []).take (segmentLen x.imageLength k)) []

/-- The objects of a plaintext (R128): kind and content, for n objects. -/
def parseObjects : Nat → List Byte → Option (List (Nat × List Byte))
  | 0, b => if b.isEmpty then some [] else none
  | n + 1, b =>
    if b.length < 16 then none
    else
      let kind := beNat (b.take 4)
      let len := beNat ((b.drop 8).take 8)
      let body := b.drop 16
      if body.length < up16 len then none
      else (parseObjects n (body.drop (up16 len))).map (fun r => (kind, body.take len) :: r)

/-- An import's image opened under a seal key (R129): none when its tag does not match, else its objects, none inside when
they do not parse. -/
def openImage (x : Import) (k : SealKey) : Option (Option (List (Nat × List Byte))) :=
  let b := x.bytes
  let n := b.length - 48
  let m := (imageMsg k.encKey k.macKey (fieldAt b 48 16) (b.take 64) ((b.take n).drop 64) true).finish
  if b.length < 112 || b.drop n != m.tag then none else some (parseObjects (fieldAt b 6 2) m.output)

/- Crypto units (R112, R126). -/

/-- cu2 of Pn.PC7, which runs image work. -/
def imageUnit (pkg : Nat) : Nat := 4 * (8 * pkg + 7) + 2

def CipherState.unit (c : CipherState) (n : Nat) : CryptoUnit := c.units.getD n {}
def State.setUnit (s : State) (n : Nat) (u : CryptoUnit) : State := { s with cipher := { s.cipher with units := s.cipher.units.put n u } }

/-- A message becomes ready at a unit. -/
def State.submit (s : State) (n : Nat) (m : CryptoMsg) : State := s.setUnit n ((s.cipher.unit n).submit m s.now)

/-- The standard unit of a packet cluster that takes the next message: of cu0 to cu2 that are in rotation the one with the least work before it, the
lowest of equals (no rule allots messages to units: DESIGN CHOICE, log entry 64). -/
def CipherState.standardUnit (c : CipherState) (pkg cluster : Nat) (t : Instant) : Nat :=
  let n := 4 * (8 * pkg + cluster)
  let load := fun (k : Nat) => ((c.unit k).workTo t).load
  match [n, n + 1, n + 2].filter (fun k => !(c.unit k).outOf) with
  | [] => n
  | k :: ks => ks.foldl (fun best j => if load j < load best then j else best) k

/-- A message of the standard path, of a store-and-forward copy or of SRTCP becomes ready in a packet cluster. -/
def State.standardWork (s : State) (pkg cluster : Nat) (m : CryptoMsg) : State := s.submit (s.cipher.standardUnit pkg cluster s.now) m

/-- A cut-through copy's keystreams run in the two pipes of cu3, in parallel (R112). cu3 never suspends, so its messages count as urgent. -/
def State.cutWork (s : State) (pkg cluster : Nat) (ingress egress : Option CryptoMsg) : State :=
  let put := fun (t : State) (n : Nat) (m : Option CryptoMsg) => match m with | some x => t.submit n { x with work := .urgent } | none => t
  put (put s (4 * (8 * pkg + cluster) + 3) ingress) (64 + 8 * pkg + cluster) egress

/-- The package of a stream context (R87). -/
def ctxPkg (c : Nat) : Nat := c / 2 ^ 19

/-- Image work becomes ready at the package's image unit. -/
def State.imageWork (s : State) (pkg : Nat) (m : CryptoMsg) : State := s.submit (imageUnit pkg) m

/-- The sealing of an export is given up. -/
def CryptoUnit.dropSeal (u : CryptoUnit) : CryptoUnit :=
  let keep := fun (m : Option CryptoMsg) => m.filter (fun x => x.work != .sealing)
  { u with service := keep u.service, imageSave := keep u.imageSave, ready := u.ready.filter (fun x => x.work != .sealing), sealed_ := none }

end Sys2Proof.Machine
end

