-- ==== Sys2Proof/Machine/MemOps.lean ====
section
/-! DEFINITION. Buffers and their regions, and the errors of stacks and FIFOs (14_memory_and_fifos.md).
Corners of stacks, books and audits: DEDUCED (log entries 40, 41). -/

namespace Sys2Proof.Machine

/- Buffers (R308 to R310). -/

/-- A handle from its fields (R310). -/
def mkHandle (kind stack index : Nat) : Nat := kind * 2 ^ 26 + stack * 2 ^ 22 + index

/-- Round up to a multiple of 4,096. -/
def up4k (n : Nat) : Nat := ceilDiv n 4096 * 4096

/-- The regions of Tables 14.2 and 14.3 that hold buffers. -/
inductive RegionKind where
  | surfaces | streams | graphics | control | encode | audio
deriving DecidableEq, Repr, Inhabited

/-- Region of a kind of buffer (Table 14.4). -/
def regionOf (kind : Nat) : RegionKind :=
  match kind with
  | 0x01 => .streams
  | 0x02 => .surfaces | 0x03 => .surfaces | 0x04 => .surfaces
  | 0x05 => .graphics
  | 0x06 => .encode | 0x07 => .encode | 0x08 => .encode
  | 0x09 => .audio | 0x0A => .audio
  | _ => .control

/-- Bytes of a region (Table 14.2); of a local window's region, per quadrant. -/
def RegionKind.size : RegionKind → Nat
  | .surfaces => 8 * 2 ^ 30
  | .streams => 4 * 2 ^ 30
  | .graphics => 4 * 2 ^ 30
  | .control => 3 * 2 ^ 30
  | .encode => 2 ^ 30
  | .audio => 128 * 2 ^ 20

/-- The region lies in the local windows of the quadrants. -/
def RegionKind.isLocal : RegionKind → Bool
  | .encode => true
  | .audio => true
  | _ => false

/-- Bytes allocated in a region of a stack, and for a local region in the quadrant's window. -/
def MemState.used (m : MemState) (k : RegionKind) (stack quad : Nat) : Nat :=
  sumN ((m.buffers.filter (fun p => regionOf (handleKind p.1) == k && handleStack p.1 == stack &&
    (!k.isLocal || p.2.quad == quad))).map (fun p => p.2.size))

/-- Bytes still free in a region. -/
def MemState.room (m : MemState) (k : RegionKind) (stack quad : Nat) : Nat := k.size - m.used k stack quad

/-- The next handle of a kind on a stack, after `skip` others of the same command: handles are not reused before the next start. -/
def MemState.nextHandle (m : MemState) (kind stack : Nat) (skip : Nat := 0) : Nat :=
  mkHandle kind stack (m.nextIndex.getD (kind * 16 + stack) 0 + skip)

/-- Allocation and release of an object's parameter blocks, n from the handle h on (Table 14.4; which blocks firmware allocates no rule says:
DESIGN CHOICE, log entry 70). -/
def allocParams (h n : Nat) : List (Scope × Change) :=
  (List.range n).map (fun k => (.instant, .mem (.alloc (h + k) Config.parameterBlockBytes 0)))
def freeParams (h n : Nat) : List (Scope × Change) := (List.range n).map (fun k => (.instant, .mem (.free (h + k))))

/- Surfaces (R165). -/

/-- Bytes of a surface of w × h at its worst case. -/
def surfaceBytes (w h depth : Nat) : Nat :=
  let tiles := ceilDiv w 64 * (ceilDiv h 16 * 16 / 4)
  up4k (tiles * (if depth = 8 then 384 else 512) + ceilDiv tiles 2)

/- Stacks and FIFOs. -/

/-- Package of a stack (0 to 7 of D0 to D7, 8 and 9 of the IO dies). -/
def stackPkg (k : Nat) : Nat := if k < 8 then k / 4 else k - 8

/-- Stack of a site that is `Dn.HBM` or `Pn.HBM`. -/
def siteStack (c : Nat) : Nat := if siteKind c = 5 then siteDie c else 8 + siteDie c

/-- The pseudo-channel of a stack address (R308); the IO-die stacks are laid out as the global window (Table 14.3). -/
def pchOf (stack addr : Nat) : Nat :=
  let glob := 19 * 2 ^ 30
  let loc := 5 * 2 ^ 28
  if stack ≥ 8 ∨ addr < glob then let b := addr / 4096; (b + b / 32) % 32
  else
    let q := (addr - glob) / loc
    let b := (addr - glob - q * loc) / 4096
    8 * q + (b + b / 8) % 8

def State.stack (s : State) (k : Nat) : Stack := s.mem.hbms.getD k {}
def State.setStack (s : State) (k : Nat) (x : Stack) : State :=
  { s with mem := { s.mem with hbms := s.mem.hbms.put k x } }

/-- The IO or media die whose FIFO events a site's FIFOs raise (R329): source and package. -/
def fifoSource (site : Nat) : Nat × Nat :=
  match siteMediaDie site with
  | some d => (106 + d, pkgOfDie d)
  | none => let p := (sitePkg site).getD 0; (114 + p, p)

def fifoKey (site fifo : Nat) : Nat := site * 65536 + fifo

def State.fifo (s : State) (site fifo : Nat) : Fifo := s.mem.fifos.getD (fifoKey site fifo) {}
def State.setFifo (s : State) (site fifo : Nat) (x : Fifo) : State :=
  { s with mem := { s.mem with fifos := s.mem.fifos.put (fifoKey site fifo) x } }

/-- Data of a FIFO event (Table 14.14). -/
def fifoData (site fifo count : Nat) : Nat := dCode 88 32 site + dCode 72 16 fifo + dBits 40 32 count

def bump32 (n : Nat) : Nat := min (n + 1) (2 ^ 32 - 1)

/-- A single-bit error is read and corrected (R319): counted, and reported at most once a second per stack. -/
def State.hbmCorrected (s : State) (k : Nat) : State :=
  let x := s.stack k
  let (fire, lim) := x.correctedEvent.hit s.now (sec 1)
  let s1 := s.setStack k { x with corrected := x.corrected + 1, correctedEvent := lim }
  match fire with
  | some n => s1.raise (96 + k) 0x0004 (dBits 88 32 n) (stackPkg k)
  | none => s1

/-- A double-bit error is read (R319): counted and reported with its address. -/
def State.hbmUncorrected (s : State) (k addr : Nat) : State :=
  let x := s.stack k
  (s.setStack k { x with uncorrected := x.uncorrected + 1 }).raise (96 + k) 0x0005
    (dCode 112 8 (pchOf k addr) + dCode 48 64 addr) (stackPkg k)

/- The form of a FIFO (R320). -/

/-- Credits whose return has arrived are the producer's again. -/
def Fifo.landed (f : Fifo) (t : Instant) : Fifo :=
  { f with credits := f.credits + (f.returning.filter (fun x => decide (x ≤ t))).length, returning := f.returning.filter (fun x => decide (t < x)) }

/-- The producer writes a packet into a bank for which it holds the credit, and closes it: one notice for the whole packet. Without a credit it
waits, and nothing is written. -/
def Fifo.put (f : Fifo) (bankWords words : Nat) (t : Instant) : Fifo :=
  let g := f.landed t
  if 0 < g.credits ∧ 1 ≤ words ∧ words ≤ bankWords then { g with credits := g.credits - 1, closed := g.closed ++ [words] } else g

/-- The consumer reads words of the oldest packet notified; once it has drained the bank, the credit goes back. Answers also whether it has read
beyond the packet, which delivers nothing new (R321). -/
def Fifo.get (f : Fifo) (words : Nat) (t back : Instant) : Fifo × Bool :=
  let g := f.landed t
  match g.closed with
  | [] => (g, decide (0 < words))
  | n :: rest =>
    if g.read + words < n then ({ g with read := g.read + words }, false)
    else ({ g with closed := rest, read := 0, returning := g.returning ++ [t + back], packets := g.packets + 1 }, decide (n < g.read + words))

/-- The longest that a credit takes back, in ns (R320): by where the consumer's end lies. A replay or change of lanes of the inter-package link adds up
to 2,500 ns. -/
def creditBound (reach : Nat) : Nat := match reach with | 0 => 2 | 1 => 20 | _ => 160 + 2500

/-- A read beyond the packet notified (R321). -/
def State.fifoUnder (s : State) (site n : Nat) : State :=
  let f := s.fifo site n
  let (fire, lim) := f.underrunEvent.hit s.now (sec 1)
  let s1 := s.setFifo site n { f with underrun := true, underruns := bump32 f.underruns, underrunEvent := lim }
  match fire with
  | some c => s1.raise (fifoSource site).1 0x0004 (fifoData site n c) (fifoSource site).2
  | none => s1

/-- One happening of a transfer or a read. A word of a stack keeps its error until it is written or scrubbed. -/
def State.hap (s : State) (h : Hap) : State :=
  match h with
  | .fifoPut site n words => s.setFifo site n ((s.fifo site n).put (Config.fifoBankWords (siteSort site) n) words s.now)
  | .fifoGet site n words reach back =>
    let (f, beyond) := (s.fifo site n).get words s.now (ns (min back (creditBound reach)))
    let s1 := s.setFifo site n f
    if beyond then s1.fifoUnder site n else s1
  | .fifoUnderrun site n => s.fifoUnder site n
  | .fifoParity site n =>
    let f := s.fifo site n
    (s.setFifo site n { f with errors := bump32 f.errors }).raise (fifoSource site).1 0x0001 (fifoData site n 1) (fifoSource site).2
  | .fifoCorrected site n =>
    let f := s.fifo site n
    let (fire, lim) := f.eccEvent.hit s.now (sec 1)
    let s1 := s.setFifo site n { f with errors := bump32 f.errors, eccEvent := lim }
    match fire with
    | some c => s1.raise (fifoSource site).1 0x0002 (fifoData site n c) (fifoSource site).2
    | none => s1
  | .fifoUncorrected site n =>
    let f := s.fifo site n
    (s.setFifo site n { f with uncorrected := bump32 f.uncorrected }).raise (fifoSource site).1 0x0003
      (dCode 88 32 site + dCode 72 16 n) (fifoSource site).2
  | .hbmCorrected k addr =>
    let x := s.stack k
    (s.setStack k { x with flaws := x.flaws.put (addr / 8 * 8) 1 }).hbmCorrected k
  | .hbmUncorrected k addr =>
    let x := s.stack k
    (s.setStack k { x with flaws := x.flaws.put (addr / 8 * 8) 2 }).hbmUncorrected k addr

/-- Happenings of the reads of one command. -/
def State.haps (s : State) (l : List Hap) : State := l.foldl State.hap s

/- Real-time ports (R313). -/

/-- A port's read-ahead buffer and its levels, in bytes (Table 14.5). -/
structure RtPort where
  size : Nat
  low : Nat
  high : Nat
deriving DecidableEq, Repr, Inhabited

def composerPort : RtPort := { size := 32768, low := 8192, high := 16384 }
def crosspointPort : RtPort := { size := 16384, low := 4096, high := 8192 }

/-- A port within a task: the instant, the data buffered ahead, since when it asserts panic, and the spans in which it has. -/
structure PortRun where
  at_ : Instant
  level : Nat := 0
  since : Option Instant := none
  spans : List (Instant × Instant) := []
deriving DecidableEq, Repr, Inhabited

/-- The buffered data changes: panic rises below the low level and falls above the high level (R313). -/
def RtPort.step (p : RtPort) (stop : Instant) (r : PortRun) (x : Nat × Nat) : PortRun :=
  let t := min stop (r.at_ + ns x.1)
  let l := min p.size x.2
  match r.since with
  | none => { r with at_ := t, level := l, since := if l < p.low then some t else none }
  | some b => if p.high < l then { at_ := t, level := l, since := none, spans := r.spans ++ [(b, t)] } else { r with at_ := t, level := l }

/-- A port over a task from its start up to an instant. -/
def RtPort.run (p : RtPort) (trace : List (Nat × Nat)) (start stop : Instant) : PortRun := trace.foldl (p.step stop) { at_ := start }

/-- The spans of panic of a run, the open one up to an instant. -/
def PortRun.panicTo (r : PortRun) (stop : Instant) : List (Instant × Instant) :=
  r.spans ++ (match r.since with | some b => [(b, stop)] | none => [])

/-- A span joins others that stand in order and apart. -/
def joinSpan (x : Instant × Instant) : List (Instant × Instant) → List (Instant × Instant)
  | [] => [x]
  | y :: ys => if x.2 < y.1 then x :: y :: ys else if y.2 < x.1 then y :: joinSpan x ys else joinSpan (min x.1 y.1, max x.2 y.2) ys

/-- The real-time ports that a task reads through, with the quadrants whose memory they read: a composer's, or the crosspoint's in each quadrant whose
legs it mixes. -/
def readPorts (s : State) (i : Inst) : List (RtPort × Nat) :=
  match i.desc.op with
  | .compose _ => [(composerPort, siteQuad i.desc.unit)]
  | .mix => ((List.range 4).filter (fun q => s.audio.legs.any (fun l => l.1 / 2 ^ 11 == siteDie i.desc.unit && l.1 % 2 ^ 11 / 384 == q))).map (fun q => (crosspointPort, q))
  | _ => []

/-- The runs of a task's ports from its start to an instant, by quadrant. -/
def portRuns (s : State) (i : Inst) (start stop : Instant) : List (Nat × PortRun) :=
  (readPorts s i).map (fun p => (p.2, p.1.run (Config.readAhead i.desc.unit p.2 i.beat) start stop))

/-- A task ends: the spans in which its ports asserted panic stay with their quadrants. -/
def State.notePanic (s : State) (i : Inst) (start : Instant) : State :=
  let k := 4 * siteDie i.desc.unit
  { s with mem := { s.mem with panics := (portRuns s i start s.now).foldl (fun t r =>
      t.put (k + r.1) ((r.2.panicTo s.now).foldl (fun l x => joinSpan x l) (t.getD (k + r.1) []))) s.mem.panics } }

/-- The tasks of a die that are in service, with their starts. -/
def servingOf (p : Pool) : List (Inst × Instant) :=
  p.insts.filterMap (fun i => match i.phase with | .inService t => some (i, t) | _ => none)

/-- A port of a quadrant asserts panic. -/
def State.panics (s : State) (d q : Nat) : Bool :=
  (servingOf (s.pools.getD d {})).any (fun p => (portRuns s p.1 p.2 s.now).any (fun r => r.1 == q && r.2.since.isSome))

/-- Time in ns with panic asserted by any port of a quadrant. -/
def State.panicNs (s : State) (d q : Nat) : Nat :=
  let open_ := ((servingOf (s.pools.getD d {})).map (fun p => ((portRuns s p.1 p.2 s.now).filter (fun r => r.1 == q)).map (fun r => r.2.panicTo s.now))).flatten.flatten
  nsOf (sumN ((open_.foldl (fun l x => joinSpan x l) (s.mem.panics.getD (4 * d + q) [])).map (fun x => x.2 - x.1)))

/- Books (R324 to R326). Sites are numbered 0 to 7 for the media dies, 8 and 9 for the IO dies. -/

def bookKey (site book : Nat) : Nat := book * 16 + site

/-- The site holds the book (Table 14.9, R328). -/
def holdsBook (site book : Nat) : Bool := if site < 8 then book == 0 || book == 1 || book == 3 || book == 4 else decide (book < 4)

/-- Entries of the tables, slots of the pool and places of the ready queues of a media die: 24 tables of 1,024 entries, 8,192 slots, and 32 instances
for each of its 80 video and 128 audio units. -/
def dieDescriptors : Nat := 24 * 1024 + 8192 + 32 * (80 + 128)

/-- The levels of every bucket of an IO die (R140, R141, R143). -/
def State.bucketSum (s : State) (port : Nat) : Int :=
  let e := s.egress
  let legs := sumI ((e.legs.filter (fun p => p.2.cfg.port == port)).map (fun p => (p.2.bucketAt s.now).level))
  let classes := sumI ((e.ifaces.filter (fun p => p.1 / 8 == port)).map (fun p =>
    sumI ((List.range 9).map (fun k => (e.classBucketAt port (p.1 % 8) k s.now).level))))
  let policers := sumI ((e.policers.filter (fun p => p.1 / 2 ^ 19 == port)).map (fun p => let q := p.2.at s.now; q.c + q.e))
  legs + classes + policers

/-- What the rules say of the right side of a book: pool sizes, descriptors and buckets; the rest of a book's terms stands on FIFOs and links that are
not given by number. -/
def State.bookKnown (s : State) (site book : Nat) : Int :=
  match book with
  | 1 => if site < 8 then (sumN ((s.video.decodes.filter (fun p => p.1 / 2 ^ 11 % 8 == site)).map (fun p => p.2.cfg.auSlots)) : Nat) else (bufferCells : Nat)
  | 2 => s.bucketSum (site - 8)
  | 3 => if site < 8 then (dieDescriptors : Nat) else 0
  | _ => 0

/-- A part of a book that Table 14.9 names without a number. -/
def bookOpen (site book : Nat) : Bool := book == 0 || book == 1 || (book == 3 && decide (8 ≤ site))

/-- Both sides of a book's balance: expected (right) and total (left). -/
def State.bookSides (s : State) (site book : Nat) : Int × Int :=
  let err := s.mem.bookError.getD (bookKey site book) 0
  if book = 4 then
    let b := (s.pools.getD site {}).book
    ((b.received + b.carriedAdded + b.absorbed + b.discarded : Nat), (b.sent : Int) + err)
  else
    let e := s.bookKnown site book + (if bookOpen site book then (Config.bookExpected site book s.now : Nat) else 0)
    (e, e + err)

/-- An audit of one book (R326): BOOK_IMBALANCE is raised and counted when it is out of balance. -/
def State.auditBook (s : State) (site audit book : Nat) : State :=
  let (e, t) := s.bookSides site book
  if e = t then s
  else ({ s with mem := { s.mem with imbalances := s.mem.imbalances + 1 } }).raise (116 + site) 0x0001
    (dCode 112 8 book + dCode 104 8 audit + dInt 40 64 (e - t)) (stackPkg site)

/-- An audit of the books of a mask (R325); `audit` is 0 for a beat audit and 1 for one that a command orders. -/
def State.auditSite (s : State) (site audit mask : Nat) : State :=
  ((List.range 5).filter (fun k => mask.testBit k && holdsBook site k)).foldl (fun t k => t.auditBook site audit k) s

/-- A site that CMD_AUDIT names, numbered as above. -/
def auditPlace (site : Nat) : Nat := match siteMediaDie site with | some d => d | none => 8 + (sitePkg site).getD 0

/-- How long an audit of a site holds its grants, in ns (R325). -/
def auditHold (site : Nat) (t : Instant) : Nat := min 12 (Config.auditHeld site t)

/-- An audit that a command has ordered is still running on the site. -/
def State.auditRuns (s : State) (site : Nat) : Bool :=
  match s.mem.audits.find site with
  | some t => decide (s.now < t + ns (auditHold site t))
  | none => false

/-- An audit of a media die, ordered by a command or by the beat, holds its task starts (R325). -/
def State.startsHeld (s : State) (die : Nat) : Bool :=
  s.auditRuns (dieSite die) ||
  (match s.mem.beatAudits.find die with
   | some t => decide (s.now < t + ns (auditHold (dieSite die) t))
   | none => false)

/-- A read meets errors: each is counted, and the words keep them (R319, R327). -/
def State.meetErrors (s : State) (k : Nat) (fs : Tab Nat) : State :=
  let x := s.stack k
  let s1 := s.setStack k { x with flaws := fs.foldl (fun t f => t.put f.1 f.2) x.flaws }
  fs.foldl (fun (t : State) f => if f.2 = 2 then t.hbmUncorrected k f.1 else t.hbmCorrected k) s1

/- Changes. -/

def applyMem (c : MemChange) (s : State) : State :=
  match c with
  | .alloc h size quad =>
    let k := handleKind h * 16 + handleStack h
    let m := s.mem
    { s with mem := { m with buffers := m.buffers.put h { size := size, quad := quad }, nextIndex := m.nextIndex.put k (max (m.nextIndex.getD k 0) (h % 2 ^ 22 + 1)) } }
  | .free h =>
    { s with mem := { s.mem with buffers := s.mem.buffers.del h, contents := s.mem.contents.del h } }
  | .postponedReset k => s.setStack k { s.stack k with maxPostponed := 0 }
  | .audit site books =>
    let s1 := { s with mem := { s.mem with audits := s.mem.audits.put site s.now } }
    s1.auditSite (auditPlace site) 1 books
  | .readErrors k fs => s.meetErrors k fs

end Sys2Proof.Machine
end

