-- ==== Sys2Proof/Machine/PoolOps.lean ====
section
/-! DEFINITION. The task pool (R69 to R77): counts, notices, readiness, expiry and completion.
Corners of tasks: DEDUCED (log entries 19, 22). -/

namespace Sys2Proof.Machine

def poolSlots : Nat := 8192
def readyDepth : Nat := 32

def State.pool (s : State) (d : Nat) : Pool := s.pools.getD d {}
def State.setPool (s : State) (d : Nat) (p : Pool) : State := { s with pools := s.pools.put d p }
def State.modPool (s : State) (d : Nat) (f : Pool → Pool) : State := s.setPool d (f (s.pool d))
def State.esc (s : State) (n : Nat) : Escapement := s.escs.getD n {}
def State.setEsc (s : State) (n : Nat) (e : Escapement) : State := { s with escs := s.escs.put n e }
def State.modEsc (s : State) (n : Nat) (f : Escapement → Escapement) : State := s.setEsc n (f (s.esc n))

def Pool.inst (p : Pool) (id : Nat) : Option Inst := p.insts.find? (fun i => i.id == id)
def Pool.setInst (p : Pool) (x : Inst) : Pool := { p with insts := p.insts.map (fun i => if i.id = x.id then x else i) }
def Pool.drop (p : Pool) (id : Nat) : Pool := { p with insts := p.insts.filter (fun i => i.id != id) }

/-- The deadline of an instance, in whole ns (R76). -/
def Inst.deadline (i : Inst) : Instant := ns (nsOf i.beat + i.desc.deadline)

/-- The outcome byte of Table 3.3. -/
def Inst.outcome (i : Inst) (overrun : Bool) : Nat :=
  b2n i.expired + 2 * b2n i.inputsIncomplete + 4 * b2n i.predExpired + 8 * b2n overrun

/-- Source of a die's escapement events (R80). -/
def escSource (d : Nat) : Nat := 128 + 8 * d

/-- Raise an escapement event of a cluster (R80). -/
def State.escEvent (s : State) (t : Instant) (n code entry value : Nat) : State :=
  s.raiseAt t (escSource (clusterDie n)) code
    (dCode 88 32 (clusterSite n) + dCode 72 16 entry + dBits 40 32 value) (pkgOfDie (clusterDie n))

/-- Keep a cluster's trace of an instance (R79). -/
def State.traceInst (s : State) (i : Inst) (f : Trace → Trace) : State :=
  let e := s.esc i.cluster
  if e.trace.state == 2 && e.trace.inst == i.id then s.setEsc i.cluster { e with trace := f e.trace } else s

/-- The segment of an entry in a bank. -/
def Bank.segmentOf (b : Bank) (entry : Nat) : Option Segment :=
  b.segments.find? (fun g => decide (g.first ≤ entry ∧ entry < g.first + g.count))

/-- The first beat of a segment strictly after t (R62). -/
def Bank.nextOf (b : Bank) (g : Segment) (t : Instant) : Instant :=
  match b.slots[g.slot]? with
  | none => t
  | some gr =>
    let i := gr.indexAtOrAfter (t + 1)
    gr.beatAt (i + (g.phase + g.period - i % g.period) % g.period)

/-- The segment fires at the beat t. -/
def Bank.firesAt (b : Bank) (g : Segment) (t : Instant) : Bool :=
  match b.slots[g.slot]? with
  | none => false
  | some gr => gr.isBeat t && gr.indexOf t % g.period == g.phase

/-- An entry has been issued for the beat t: the cluster has walked it, and the entry is not among those a stall holds back. -/
def Escapement.hasIssued (e : Escapement) (entry : Nat) (t : Instant) : Bool :=
  decide (t ≤ e.lastBeat) && !(e.stallBeat == t && e.stalled.any (fun x => x.entry == entry))

/-- Mark an instance ready (R71): its count is zero. A task of the crosspoint starts at once (R72). -/
def Inst.makeReady (i : Inst) (t : Instant) : Inst :=
  { i with count := 0, phase := if i.desc.op == .mix then .inService t else .ready }

/-- A decrement on its way: cluster and entry, beat, whether it carries pred_expired. `kill` marks the one that an expired
fan-in JOIN sends: the instance it feeds expires with it (R402). -/
structure Decr where
  cluster : Nat
  entry : Nat
  beat : Instant
  pred : Bool
  /-- Stamp in whole ns (R76), and source number (Table 3.4). -/
  stamp : Instant
  source : Nat := 0
  kill : Bool := false
deriving DecidableEq, Repr, Inhabited

/-- The source number of a completion (Table 3.4). -/
def Inst.source (i : Inst) : Nat := match i.desc.op with | .join => 25 | .mix => 24 | _ => i.cluster % 24
def noticeSource : Nat := 26
def deadlineSource : Nat := 31

/-- The decrements that an instance's successor references send (Table 3.2), with the beats they name. References of a descriptor whose
successors' bank has been swapped since name the entries that now stand at those indexes: the spec does not say which tasks they name
(DESIGN CHOICE, log entry 70). -/
def State.decrs (s : State) (i : Inst) (pred : Bool) (stamp : Instant) (source : Nat) : List Decr :=
  (i.desc.succ.map (fun r =>
    (List.range r.count).map (fun k =>
      let c := clusterDie i.cluster * 24 + r.cluster
      let b := (s.esc c).active
      let beat := if r.nextBeat then (match b.segmentOf (r.first + k) with | some g => b.nextOf g i.beat | none => i.beat) else i.beat
      { cluster := c, entry := r.first + k, beat := beat, pred := pred, stamp := wholeNs stamp, source := source }))).flatten

/-- Post the completion record of an instance whose descriptor asks for one (R73). -/
def Pool.post (p : Pool) (i : Inst) (outcome : Nat) (start stop : Instant) (rest : List Nat) : Pool :=
  if i.desc.record then
    { p with records := p.records ++ [{ unit := i.desc.unit, entry := i.entry, cluster := i.cluster % 24, outcome := outcome, beat := i.beat, completed := stop, serviceNs := nsOf (stop - start), op := i.desc.op, rest := rest }] }
  else p

/-- The subject chapter's part of the record of a cancelled task: a decode that never ran has its stream and its backlog (Table 7.6). -/
def State.cancelRest (s : State) (op : Op) : List Nat :=
  match op with
  | .decode id => [id, 0, 0, 0, min 255 (match s.video.decodes.find id with | some y => y.backlog.length | none => 0), 0, 0, 0, 0, 0, 0, 0]
  | _ => []

/-- An instance expires at its deadline (R76): counted and reported. RUN_PARTIAL forces its count to zero; CANCEL ends it and its
successors are decremented at the deadline stamp. Answers the decrements sent. -/
def State.expire (s : State) (d : Nat) (i : Inst) (stamp : Instant) : State × List Decr :=
  let s1 := (s.modEsc i.cluster (fun e => { e with expired := bump32 e.expired })).escEvent stamp i.cluster 0x0002 i.entry i.count
  if i.desc.cancel then
    let x := { i with expired := true }
    let s2 := (s1.modPool d (fun p => (p.drop i.id).post x (x.outcome false) stamp stamp (s1.cancelRest i.desc.op))).traceInst i (fun t => { t with completed := stamp, outcome := x.outcome false })
    let s3 := match i.desc.op with
      | .decode id => { s2 with video := { s2.video with decodes := s2.video.decodes.modify id (fun y => { y with ctrs := { y.ctrs with expired := y.ctrs.expired + 1 } }) } }
      | _ => s2
    (s3, s3.decrs x true stamp deadlineSource)
  else
    let x := { (i.makeReady stamp) with inputsIncomplete := true }
    ((s1.modPool d (fun p => p.setInst x)).traceInst i
      (fun t => { t with ready := stamp, started := if i.desc.op == .mix then stamp else t.started }), [])

/-- A JOIN completes on the cycle it becomes ready (R72): its slot is freed and its successors are decremented. -/
def State.finishJoin (s : State) (d : Nat) (i : Inst) (stamp : Instant) : State × List Decr :=
  let tardy := decide (i.nextBeat < stamp)
  let s1 := (s.modPool d (fun p => p.drop i.id)).traceInst i
    (fun t => { t with ready := stamp, started := stamp, completed := stamp, outcome := i.outcome tardy })
  let s2 := if tardy then
      (s1.modEsc i.cluster (fun e => { e with overrun := bump32 e.overrun })).escEvent stamp i.cluster 0x0003 i.entry (nsOf (stamp - i.nextBeat))
    else s1
  (s2, s2.decrs i false stamp i.source)

/-- A count of the dependence book changes (Table 14.9). -/
def State.book (s : State) (d : Nat) (f : DepBook → DepBook) : State := s.modPool d (fun p => { p with book := f p.book })

/-- Add to an entry's carried count (R70). -/
def State.carry (s : State) (n entry k : Nat) : State :=
  s.modEsc n (fun e => { e with carried := e.carried.put entry (e.carried.getD entry 0 + k) })

/-- Instances of the die whose deadline lies before the stamp, and whose count is still above zero. -/
def Pool.overdue (p : Pool) (stamp : Instant) : Option Inst :=
  p.insts.find? (fun i => i.phase == .waiting && decide (0 < i.count) && decide (i.deadline < wholeNs stamp))

/-- An instance expires, and a JOIN that does so runs at once, taking the instances it feeds with it (R76, R402). -/
def State.expireNow (s : State) (d : Nat) (i : Inst) (stamp : Instant) : State × List Decr :=
  let (s1, ds) := s.expire d i stamp
  match (s1.pool d).inst i.id with
  | some j =>
    if j.desc.op == .join then
      let (s2, ds2) := s1.finishJoin d j stamp
      (s2, ds ++ ds2.map (fun x => { x with kill := true }))
    else (s1, ds)
  | none => (s1, ds)

/-- One decrement reaches the pool: it is received, absorbed or carried. Answers the decrements that it causes. -/
def State.landDecr (s : State) (d : Nat) (x : Decr) : State × List Decr :=
  let s0 := s.book d (fun b => { b with sent := b.sent + 1 })
  match (s0.pool d).insts.find? (fun i => i.cluster == x.cluster && i.entry == x.entry && i.beat == x.beat) with
  | some i =>
    if i.phase == .waiting && decide (0 < i.count) then
      if x.kill then (s0.book d (fun b => { b with absorbed := b.absorbed + 1 })).expireNow d i x.stamp
      else
        let i1 := { i with count := i.count - 1, predExpired := i.predExpired || x.pred }
        let s1 := s0.book d (fun b => { b with received := b.received + 1 })
        if i1.count ≠ 0 then (s1.modPool d (fun p => p.setInst i1), [])
        else if i1.desc.op == .join then s1.finishJoin d i1 x.stamp
        else
          let i2 := i1.makeReady x.stamp
          ((s1.modPool d (fun p => p.setInst i2)).traceInst i
            (fun t => { t with ready := x.stamp, started := if i2.desc.op == .mix then x.stamp else t.started }), [])
    else (s0.book d (fun b => { b with absorbed := b.absorbed + 1 }), [])
  | none =>
    if (s0.esc x.cluster).hasIssued x.entry x.beat then (s0.book d (fun b => { b with absorbed := b.absorbed + 1 }), [])
    else if x.kill then
      ((s0.modEsc x.cluster (fun e => { e with killed := e.killed ++ [(x.entry, x.beat)] })).book d (fun b => { b with absorbed := b.absorbed + 1 }), [])
    else ((s0.carry x.cluster x.entry 1).book d (fun b => { b with carriedAdded := b.carriedAdded + 1 }), [])

/-- Put a decrement behind those of an earlier stamp, or of an equal stamp and no higher source number (R75). -/
def insertDecr (x : Decr) : List Decr → List Decr
  | [] => [x]
  | y :: ys => if x.stamp < y.stamp ∨ (x.stamp = y.stamp ∧ x.source < y.source) then x :: y :: ys else y :: insertDecr x ys

/-- Process decrements in the order of their stamps and sources (R70, R72, R73, R75, R76), with those that they cause; `fuel` bounds their
number. An instance whose deadline lies before a decrement's stamp expires first. -/
def State.decrement (d : Nat) : Nat → List Decr → State → State
  | 0, _, s => s
  | _ + 1, [], s => s
  | fuel + 1, x :: rest, s =>
    match (s.pool d).overdue x.stamp with
    | some i =>
      let (s1, ds) := s.expireNow d i i.deadline
      State.decrement d fuel (ds.foldl (fun l y => insertDecr y l) (x :: rest)) s1
    | none =>
      let (s1, ds) := s.landDecr d x
      State.decrement d fuel (ds.foldl (fun l y => insertDecr y l) rest) s1

/-- More decrements than a die's instances can send at once. -/
def decrFuel : Nat := 100000

/-- The entry of an operation in a cluster's active bank. -/
def State.entryOf (s : State) (n : Nat) (op : Op) : Option Nat := (s.esc n).active.entries.findIdx? (fun e => e.op == op)

/-- A stream-buffer notice (R70, R160): it decrements the oldest issued instance of the entry that waits for one, or is carried. -/
def State.notice (s : State) (n entry : Nat) (stamp : Instant) : State :=
  let d := clusterDie n
  let wait := (s.pool d).insts.filter (fun i => i.cluster == n && i.entry == entry && i.noticePending && i.phase == .waiting &&
    decide (0 < i.count) && decide (wholeNs stamp ≤ i.deadline))
  match wait.foldl (fun a i => match a with | none => some i | some (j : Inst) => if i.beat < j.beat then some i else some j) none with
  | some i =>
    let s1 := s.modPool d (fun p => p.setInst { i with noticePending := false })
    s1.decrement d decrFuel [{ cluster := n, entry := entry, beat := i.beat, pred := false, stamp := wholeNs stamp, source := noticeSource }]
  | none =>
    (s.carry n entry 1).book d (fun b => { b with sent := b.sent + 1, carriedAdded := b.carriedAdded + 1 })

/-- Remove up to k carried notices of an entry, which the discard of access units does (R164, R175). -/
def State.uncarry (s : State) (n entry k : Nat) : State :=
  let have_ := (s.esc n).carried.getD entry 0
  let m := min k have_
  (s.modEsc n (fun e => { e with carried := if have_ - m = 0 then e.carried.del entry else e.carried.put entry (have_ - m) })).book
    (clusterDie n) (fun b => { b with carriedAdded := b.carriedAdded - m, discarded := b.discarded + m })

/-- An instance in service completes now (R73, R74, R313): record, overrun, its successors' counts, its slot. -/
def State.complete (s : State) (d : Nat) (i : Inst) (rest : List Nat) : State :=
  let start := match i.phase with | .inService t => t | _ => s.now
  let tardy := decide (i.nextBeat < s.now)
  let s1 := ((s.notePanic i start).modPool d (fun p => (p.drop i.id).post i (i.outcome tardy) start s.now rest)).traceInst i
    (fun t => { t with completed := s.now, outcome := i.outcome tardy })
  let s2 := if tardy then
      (s1.modEsc i.cluster (fun e => { e with overrun := bump32 e.overrun })).escEvent s.now i.cluster 0x0003 i.entry (nsOf (s.now - i.nextBeat))
    else s1
  s2.decrement d decrFuel (s2.decrs i false s.now i.source)

/-- The instance of a die that is in service with the operation that a completion row names. -/
def State.inService (s : State) (d id : Nat) : Option Inst :=
  match (s.pool d).inst id with
  | some i => match i.phase with | .inService _ => some i | _ => none
  | none => none

end Sys2Proof.Machine
end

