-- ==== Sys2Proof/Machine/SchedOps.lean ====
section
/-! DEFINITION. The compiled tables (R59, R62, R66 to R69, R402): what each cluster's bank holds for a configuration, and the
checks that firmware makes on it.
Placement, admission and tables: DEDUCED (log entries 22, 23, 25). -/

namespace Sys2Proof.Machine

/- Costs of the subject chapters. -/

def ceil16 (n : Nat) : Nat := ceilDiv n 16 * 16

/-- Luma samples charged for the layer k steps below the top (R157). -/
def layerPx (c : DecodeCfg) (k : Nat) : Nat := ceil16 (ceilDiv c.maxWidth (2 ^ k)) * ceil16 (ceilDiv c.maxHeight (2 ^ k))

/-- 4 × the charged pixels of a picture, exact (R157: the factor 5/4 of 10-bit streams). -/
def charged4 (c : DecodeCfg) : Nat :=
  sumN ((List.range c.spatialLayers).map (layerPx c)) * (if c.bitDepth = 10 then 5 else 4)

/-- Charged pixels; the sum is a multiple of 256, so the factor 5/4 leaves a whole number. -/
def charged (c : DecodeCfg) : Nat := charged4 c / 4

/-- The service field of a decode entry (R157), ns. -/
def decodeService (c : DecodeCfg) : Nat := 1000 + ceilDiv (5 * charged c) 2

/-- Source pixels beyond the pixels drawn, over the enabled video layers (R177). -/
def pxExtra (o : Output) : Nat :=
  sumN (o.layers.map (fun p => if p.2.cfg.enabled && p.2.cfg.kind == 0 then
    p.2.cfg.cropW * p.2.cfg.cropH - p.2.cfg.dstW * p.2.cfg.dstH else 0))

/-- Pixels that a composition is charged (R177). -/
def composePx (o : Output) : Nat := o.cfg.width * o.cfg.height + ceilDiv (pxExtra o) 2
def composeService (o : Output) : Nat := 2000 + composePx o
def composeCharge (o : Output) : Nat := composePx o * o.cfg.frameRate

/-- Tile sizes of a leg: one for a single unit, four for a gang (R210), in raster order. -/
def encodeTiles (c : EncodeCfg) : List (Nat × Nat) :=
  if !c.gang then [(c.codedWidth, c.codedHeight)]
  else
    let w := 64 * ceilDiv (ceilDiv c.codedWidth 64) 2
    let h := 64 * ceilDiv (ceilDiv c.codedHeight 64) 2
    [(w, h), (c.codedWidth - w, h), (w, c.codedHeight - h), (c.codedWidth - w, c.codedHeight - h)]

/-- Units of a leg, in tile order. -/
def encodeUnits (c : EncodeCfg) : List Nat := if c.gang then c.unit :: c.gangUnits else [c.unit]

/-- Pixels that member k codes per frame. -/
def tilePx (c : EncodeCfg) (k : Nat) : Nat := let t := nth (encodeTiles c) k (0, 0); t.1 * t.2

/-- The service field of an ENCODE entry (R205). -/
def encodeService (c : EncodeCfg) (k : Nat) : Nat := 2000 + 4 * tilePx c k
/-- The service field of GANG_FINISH (R211). -/
def gangService (c : EncodeCfg) : Nat := 1000 + 64 * (c.codedWidth + c.codedHeight)

/-- Cycles of the decode stage of a codec (Table 10.2). -/
def decodeCycles (codec : Nat) : Nat := match codec with | 5 => 60000 | 8 => 12000 | _ => 1500
def encodeCycles (codec : Nat) : Nat := match codec with | 5 => 125000 | 8 => 18000 | _ => 2500
def stageCycles (x : Stages) : Nat :=
  (if x.eq.isSome then 3000 else 0) + (if x.ns.isSome then 40000 else 0) + (if x.agc.isSome then 4000 else 0)

/-- Cycles per beat of the receive and of the send path (Table 10.2). -/
def rxCycles (l : AudioLeg) : Nat := 2000 + decodeCycles l.cfg.codec + 8500 + 24000 + stageCycles l.rx + 1500
def txCycles (l : AudioLeg) : Nat := 1000 + stageCycles l.tx + 8000 + encodeCycles l.cfg.codec
/-- The service field of an audio entry (R228). -/
def audioService (cycles : Nat) : Nat := 1000 + ceilDiv (cycles * 669) 1000
/-- The catch-up reserve of a unit's legs, in cycles (R228). -/
def audioReserve (ls : List AudioLeg) : Nat := maxN (ls.map (fun l => decodeCycles l.cfg.codec))

/-- Unit of a leg: leg index 12 × (16 × (2q + a) + u) + s (R221). -/
def legDie (id : Nat) : Nat := id / 2 ^ 11
def legIndex (id : Nat) : Nat := id % 2 ^ 11
def legSlot (id : Nat) : Nat := legIndex id % 12
def legUnit (id : Nat) : Nat :=
  let n := legIndex id / 12
  mkSite 8 (legDie id) (n / 32) (4 + n / 16 % 2) (n % 16) 0
def legCluster (id : Nat) : Nat := clusterNo (legUnit id)

/-- Nodes that a die's crosspoint holds. -/
def State.xp (s : State) (d : Nat) : Crosspoint := s.audio.xps.getD d {}
/-- Ports of the crosspoint, and the number of a node: 1,664 × input + output. -/
def xpPorts : Nat := 1664
def xpNode (i o : Nat) : Nat := xpPorts * i + o
/-- The service field of MIX (R244). -/
def mixService (s : State) (d : Nat) : Nat := 40000 + 250 * ceilDiv ((s.xp d).nodes.length - 1024) 1024

/- Entries. -/

/-- An entry before layout: where it fires, its descriptor without references, and its references by what they name: next beat,
cluster, operation and unit. -/
structure Raw where
  grid : Grid
  period : Nat := 1
  phase : Nat := 0
  desc : Descriptor
  succ : List (Bool × Nat × Op × Nat) := []
deriving DecidableEq, Repr, Inhabited

def noUnit : Nat := 0xFFFFFFFF

/-- The decode entry of a stream (R163). -/
def rawDecode (p : Nat × DecodeStream) : Raw :=
  let c := p.2.cfg
  { grid := .video p.2.gridRate, period := p.2.gridRate / max 1 c.frameRate, phase := p.2.phase,
    desc := { unit := c.unit, op := .decode p.1, depCount := 1, cancel := true, notice := true, record := true,
              deadline := c.deadlineOffset, service := decodeService c, inHandle := p.2.streamBuffer,
              outHandle := (p.2.outs.find? (· != 0)).getD 0, paramHandle := p.2.params } }

/-- The direct encode leg of an output. -/
def directLeg (s : State) (out : Nat) : Option (Nat × EncodeLeg) :=
  s.video.encodes.find? (fun p => !p.2.cfg.memory && p.2.cfg.source == out)

/-- The COMPOSE entry of an output (R177). -/
def rawCompose (s : State) (p : Nat × Output) : Raw :=
  let c := p.2.cfg
  { grid := .video c.frameRate,
    desc := { unit := c.unit, op := .compose p.1, record := true, deadline := 1000000000 / c.frameRate,
              service := composeService p.2, outHandle := p.2.memoryPair, paramHandle := c.params },
    succ := match directLeg s p.1 with
      | some l => [(false, clusterNo c.unit, .encode l.1 0, l.2.cfg.unit)]
      | none => [] }

/-- The ENCODE entry of member k of a leg (R201, R202, R210). -/
def rawEncode (p : Nat × EncodeLeg) (k : Nat) : Raw :=
  let c := p.2.cfg
  { grid := .video c.frameRate,
    desc := { unit := nth (encodeUnits c) k 0, op := .encode p.1 k, depCount := b2n (!c.memory), record := !c.gang,
              deadline := 1000000000 / c.frameRate, service := encodeService c k, inHandle := p.2.inputHandle,
              outHandle := p.2.bitstream, paramHandle := p.2.params + k },
    succ := if c.gang then [(false, clusterNo c.unit, .gangFinish p.1, c.unit)] else [] }

/-- The GANG_FINISH entry of a ganged leg (R211). -/
def rawGang (p : Nat × EncodeLeg) : Raw :=
  let c := p.2.cfg
  { grid := .video c.frameRate,
    desc := { unit := c.unit, op := .gangFinish p.1, depCount := 4, record := true, deadline := 1000000000 / c.frameRate,
              service := gangService c, outHandle := p.2.bitstream, paramHandle := p.2.params + 4 } }

/-- Two lists taken in turn. -/
def alternate {α : Type} : Nat → List α → List α → List α
  | 0, a, b => a ++ b
  | f + 1, a, b =>
    match a, b with
    | x :: xs, y :: ys => x :: y :: alternate f xs ys
    | a, b => a ++ b

/-- A composer's outputs in firmware's order: alternately for enc0 and enc1 (R206), then those without an encoder. -/
def outputOrder (s : State) (n : Nat) : List (Nat × Output) :=
  let os := s.video.outputs.filter (fun p => clusterNo p.2.cfg.unit == n)
  let e0 := os.filter (fun p => p.2.cfg.encoder == 0)
  let e1 := os.filter (fun p => p.2.cfg.encoder == 1)
  alternate e0.length e0 e1 ++ os.filter (fun p => p.2.cfg.encoder != 0 && p.2.cfg.encoder != 1)

/-- Entries of a video cluster, without test windows. -/
def videoRaws (s : State) (n : Nat) : List Raw :=
  ((s.video.decodes.filter (fun p => clusterNo p.2.cfg.unit == n)).map rawDecode) ++
  ((outputOrder s n).map (rawCompose s)) ++
  (s.video.encodes.map (fun p =>
    ((List.range (encodeUnits p.2.cfg).length).filter (fun k => clusterNo (nth (encodeUnits p.2.cfg) k 0) == n)).map
      (rawEncode p))).flatten ++
  ((s.video.encodes.filter (fun p => p.2.cfg.gang && clusterNo p.2.cfg.unit == n)).map rawGang)

/-- Audio legs of a cluster, by index. -/
def clusterLegs (s : State) (n : Nat) : List (Nat × AudioLeg) := s.audio.legs.filter (fun p => legCluster p.1 == n)

/-- Audio clusters of a die that hold legs, in ascending number. -/
def audioClusters (s : State) (d : Nat) : List Nat :=
  ((List.range 24).map (24 * d + ·)).filter (fun n => clusterIsAudio n && !(clusterLegs s n).isEmpty)

/-- The cluster that carries the die's MIX entry: the first audio cluster that holds legs. -/
def mixHost (s : State) (d : Nat) : Option Nat := (audioClusters s d).head?

/-- Deadline of MIX and of every JOIN of its fan-in tree (R244). -/
def mixDeadline (s : State) (d : Nat) : Nat := 2500000 - mixService s d

/-- The parameter block of a die's MIX, which firmware keeps from the start on: the last index of its kind (DESIGN CHOICE, log entry 70). -/
def mixParams (d : Nat) : Nat := 0x0B * 2 ^ 26 + d * 2 ^ 22 + (2 ^ 22 - 1)

/-- The RECEIVE entry of a leg (R222). -/
def rawReceive (n : Nat) (p : Nat × AudioLeg) : Raw :=
  { grid := .audio,
    desc := { unit := legUnit p.1, op := .receive p.1, record := true, deadline := 2500000,
              service := audioService (rxCycles p.2), inHandle := p.2.jitterBuffer, outHandle := p.2.stateHandle, paramHandle := p.2.params },
    succ := [(false, n, .join, noUnit)] }

/-- The SEND entry of a leg (R222). -/
def rawSend (p : Nat × AudioLeg) : Raw :=
  { grid := .audio,
    desc := { unit := legUnit p.1, op := .send p.1, depCount := 1, record := true, deadline := p.2.cfg.sendDeadline,
              service := audioService (txCycles p.2), inHandle := p.2.stateHandle, outHandle := p.2.bitstream, paramHandle := p.2.params + 1 } }

/-- The JOIN over a cluster's RECEIVE entries (R244, R402). -/
def rawJoin (s : State) (n host : Nat) : Raw :=
  { grid := .audio,
    desc := { unit := noUnit, op := .join, depCount := (clusterLegs s n).length, deadline := mixDeadline s (clusterDie n) },
    succ := [(false, host, .mix, xpSite (clusterDie n))] }

/-- The MIX entry of a die (R244). -/
def rawMix (s : State) (d : Nat) : Raw :=
  { grid := .audio,
    desc := { unit := xpSite d, op := .mix, depCount := (audioClusters s d).length, deadline := mixDeadline s d,
              service := mixService s d, paramHandle := mixParams d },
    succ := (s.audio.legs.filter (fun p => legDie p.1 == d)).map (fun p => (true, legCluster p.1, .send p.1, legUnit p.1)) }

/-- Entries of an audio cluster (R222, R244, R402): RECEIVE and SEND of each leg, one JOIN over the cluster's RECEIVE entries,
and in the host cluster the die's MIX, whose predecessors are the clusters' JOINs. -/
def audioRaws (s : State) (n : Nat) : List Raw :=
  let ls := clusterLegs s n
  let host := (mixHost s (clusterDie n)).getD n
  if ls.isEmpty then []
  else ls.map (rawReceive n) ++ ls.map rawSend ++ [rawJoin s n host] ++
    (if host == n then [rawMix s (clusterDie n)] else [])

def dedup {α : Type} [BEq α] (l : List α) : List α := l.foldl (fun a x => if a.contains x then a else a ++ [x]) []

/- Beats of a table. -/

/-- The beat of an instant is one on which a segment fires (R62). -/
def Raw.fires (r : Raw) (t : Instant) : Bool := r.grid.isBeat t && r.grid.indexOf t % r.period == r.phase

/-- Beats of TAI second 0 on which a raw entry fires. -/
def Raw.beats (r : Raw) : List Instant :=
  ((List.range r.grid.rate).filter (fun i => i % r.period == r.phase)).map r.grid.beatAt

/-- Interval in ns from a beat to the next beat of any of the grids. -/
def gapAfter (gs : List Grid) (t : Instant) : Nat := match nextBeat gs t with | some u => nsOf (u - t) | none => 0

/-- The instant in ns from the beat at which an entry of an encode unit may start (R206): the end of its composition for a direct leg. -/
def encodeReady (comps : List (Nat × Nat)) (legSource : Nat → Option Nat) (r : Raw) : Nat :=
  match r.desc.op with
  | .encode l _ =>
    match legSource l with
    | some o => ((comps.find? (fun c => c.1 == o)).map (·.2)).getD 0
    | none => 0
  | _ => 0

/-- Put an entry behind those that are ready earlier or at the same instant. -/
def insertReady (x : Nat × Nat) : List (Nat × Nat) → List (Nat × Nat)
  | [] => [x]
  | y :: ys => if x.1 < y.1 then x :: y :: ys else y :: insertReady x ys

/-- The model of R206 over the entries issued at one beat, in the order in which they become ready, which is that of the compositions. `comps` are
(output, end of composition). Answers the end of the last entry, of a unit that is free from t on. -/
def encodeModel (comps : List (Nat × Nat)) (legSource : Nat → Option Nat) (rs : List Raw) (t : Nat) : Nat :=
  (rs.foldl (fun a r => insertReady (encodeReady comps legSource r, r.desc.service) a) []).foldl (fun u p => max p.1 u + p.2) t

/-- Ends of the compositions issued at a beat, in entry order (R206). -/
def composeEnds : List Raw → Nat → List (Nat × Nat)
  | [], _ => []
  | r :: rs, t =>
    match r.desc.op with
    | .compose o => (o, t + r.desc.service) :: composeEnds rs (t + r.desc.service)
    | _ => composeEnds rs t

/-- The output that feeds a direct leg. -/
def legSourceOf (s : State) (l : Nat) : Option Nat :=
  match s.video.encodes.find l with
  | some x => if x.cfg.memory then none else some x.cfg.source
  | none => none

/-- Time in ns that the entries issued at a beat keep a unit busy, by the beat check of R67 with the additions of R158, R206 and
R228. -/
def unitWork (s : State) (raws : List Raw) (u : Nat) (t : Instant) : Nat :=
  let mine := (raws.filter (fun r => r.desc.unit == u)).filter (fun r => r.fires t)
  let sum := sumN (mine.map (·.desc.service))
  if isEnc u then
    let win := sumN ((mine.filter (fun r => r.desc.op == .testWindow)).map (·.desc.service))
    win + encodeModel (composeEnds (raws.filter (fun r => r.fires t)) 0) (legSourceOf s) (mine.filter (fun r => r.desc.op != .testWindow)) 0
  else if isDec u then
    sum + maxN ((mine.filter (fun r => r.desc.op != .testWindow)).map (·.desc.deadline))
  else if isAu u then
    sum + ceilDiv (audioReserve ((s.audio.legs.filter (fun p => legUnit p.1 == u)).map (·.2)) * 669) 1000
  else sum

/-- One entry for each pattern of beats. -/
def patterns : List Raw → List Raw → List Raw
  | [], acc => acc
  | r :: rs, acc => if acc.any (fun q => q.grid == r.grid && q.period == r.period && q.phase == r.phase) then patterns rs acc else patterns rs (acc ++ [r])

/-- The largest excess of a unit's work over the time to the cluster's next beat, over the beats of a second on which it has
entries (R67); negative is room to spare. None where it has no entry. -/
def unitExcess (s : State) (raws : List Raw) (u : Nat) : Option Int :=
  let gs := dedup (raws.map (·.grid))
  let beats := ((patterns (raws.filter (fun r => r.desc.unit == u)) []).map Raw.beats).flatten
  (beats.map (fun t => (unitWork s raws u t : Int) - (gapAfter gs t : Int))).foldl
    (fun a e => match a with | none => some e | some x => some (max x e)) none

/- Test windows (R78, R374). -/

/-- The units of a cluster. -/
def clusterUnits (n : Nat) : List Nat :=
  (List.range (if clusterIsAudio n then 16 else 5)).map (unitSite n)

/-- Window length in an audio cluster: 50,000 ns on every fourth beat, which is 10,000,000 ns. -/
def audioWindow : Nat := 50000

/-- The fastest of the grids. -/
def fastest : List Grid → Option Grid
  | [] => none
  | g :: gs => some (gs.foldl (fun a b => if a.rate < b.rate then b else a) g)

/-- Test windows of a cluster whose other entries are `raws`. A cluster without a bound grid slot has none. In a video cluster the
windows fire with the fastest grid, 50,000 ns for each 10,000,000 ns of its interval, up to 200,000 ns, as far as the unit's
beats have room. -/
def windowRaws (s : State) (n : Nat) (raws : List Raw) : List Raw :=
  if raws.isEmpty then []
  else if clusterIsAudio n then
    (clusterUnits n).map (fun u => { grid := .audio, period := 4, phase := 2, desc := { unit := u, op := .testWindow, deadline := 2500000, service := audioWindow } })
  else
    match fastest (dedup (raws.map (·.grid))) with
    | none => []
    | some g =>
      let interval := 1000000000 / g.rate
      let want := min 200000 (50000 * ceilDiv interval 10000000)
      let gap := ((List.range g.rate).map (fun i => gapAfter (dedup (raws.map (·.grid))) (g.beatAt i))).foldl min interval
      ((clusterUnits n).map (fun u =>
        let room := match unitExcess s raws u with | none => gap | some e => (-e).toNat
        (u, min want room))).filterMap (fun p =>
        if p.2 = 0 then none
        else some { grid := g, desc := { unit := p.1, op := .testWindow, deadline := interval, service := p.2 } })

/-- Every entry of a cluster. -/
def clusterRaws (s : State) (n : Nat) : List Raw :=
  let raws := if clusterIsAudio n then audioRaws s n else videoRaws s n
  windowRaws s n raws ++ raws

/- Layout (R62). Each test window is first in its segment (R78): it has one of its own, and those segments come before the others, so that a unit's
window starts before its work (R71). -/

def Raw.isWindow (r : Raw) : Bool := r.desc.op == .testWindow
def Raw.key (r : Raw) : Nat × Grid × Nat × Nat := (if r.isWindow then r.desc.unit else 0, r.grid, r.period, r.phase)

def segKeys (raws : List Raw) : List (Nat × Grid × Nat × Nat) := dedup (raws.map Raw.key)

/-- The entries in index order. Segments and slots stand in the order in which `clusterRaws` first needs them, entries by kind and object number:
the rules of the Synrov toolchain (R59) are not printed (DESIGN CHOICE, log entry 70). -/
def ordered (raws : List Raw) : List Raw := ((segKeys raws).map (fun k => raws.filter (fun r => r.key == k))).flatten

/-- Index of an entry by what it is. -/
def indexIn (l : List Raw) (op : Op) (u : Nat) : Option Nat :=
  l.findIdx? (fun r => r.desc.op == op && r.desc.unit == u)

/-- Merge references to consecutive entries into runs (Table 3.2). -/
def runs : List (Bool × Nat × Nat) → List SuccRef
  | [] => []
  | (nb, c, i) :: rest =>
    match runs rest with
    | [] => [{ nextBeat := nb, cluster := c, first := i }]
    | r :: rs =>
      if r.nextBeat == nb && r.cluster == c && r.first == i + 1 then { r with first := i, count := r.count + 1 } :: rs
      else { nextBeat := nb, cluster := c, first := i } :: r :: rs

/-- The segments of ordered entries. -/
def segmentsOf (raws : List Raw) (slots : List Grid) : List Segment :=
  ((segKeys raws).foldl (fun (a : List Segment × Nat) k =>
    let n := (raws.filter (fun r => r.key == k)).length
    (a.1 ++ [{ slot := slots.findIdx (· == k.2.1), period := k.2.2.1, phase := k.2.2.2, first := a.2, count := n }], a.2 + n))
    ([], 0)).1

/-- The bank of a cluster for the configuration of a state. References name clusters by their code within the die. -/
def compileCluster (s : State) (n : Nat) : Bank :=
  let raws := clusterRaws s n
  let slots := dedup (raws.map (·.grid))
  let entries := (ordered raws).map (fun r =>
    let refs := r.succ.filterMap (fun x => (indexIn (ordered (clusterRaws s x.2.1)) x.2.2.1 x.2.2.2).map (fun i => (x.1, x.2.1 % 24, i)))
    { r.desc with succ := runs refs })
  { entries := entries, segments := segmentsOf raws slots, slots := slots }

/- The checks of R67, in the order of its table. -/

def tableFullDetail (b : Bank) : Nat :=
  if 1024 < b.entries.length then 1 else if 64 < b.segments.length then 2 else if 8 < b.slots.length then 3 else 0

/-- References to entry i of cluster code c in a die's banks. -/
def predecessors (banks : List Bank) (c i : Nat) : Nat :=
  sumN (banks.map (fun b => sumN (b.entries.map (fun d =>
    (d.succ.filter (fun r => r.cluster == c && decide (r.first ≤ i ∧ i < r.first + r.count))).length))))

/-- Rank of an operation: references within a beat go to higher ranks only, so they form no cycle. -/
def Op.rank : Op → Nat
  | .testWindow => 0 | .decode _ => 0 | .compose _ => 0 | .encode _ _ => 1 | .gangFinish _ => 2
  | .receive _ => 0 | .join => 1 | .mix => 2 | .send _ => 3

/-- The dependence rules of R67 hold for a cluster's bank. -/
def depsOk (banks : List (Nat × Bank)) (p : Nat × Bank) : Bool :=
  ((List.range p.2.entries.length).zip p.2.entries).all (fun e =>
    decide (e.2.depCount = predecessors (banks.map (·.2)) (p.1 % 24) e.1 + b2n e.2.notice) && decide (e.2.depCount ≤ 255) &&
    decide (e.2.succ.length ≤ 8) &&
    (!(e.2.op == .join || e.2.op == .mix) || decide (1 ≤ e.2.depCount)) &&
    e.2.succ.all (fun r => r.nextBeat || (match banks.find? (fun b => b.1 % 24 == r.cluster) with
      | some b => match b.2.entries[r.first]? with | some d => decide (e.2.op.rank < d.op.rank) | none => false
      | none => false)))

/-- Instances of an entry that hold a pool slot at instant t (R69): issued at beat − 100,000 ns, until beat + deadline. -/
def liveAt (r : Raw) (t : Instant) : Nat :=
  -- beats B with t − deadline < B ≤ t + walkLead
  let lo := r.grid.indexAtOrAfter (t + 1 - ns r.desc.deadline)
  let hi := r.grid.indexAtOrAfter (t + walkLead + 1)
  ((List.range (hi - lo)).filter (fun k => (lo + k) % r.period == r.phase)).length

/-- Issue instants of an entry over TAI second 1. -/
def Raw.issues (r : Raw) : List Instant :=
  ((List.range r.grid.rate).filter (fun j => (r.grid.rate + j) % r.period == r.phase)).map
    (fun j => r.grid.beatAt (r.grid.rate + j) - walkLead)

/-- Every entry of a die. -/
def dieRaws (s : State) (d : Nat) : List Raw := ((List.range 24).map (fun c => clusterRaws s (24 * d + c))).flatten

/-- Entries that are issued on the same beats and live equally long hold the same slots; how many there are of each kind. -/
def Raw.alike (q r : Raw) : Bool := q.grid == r.grid && q.period == r.period && q.phase == r.phase && q.desc.deadline == r.desc.deadline
def tally : List Raw → List (Raw × Nat) → List (Raw × Nat)
  | [], acc => acc
  | r :: rs, acc =>
    if acc.any (fun q => q.1.alike r) then tally rs (acc.map (fun q => if q.1.alike r then (q.1, q.2 + 1) else q)) else tally rs (acc ++ [(r, 1)])

/-- The bound of R69: the largest count over the issue instants of one TAI second. -/
def poolBound (s : State) (d : Nat) : Nat :=
  let raws := dieRaws s d
  let starts := ((patterns raws []).map Raw.issues).flatten
  maxN (starts.map (fun t => sumN ((tally raws []).map (fun r => r.2 * liveAt r.1 t))))

/-- The unit of largest excess among some clusters, and the excess (R67); the lowest site code on equal excesses. -/
def worstExcess (s : State) (clusters : List Nat) : Option (Nat × Int) :=
  (clusters.map (fun n =>
    let raws := clusterRaws s n
    (dedup (raws.map (fun r => r.desc.unit))).filterMap (fun u => (unitExcess s raws u).map (fun e => (u, e))))).flatten.foldl
    (fun a p => match a with
      | none => some p
      | some b => if b.2 < p.2 ∨ (b.2 = p.2 ∧ p.1 < b.1) then some p else some b) none

/- Fabric capacity (R20, R21). -/

/-- An end of a committed flow: a quadrant's units, memory spread over a die's stack, a die's crosspoint, an IO die. -/
inductive Loc where
  | quad (die q : Nat) | stack (die : Nat) | xp (die : Nat) | io (pkg : Nat)
deriving DecidableEq, Repr, Inhabited

/-- A committed flow: its class and rate in bit/s. -/
structure Flow where
  realTime : Bool
  bps : Nat
  src : Loc
  dst : Loc
deriving DecidableEq, Repr, Inhabited

def Loc.die : Loc → Option Nat
  | .quad d _ => some d | .stack d => some d | .xp d => some d | .io _ => none
def Loc.pkg : Loc → Nat
  | .quad d _ => pkgOfDie d | .stack d => pkgOfDie d | .xp d => pkgOfDie d | .io p => p

/-- Quarters of a flow that cross the stop of quadrant (d, q) at the end `a`, when `b` is the other end. A stack's blocks are
spread evenly over its four quadrants (R308). -/
def Loc.quarters (a b : Loc) (d q : Nat) : Nat :=
  match a with
  | .quad e r => if e = d ∧ r = q then (match b with | .stack g => if g = d then 3 else 4 | .quad g t => if g = d ∧ t = q then 0 else 4 | _ => 4) else 0
  | .stack e => if e = d then (match b with | .quad g t => if g = d ∧ t = q then 0 else 1 | _ => 1) else 0
  | _ => 0

/-- A segment of the fabric in one direction (Table 1.4). -/
inductive Link where
  | into (die q : Nat) | out (die q : Nat) | up (die : Nat) | down (die : Nat) | ipl (from_ : Nat)
deriving DecidableEq, Repr, Inhabited

/-- Quarters of a flow's rate that a segment carries. -/
def Flow.on (f : Flow) : Link → Nat
  | .into d q => f.dst.quarters f.src d q
  | .out d q => f.src.quarters f.dst d q
  | .up d => if f.src.die = some d ∧ f.dst.die ≠ some d then 4 else 0
  | .down d => if f.dst.die = some d ∧ f.src.die ≠ some d then 4 else 0
  | .ipl p => if f.src.pkg = p ∧ f.dst.pkg ≠ p then 4 else 0

/-- A direction of the inter-package link, by the package that transmits. -/
def PortsState.ipl (p : PortsState) (from_ : Nat) : IplDir := if from_ = 0 then p.ipl0 else p.ipl1

/-- Payload capacity per direction in bit/s (Table 1.4); a direction of the inter-package link may be narrowed, and both stop
together (R342). -/
def Link.capacity (s : State) : Link → Nat
  | .into _ _ => 400000000000 | .out _ _ => 400000000000
  | .up _ => 800000000000 | .down _ => 800000000000
  | .ipl p =>
    if s.ports.ipl0.down || s.ports.ipl1.down then 0
    else if (s.ports.ipl p).narrowed then 800000000000 else 1600000000000

def allLinks : List Link :=
  ((List.range 8).map (fun d => [Link.up d, Link.down d] ++ ((List.range 4).map (fun q => [Link.into d q, Link.out d q])).flatten)).flatten ++
  [.ipl 0, .ipl 1]

def quadOf (u : Nat) : Loc := .quad (siteDie u) (siteQuad u)

/-- Bits per pixel of a surface, uncompressed: 4:2:0 at 8 or 10 bits, or a graphic's four bytes. -/
def sourceBits (s : State) (h : Nat) : Nat :=
  if handleKind h = 0x05 then 32
  else match s.video.decodes.find? (fun p => p.2.outs.contains h) with
    | some p => if p.2.cfg.bitDepth = 10 then 15 else 12
    | none => 12

/-- Rate of a decode stream's payload: 0.1 bit per pixel, the rate at which Table 1.5 counts stream payloads (DEDUCED, log entry 70). -/
def payloadRate (x : DecodeStream) : Nat := charged x.cfg * x.cfg.frameRate / 10

/-- Every flow that the configuration commits. Rates that no rule gives (audio payloads, control) are not counted. -/
def flows (s : State) : List Flow :=
  (s.video.outputs.map (fun p =>
    let u := p.2.cfg.unit
    (if p.2.cfg.memory then
      [{ realTime := false, bps := p.2.cfg.width * p.2.cfg.height * 12 * p.2.cfg.frameRate, src := quadOf u, dst := Loc.stack (siteDie u) : Flow }]
     else []) ++
    (p.2.layers.filter (fun l => l.2.cfg.enabled)).map (fun l =>
      { realTime := true, bps := l.2.cfg.cropW * l.2.cfg.cropH * sourceBits s l.2.cfg.source * p.2.cfg.frameRate,
        src := Loc.stack (handleStack l.2.cfg.source), dst := quadOf u : Flow }))).flatten ++
  s.fwd.streams.filterMap (fun p =>
    if p.2.cfg.delivery = 0 ∨ p.2.cfg.sourceKind ≠ 0 then none
    else (s.video.decodes.find? (fun q => q.2.streamBuffer == p.2.cfg.bufferHandle)).map (fun q =>
      { realTime := false, bps := payloadRate q.2, src := Loc.io (ctxPkg p.1), dst := Loc.stack (siteDie q.2.cfg.unit) : Flow })) ++
  s.video.decodes.map (fun p =>
    { realTime := false, bps := payloadRate p.2, src := Loc.stack (siteDie p.2.cfg.unit), dst := quadOf p.2.cfg.unit }) ++
  s.video.decodes.map (fun p =>
    { realTime := false, bps := charged p.2.cfg * p.2.cfg.frameRate * 12, src := quadOf p.2.cfg.unit, dst := Loc.stack (siteDie p.2.cfg.unit) }) ++
  (s.video.encodes.map (fun p =>
    [{ realTime := false, bps := p.2.cfg.targetKbps * 1000, src := quadOf p.2.cfg.unit, dst := Loc.io (pkgOfDie (siteDie p.2.cfg.unit)) : Flow }] ++
    (if p.2.cfg.memory then
      match s.video.outputs.find? (fun o => o.2.memoryPair == p.2.cfg.source) with
      | some o => [{ realTime := false, bps := o.2.cfg.width * o.2.cfg.height * 12 * p.2.cfg.frameRate,
                     src := Loc.stack (handleStack p.2.cfg.source), dst := quadOf p.2.cfg.unit : Flow }]
      | none => []
     else []))).flatten ++
  (s.audio.legs.map (fun p =>
    [{ realTime := true, bps := 1536000, src := quadOf (legUnit p.1), dst := Loc.xp (legDie p.1) : Flow },
     { realTime := true, bps := 1536000, src := Loc.xp (legDie p.1), dst := quadOf (legUnit p.1) : Flow }])).flatten ++
  s.audio.ties.map (fun t => { realTime := true, bps := 1536000, src := .xp t.srcDie, dst := .xp t.dstDie })

/-- Load of a segment: its real-time part, and all of it. -/
def linkLoad (fs : List Flow) (l : Link) : Nat × Nat :=
  (sumN ((fs.filter (·.realTime)).map (fun f => f.bps * f.on l)), sumN (fs.map (fun f => f.bps * f.on l)))

/-- The segment keeps within R21: real-time at most 50 %, all traffic at most 90 % of its payload capacity. -/
def linkOk (s : State) (fs : List Flow) (l : Link) : Bool :=
  decide ((linkLoad fs l).1 ≤ 2 * l.capacity s) && decide (10 * (linkLoad fs l).2 ≤ 36 * l.capacity s)

/-- The placement that leads from one configuration to another keeps R21 on every segment it crosses: on those whose load it raises. -/
def placementOk (before after : State) : Bool :=
  let fs := flows after
  let gs := flows before
  allLinks.all (fun l =>
    let b := linkLoad gs l
    let a := linkLoad fs l
    decide (a.1 ≤ b.1 ∧ a.2 ≤ b.2) || linkOk after fs l)

/-- The compile-time checks of R67 (step 6 of R68) on the configuration that a command would leave, for the clusters that it
touches. -/
def compileChecks (before after : State) (clusters : List Nat) : List (Bool × Err) :=
  let banks := clusters.map (fun n => (n, compileCluster after n))
  let dies := dedup (clusters.map clusterDie)
  let full := (banks.filter (fun p => tableFullDetail p.2 != 0)).foldl (fun (a : Option (Nat × Bank)) p =>
    match a with | none => some p | some q => if clusterSite p.1 < clusterSite q.1 then some p else some q) none
  let dieBanks := fun d => ((List.range 24).map (fun c => (24 * d + c, compileCluster after (24 * d + c))))
  [ (full.isSome, match full with
      | some p => { status := .tableFull, site := clusterSite p.1, detail := tableFullDetail p.2 }
      | none => badAt .tableFull 0xFFFF),
    (!dies.all (fun d => (dieBanks d).all (depsOk (dieBanks d))), badAt .badDependence 0xFFFF) ] ++
  dies.map (fun d => (decide (8192 < poolBound after d), { status := .poolExhausted, site := tpSite d })) ++
  (match worstExcess after clusters with
   | some (u, e) => [(decide (0 < e), { status := .beatOverrun, site := u, detail := e.toNat })]
   | none => []) ++
  [(!placementOk before after, badAt .noPlacement 0xFFFF)]

/- Which clusters a change touches (R46). -/

/-- The clusters of a leg's units. -/
def encodeClusters (c : EncodeCfg) : List Nat := dedup ((encodeUnits c).map clusterNo)

/-- Clusters whose tables or parameters a change changes, over the state before it. -/
def Change.clusters (s : State) : Change → List Nat
  | .video c =>
    let out := fun o => match s.video.outputs.find o with | some x => [clusterNo x.cfg.unit] | none => []
    let leg := fun l => match s.video.encodes.find l with | some x => encodeClusters x.cfg | none => []
    let dec := fun i => match s.video.decodes.find i with | some x => [clusterNo x.cfg.unit] | none => []
    match c with
    | .decodeCreate _ x => [clusterNo x.cfg.unit]
    | .decodeDelete i => dec i
    | .decodeSelect i _ _ _ => dec i
    | .decodeResync _ => []
    | .outputCreate _ cfg _ => [clusterNo cfg.unit]
    | .outputDelete o => out o
    | .layerSet o _ _ => out o
    | .layerRemove o _ => out o
    | .regionSet o _ _ => out o
    | .regionRemove o _ => out o
    | .encodeCreate _ x => encodeClusters x.cfg ++ (if x.cfg.memory then [] else out x.cfg.source)
    | .encodeDelete l => leg l
    | .encodeSet l _ => leg l
    | .encodeKey l => leg l
    | .encodeRecovery l => leg l
    | .graphicCreate _ _ _ _ => []
    | .graphicWrite _ _ _ => []
    | .graphicFlip h _ =>
      (s.video.outputs.filter (fun o => o.2.layers.any (fun l => l.2.cfg.source == h || l.2.cfg.placeholder == h))).map (fun o => clusterNo o.2.cfg.unit)
    | .graphicDelete _ => []
    | .filterLoad _ _ _ _ => []
  | .audio c =>
    let mix := fun d => (mixHost s d).toList
    -- the tables of a die's audio clusters that another set of legs changes: the leg's, the MIX entry's, and every JOIN that feeds a moved MIX
    let legs := fun (i : Nat) (t : State) =>
      let d := legDie i
      dedup ([legCluster i] ++ (mixHost s d).toList ++ (mixHost t d).toList ++
        (if mixHost s d == mixHost t d then [] else audioClusters s d ++ audioClusters t d))
    let with_ := fun (l : Tab AudioLeg) => { s with audio := { s.audio with legs := l } }
    match c with
    | .legCreate i x => legs i (with_ (s.audio.legs.put i x))
    | .legDelete i => legs i (with_ (s.audio.legs.del i))
    | .legSet i _ => [legCluster i]
    | .stageSet i _ _ => [legCluster i]
    | .stageRemove i _ _ => [legCluster i]
    | .steer i _ _ => [legCluster i]
    | .beacon i _ => [legCluster i]
    | .node d i o _ _ remove _ =>
      -- a node more can lengthen MIX, and with it the deadline of every JOIN that feeds it (R244)
      let n := (s.xp d).nodes.length
      if remove || (s.xp d).nodes.has (xpNode i o) || ceilDiv (n - 1024) 1024 == ceilDiv (n + 1 - 1024) 1024 then mix d else audioClusters s d
    | .tieConnect t => mix t.srcDie ++ mix t.dstDie
    | .tieFree d _ => mix d
    | .groupSet d _ _ => mix d
    | .groupDelete d _ => mix d
    | .memberAdd d _ _ _ => mix d
    | .memberRemove d _ _ => mix d
  | .vcp _ => [] | .sched _ => [] | .egress _ => [] | .fwd _ => [] | .cipher _ => [] | .mem _ => [] | .event _ => []
  | .time _ => [] | .port _ => [] | .start _ => []

end Sys2Proof.Machine
end

