-- ==== Sys2Proof/Machine/Surface.lean ====
section
/-! DEFINITION. Pictures and the tiles in which surfaces hold them (R165). How tiles stand in a surface: DESIGN CHOICE (log entry 65). -/

namespace Sys2Proof.Machine

/-- Sample (x, y) of a plane of a picture, which is w × h in luma. What a surface holds beyond a picture smaller than the surface
is left open. -/
def Picture.sample (p : Picture) (plane x y : Nat) : Nat :=
  let k := if plane = 0 then 1 else 2
  if ceilDiv p.w k ≤ x ∨ ceilDiv p.h k ≤ y then Config.outsidePicture plane x y
  else match plane with
  | 0 => nth p.y (y * p.w + x) 0
  | 1 => nth p.cb (y * ceilDiv p.w 2 + x) 0
  | _ => nth p.cr (y * ceilDiv p.w 2 + x) 0

/-- All samples of a picture. -/
def Picture.samples (p : Picture) : List Nat := p.y ++ p.cb ++ p.cr

/-- w × h values in raster order. -/
def raster {α : Type} (w h : Nat) (f : Nat → Nat → α) : List α := ((List.range h).map (fun y => (List.range w).map (fun x => f x y))).flatten

/-- Columns and rows of tiles of a surface of w × h. -/
def tileCols (w : Nat) : Nat := ceilDiv w 64
def tileRows (h : Nat) : Nat := ceilDiv h 16 * 4

/-- Luma samples of tile (c, r), 64 × 4, and samples of a chroma plane of it, 32 × 2. -/
def Picture.tileLuma (p : Picture) (c r : Nat) : List Nat := raster 64 4 (fun x y => p.sample 0 (64 * c + x) (4 * r + y))
def Picture.tileChroma (p : Picture) (plane c r : Nat) : List Nat := raster 32 2 (fun x y => p.sample plane (32 * c + x) (2 * r + y))

/-- The samples of a tile: luma, Cb, Cr. -/
def Picture.tile (p : Picture) (c r : Nat) : List Nat := p.tileLuma c r ++ p.tileChroma 1 c r ++ p.tileChroma 2 c r

/-- Every value is the same. -/
def constant (l : List Nat) : Bool := l.all (fun x => x == l.headD 0)

/-- The metadata entry of a tile: how many sectors of 64 bytes it uses, 0 for one of one constant colour (R165). -/
def Picture.tileSectors (p : Picture) (depth c r : Nat) : Nat :=
  if constant (p.tileLuma c r) && constant (p.tileChroma 1 c r) && constant (p.tileChroma 2 c r) then 0
  else max 1 (min (if depth = 8 then 6 else 8) (Config.tileSectors depth (p.tile c r)))

/-- Bytes kept for a tile. -/
def tileArea (depth : Nat) : Nat := if depth = 8 then 384 else 512

/-- A surface's bytes: the tiles in raster order, then their metadata entries, two a byte. -/
def surfaceOf (w h depth : Nat) (p : Picture) : List Byte :=
  let tiles := raster (tileCols w) (tileRows h) (fun c r => (c, r))
  let meta_ := tiles.map (fun t => p.tileSectors depth t.1 t.2)
  let body := (tiles.map (fun t => let smp := p.tile t.1 t.2; (List.range (tileArea depth)).map (fun i => Config.tileByte depth smp i))).flatten ++
    (chunks 2 meta_.length meta_).map (fun m => BitVec.ofNat 8 (16 * m.headD 0 + nth m 1 0))
  body ++ zeros (surfaceBytes w h depth - body.length)

/-- The picture that a surface's bytes hold. -/
def pictureFrom (w h depth : Nat) (b : List Byte) : Picture :=
  let tile := fun (c r : Nat) => (b.drop ((r * tileCols w + c) * tileArea depth)).take (tileArea depth)
  let at_ := fun (c r i : Nat) => Config.tileSample depth (tile c r) i % 2 ^ depth
  let chroma := fun (off : Nat) => raster (ceilDiv w 2) (ceilDiv h 2) (fun x y => at_ (x / 32) (y / 2) (off + 32 * (y % 2) + x % 32))
  { w := w, h := h, depth := depth, y := raster w h (fun x y => at_ (x / 64) (y / 4) (64 * (y % 4) + x % 64)), cb := chroma 256, cr := chroma 320 }

end Sys2Proof.Machine
end

