-- ==== Sys2Proof/Machine/VideoOps.lean ====
section
/-! DEFINITION. Operations and changes of decode streams, outputs, graphic surfaces and encode legs (07, 08, 09). -/

namespace Sys2Proof.Machine

def State.decode (s : State) (id : Nat) : Option DecodeStream := s.video.decodes.find id
def State.setDecode (s : State) (id : Nat) (x : DecodeStream) : State :=
  { s with video := { s.video with decodes := s.video.decodes.put id x } }
def State.output (s : State) (id : Nat) : Option Output := s.video.outputs.find id
def State.setOutput (s : State) (id : Nat) (x : Output) : State :=
  { s with video := { s.video with outputs := s.video.outputs.put id x } }
def State.modOutput (s : State) (id : Nat) (f : Output → Output) : State :=
  { s with video := { s.video with outputs := s.video.outputs.modify id f } }
def State.encode (s : State) (id : Nat) : Option EncodeLeg := s.video.encodes.find id
def State.setEncode (s : State) (id : Nat) (x : EncodeLeg) : State :=
  { s with video := { s.video with encodes := s.video.encodes.put id x } }
def State.modEncode (s : State) (id : Nat) (f : EncodeLeg → EncodeLeg) : State :=
  { s with video := { s.video with encodes := s.video.encodes.modify id f } }
def State.setGraphic (s : State) (h : Nat) (x : Graphic) : State :=
  { s with video := { s.video with graphics := s.video.graphics.put h x } }
def State.modGraphic (s : State) (h : Nat) (f : Graphic → Graphic) : State :=
  { s with video := { s.video with graphics := s.video.graphics.modify h f } }

/-- Dies of the objects' identifiers: die[13:11]. -/
def objDie (id : Nat) : Nat := id / 2 ^ 11 % 8

/- Decode streams. -/

/-- Spatial layers that out_layers selects (Table 7.8): 0 means the top layer only. -/
def selectedLayers (layers out : Nat) : List Nat :=
  if out = 0 then [layers - 1] else (List.range layers).filter (fun s => out.testBit s)

/-- Largest picture of spatial layer s (R157). -/
def DecodeCfg.layerSize (c : DecodeCfg) (s : Nat) : Nat × Nat :=
  let k := c.spatialLayers - 1 - s
  (ceilDiv c.maxWidth (2 ^ k), ceilDiv c.maxHeight (2 ^ k))

/-- Bytes of an output pair of spatial layer s: two surfaces (R165, R166). -/
def DecodeCfg.pairBytes (c : DecodeCfg) (s : Nat) : Nat :=
  2 * surfaceBytes (c.layerSize s).1 (c.layerSize s).2 c.bitDepth

/-- Bytes of the reference slots, at the size of the largest layer (R166). -/
def DecodeCfg.refBytes (c : DecodeCfg) : Nat := c.refSlots * surfaceBytes c.maxWidth c.maxHeight c.bitDepth

/-- Bytes of the stream buffer (R166). -/
def DecodeCfg.bufferBytes (c : DecodeCfg) : Nat := c.auSlots * c.auMax

/-- Source and data of a decode event (R172). -/
def State.decodeEvent (s : State) (t : Instant) (id code : Nat) (ts : W32) (data : Nat) : State :=
  s.raiseAt t (128 + 8 * objDie id + 1) code (dCode 88 32 id + dCode 56 32 ts.toNat + data) (pkgOfDie (objDie id))

/-- RTP time-stamp u is newer than v (R159). -/
def tsNewer (u v : W32) : Bool := decide (1 ≤ (u - v).toNat ∧ (u - v).toNat ≤ 2 ^ 31 - 1)

/-- CMD_DECODE_RESYNC acts (R175). The abandoned access units are counted; the next one released carries the gap flag. -/
def State.decodeResync (s : State) (id : Nat) : State :=
  match s.decode id with
  | none => s
  | some x =>
    let last := x.held.foldl (fun a h => match a with | none => some h.ts | some t => if tsNewer h.ts t then some h.ts else some t) x.lastTs
    let c := { x.ctrs with abandoned := x.ctrs.abandoned + BitVec.ofNat 64 x.held.length, discarded := x.ctrs.discarded + BitVec.ofNat 64 x.backlog.length }
    let n := clusterNo x.cfg.unit
    let s1 := s.setDecode id { x with held := [], backlog := [], lastTs := last, endSeq := if x.held.isEmpty && x.backlog.isEmpty then x.endSeq else none, gapNext := true, ctrs := c }
    match s1.entryOf n (.decode id) with
    | some e => s1.uncarry n e ((s1.esc n).carried.getD e 0)
    | none => s1

/- Graphic surfaces (R184, R195, R196). -/

/-- Bytes that a graphic surface is charged: both buffers, each rounded up to 4,096. -/
def graphicBytes (w h : Nat) : Nat := 2 * up4k (4 * w * h)

/-- Write bytes into a sparse buffer; zero bytes are not listed. -/
def writeBytes (t : Tab Byte) (off : Nat) : List Byte → Tab Byte
  | [] => t
  | b :: bs => writeBytes (if b = 0 then t.del off else t.put off b) (off + 1) bs

/-- A write to the back buffer, which waits behind a flip whose copy is still to be made. -/
def Graphic.write (g : Graphic) (off : Nat) (data : List Byte) : Graphic :=
  if g.copyPending.isSome then { g with waiting := g.waiting ++ [some (off, data)] }
  else { g with back := writeBytes g.back off data }

/-- A flip: the back buffer becomes the front for compositions of beats from `t` on. -/
def Graphic.flip (g : Graphic) (t : Instant) : Graphic :=
  if g.copyPending.isSome then { g with waiting := g.waiting ++ [none] }
  else { g with oldFront := g.front, front := g.back, copyPending := some t }

/-- Take what waits, in order, up to the next flip's copy. -/
def Graphic.drain (t : Instant) : List (Option (Nat × List Byte)) → Graphic → Graphic
  | [], g => g
  | some w :: rest, g => Graphic.drain t rest (g.write w.1 w.2)
  | none :: rest, g => Graphic.drain t rest (g.flip t)

/-- The copy is made: the back equals the front again, and what waited follows. -/
def Graphic.copied (g : Graphic) (t : Instant) : Graphic :=
  let w := g.waiting
  Graphic.drain t w { g with back := g.front, oldFront := [], copyPending := none, waiting := [] }

/-- The front buffer for a composition of beat c. -/
def Graphic.frontAt (g : Graphic) (c : Instant) : Tab Byte :=
  match g.copyPending with
  | some t => if c < t then g.oldFront else g.front
  | none => g.front

/- Outputs. -/

/-- The parameters of a layer change (R182, R195): a new source starts with stale_count 0. -/
def Output.setLayer (o : Output) (n : Nat) (cfg : LayerCfg) : Output :=
  let l := match o.layers.find n with
    | some l => { l with cfg := cfg, stale := if l.cfg.source = cfg.source then l.stale else 0 }
    | none => { cfg := cfg }
  { o with layers := o.layers.put n l }

/-- The parameters of a region change (R191). -/
def Output.setRegion (o : Output) (n : Nat) (cfg : RegionCfg) : Output :=
  let r := o.regions.getD n {}
  { o with regions := o.regions.put n { r with cfg := cfg, capturing := cfg.capture } }

/- Encode legs. -/

/- Levels (R197): PRESUMED (log entry 66). -/

/-- Levels of AV1, HEVC and H.264 in ascending order: what signals the level, the largest picture and the largest rate in luma samples (H.264:
macroblocks), and the largest width and height. -/
def levels (codec : Nat) : List (Nat × Nat × Nat × Nat × Nat) :=
  match codec with
  | 1 => [(0, 147456, 4423680, 2048, 1152), (1, 278784, 8363520, 2816, 1584), (4, 665856, 19975680, 4352, 2448), (5, 1065024, 31950720, 5504, 3096),
          (8, 2359296, 70778880, 6144, 3456), (9, 2359296, 141557760, 6144, 3456), (12, 8912896, 267386880, 8192, 4352),
          (13, 8912896, 534773760, 8192, 4352), (14, 8912896, 1069547520, 8192, 4352)]
  | 3 => [(30, 36864, 552960, 543, 543), (60, 122880, 3686400, 991, 991), (63, 245760, 7372800, 1402, 1402), (90, 552960, 16588800, 2103, 2103),
          (93, 983040, 33177600, 2804, 2804), (120, 2228224, 66846720, 4222, 4222), (123, 2228224, 133693440, 4222, 4222),
          (150, 8912896, 267386880, 8444, 8444), (153, 8912896, 534773760, 8444, 8444), (156, 8912896, 1069547520, 8444, 8444)]
  | _ => [(10, 99, 1485, 28, 28), (11, 396, 3000, 56, 56), (12, 396, 6000, 56, 56), (13, 396, 11880, 56, 56), (21, 792, 19800, 79, 79),
          (22, 1620, 20250, 113, 113), (30, 1620, 40500, 113, 113), (31, 3600, 108000, 169, 169), (32, 5120, 216000, 202, 202),
          (40, 8192, 245760, 256, 256), (42, 8704, 522240, 263, 263), (50, 22080, 589824, 420, 420), (51, 36864, 983040, 543, 543),
          (52, 36864, 2073600, 543, 543)]

/-- The lowest level that holds a picture size at a frame rate. -/
def levelOf (codec w h rate : Nat) : Nat :=
  let u := if codec = 4 then 16 else 1
  let (a, b) := (ceilDiv w u, ceilDiv h u)
  match (levels codec).find? (fun l => decide (a * b ≤ l.2.1 ∧ a * b * rate ≤ l.2.2.1 ∧ a ≤ l.2.2.2.1 ∧ b ≤ l.2.2.2.2)) with
  | some l => l.1
  | none => ((levels codec).getLastD default).1

/-- A cap of the fullness F to the buffer (R215). -/
def EncodeCfg.buffer (c : EncodeCfg) : Nat := c.targetKbps * c.bufferMs

/-- CMD_ENCODE_SET takes effect on a leg (R215). -/
def EncodeLeg.patch (x : EncodeLeg) (p : EncodePatch) : EncodeLeg :=
  let c := x.cfg
  let w := p.codedWidth.getD c.codedWidth
  let h := p.codedHeight.getD c.codedHeight
  let rot := p.rotation.getD c.rotation
  let cfg := { c with targetKbps := p.targetKbps.getD c.targetKbps, codedWidth := w, codedHeight := h, bufferMs := p.bufferMs.getD c.bufferMs, rotation := rot, maxFrameBytes := p.maxFrameBytes.getD c.maxFrameBytes, keyInterval := p.keyInterval.getD c.keyInterval, ltrInterval := p.ltrInterval.getD c.ltrInterval, qpMin := p.qpMin.getD c.qpMin, qpMax := p.qpMax.getD c.qpMax }
  let f := if p.targetKbps.isSome || p.bufferMs.isSome then min x.fullness cfg.buffer else x.fullness
  let x1 := { x with cfg := cfg, fullness := f }
  match p.fresh with
  | none => x1
  | some (i, r) => { x1 with inputHandle := i, refHandle := r, keySize := true, level := max x.level (levelOf c.codec w h c.frameRate) }

/- Objects of earlier beats (R64): a task instance issued from the old bank runs to completion with what it names, though that has been deleted
since. -/

/-- Spatial layer of a stream that a pair holds. -/
def pairLayer (x : DecodeStream) (h : Nat) : Option Nat := if h = 0 then none else x.outs.findIdx? (· == h)

def writerOf (s : State) (h : Nat) : Option Writer :=
  match s.video.decodes.findSome? (fun p => (pairLayer p.2 h).map (fun k => (p.2, k))) with
  | some (x, k) =>
    let sz := x.cfg.layerSize k
    some { rate := x.gridRate, period := x.gridRate / max 1 x.cfg.frameRate, phase := x.phase, w := sz.1, h := sz.2 }
  | none =>
    match s.video.outputs.find? (fun p => p.2.memoryPair == h && h != 0) with
    | some p => some { rate := p.2.cfg.frameRate, period := 1, phase := 0, w := p.2.cfg.width, h := p.2.cfg.height }
    | none => none

/-- The streams, outputs, legs, pairs and graphic surfaces that a change takes away. -/
def Change.takesAway (s : State) : Change → List (Nat × GoneObj)
  | .video c =>
    let pair := fun (h : Nat) => (h, GoneObj.pair (writerOf s h) (s.video.pairs.getD h []))
    match c with
    | .decodeDelete id => match s.decode id with
      | some x => (id, .decode x) :: (x.outs.filter (· != 0)).map pair
      | none => []
    | .decodeSelect id _ _ outs => match s.decode id with
      | some x => (x.outs.filter (fun h => h != 0 && !outs.contains h)).map pair
      | none => []
    | .outputDelete id => match s.output id with
      | some x => (id, .output x) :: (if x.memoryPair = 0 then [] else [pair x.memoryPair])
      | none => []
    | .encodeDelete id => match s.encode id with
      | some x => [(id, .encode x)]
      | none => []
    | .graphicDelete h => match s.video.graphics.find h with
      | some g => [(h, .graphic g)]
      | none => []
    | _ => []
  | _ => []

/-- A task of a beat before t is issued, or held back by a stall. -/
def State.owesBefore (s : State) (t : Instant) : Bool :=
  decide (s.now < t) || s.pools.any (fun p => p.2.insts.any (fun i => decide (i.beat < t))) ||
  s.escs.any (fun e => !e.2.stalled.isEmpty && decide (e.2.stallBeat < t))

/-- Keep what a change takes away for the tasks of beats before t, and let go of what no task can need any more. -/
def State.bury (s : State) (t : Instant) (c : Change) : State :=
  let new := (c.takesAway s).map (fun p => ({ id := p.1, at_ := t, obj := p.2 } : Gone))
  if new.isEmpty then s
  else { s with video := { s.video with gone := s.video.gone.filter (fun g => s.owesBefore g.at_) ++ new } }

/-- The deleted object of an identifier that a task of beat c has. -/
def State.goneAt {α : Type} (s : State) (id : Nat) (c : Instant) (f : GoneObj → Option α) : Option α :=
  (s.video.gone.filter (fun g => g.id == id && decide (c < g.at_))).findSome? (fun g => f g.obj)

/-- Change the deleted object of an identifier that a task of beat c has. -/
def State.modGone (s : State) (id : Nat) (c : Instant) (f : GoneObj → GoneObj) : State :=
  { s with video := { s.video with gone := s.video.gone.map (fun g => if g.id = id ∧ c < g.at_ then { g with obj := f g.obj } else g) } }

def GoneObj.asDecode : GoneObj → Option DecodeStream
  | .decode x => some x | .output _ => none | .encode _ => none | .pair _ _ => none | .graphic _ => none
def GoneObj.asOutput : GoneObj → Option Output
  | .output x => some x | .decode _ => none | .encode _ => none | .pair _ _ => none | .graphic _ => none
def GoneObj.asEncode : GoneObj → Option EncodeLeg
  | .encode x => some x | .decode _ => none | .output _ => none | .pair _ _ => none | .graphic _ => none
def GoneObj.asPair : GoneObj → Option (Option Writer × List PairPic)
  | .pair w ps => some (w, ps) | .decode _ => none | .output _ => none | .encode _ => none | .graphic _ => none
def GoneObj.asGraphic : GoneObj → Option Graphic
  | .graphic g => some g | .decode _ => none | .output _ => none | .encode _ => none | .pair _ _ => none

/-- The output, pair, writer and graphic surface that a composition of beat c finds. -/
def State.outputAt (s : State) (id : Nat) (c : Instant) : Option Output :=
  match s.goneAt id c GoneObj.asOutput with | some x => some x | none => s.output id
def State.pairAt (s : State) (h : Nat) (c : Instant) : List PairPic :=
  match s.goneAt h c GoneObj.asPair with | some p => p.2 | none => s.video.pairs.getD h []
def State.writerAt (s : State) (h : Nat) (c : Instant) : Option Writer :=
  match s.goneAt h c GoneObj.asPair with | some p => p.1 | none => writerOf s h
def State.graphicAt (s : State) (h : Nat) (c : Instant) : Option Graphic :=
  match s.goneAt h c GoneObj.asGraphic with | some g => some g | none => s.video.graphics.find h

/-- Put an entry back as it was: with its object, or gone. -/
def Tab.restore {α : Type} (t : Tab α) (id : Nat) : Option α → Tab α
  | some x => t.put id x
  | none => t.del id

/-- Run a task of beat c of a decode stream on the stream that it has. -/
def State.onDecode {β : Type} (s : State) (id : Nat) (c : Instant) (f : State → State × β) : State × β :=
  match s.goneAt id c GoneObj.asDecode with
  | none => f s
  | some g =>
    let (t, r) := f (s.setDecode id g)
    let u := t.modGone id c (fun o => match o with | .decode x => .decode ((t.decode id).getD x) | o => o)
    ({ u with video := { u.video with decodes := u.video.decodes.restore id (s.decode id) } }, r)

/-- Run a task of beat c of an output on the output that it has. -/
def State.onOutput {β : Type} (s : State) (id : Nat) (c : Instant) (f : State → State × β) : State × β :=
  match s.goneAt id c GoneObj.asOutput with
  | none => f s
  | some g =>
    let (t, r) := f (s.setOutput id g)
    let u := t.modGone id c (fun o => match o with | .output x => .output ((t.output id).getD x) | o => o)
    ({ u with video := { u.video with outputs := u.video.outputs.restore id (s.output id) } }, r)

/-- Run a task of beat c of an encode leg on the leg that it has. -/
def State.onEncode {β : Type} (s : State) (id : Nat) (c : Instant) (f : State → State × β) : State × β :=
  match s.goneAt id c GoneObj.asEncode with
  | none => f s
  | some g =>
    let (t, r) := f (s.setEncode id g)
    let u := t.modGone id c (fun o => match o with | .encode x => .encode ((t.encode id).getD x) | o => o)
    ({ u with video := { u.video with encodes := u.video.encodes.restore id (s.encode id) } }, r)

/- Changes. -/

def applyVideo (c : VideoChange) (s : State) : State :=
  match c with
  | .decodeCreate id x =>
    let ps := (x.outs.filter (· != 0)).foldl (fun t h => t.put h []) s.video.pairs
    { s with video := { s.video with decodes := s.video.decodes.put id x, pairs := ps } }
  | .decodeDelete id =>
    match s.decode id with
    | none => s
    | some x =>
      let ps := x.outs.foldl (fun t h => t.del h) s.video.pairs
      { s with video := { s.video with decodes := s.video.decodes.del id, pairs := ps } }
  | .decodeSelect id op out outs =>
    match s.decode id with
    | none => s
    | some x =>
      let raise := decide (x.cfg.operatingPoint < op)
      let gone := x.outs.filter (fun h => h != 0 && !outs.contains h)
      let new := outs.filter (fun h => h != 0 && !x.outs.contains h)
      let ps := new.foldl (fun t h => t.put h []) (gone.foldl (fun t h => t.del h) s.video.pairs)
      let y := if raise then { x with outs := outs, opPending := some (op, out) }
        else { x with cfg := { x.cfg with outLayers := out, operatingPoint := op }, outs := outs, opPending := none }
      { s with video := { s.video with decodes := s.video.decodes.put id y, pairs := ps } }
  | .decodeResync id => s.decodeResync id
  | .outputCreate id cfg pair =>
    let ps := if pair = 0 then s.video.pairs else s.video.pairs.put pair []
    { s with video := { s.video with outputs := s.video.outputs.put id { cfg := cfg, memoryPair := pair }, pairs := ps } }
  | .outputDelete id =>
    match s.output id with
    | none => s
    | some o => { s with video := { s.video with outputs := s.video.outputs.del id, pairs := s.video.pairs.del o.memoryPair } }
  | .layerSet o n cfg => s.modOutput o (fun x => x.setLayer n cfg)
  | .layerRemove o n => s.modOutput o (fun x => { x with layers := x.layers.del n })
  | .regionSet o n cfg => s.modOutput o (fun x => x.setRegion n cfg)
  | .regionRemove o n => s.modOutput o (fun x => { x with regions := x.regions.del n })
  | .graphicCreate h die w ht => s.setGraphic h { die := die, w := w, h := ht }
  | .graphicWrite h off data => s.modGraphic h (fun g => g.write off data)
  | .graphicFlip h t => s.modGraphic h (fun g => g.flip t)
  | .graphicDelete h => { s with video := { s.video with graphics := s.video.graphics.del h } }
  | .filterLoad die set first phases =>
    let t := ((List.range phases.length).zip phases).foldl (fun t p => t.put ((die * 16 + set) * 64 + first + p.1) p.2) s.video.filters
    { s with video := { s.video with filters := t } }
  | .encodeCreate id x => s.setEncode id x
  | .encodeDelete id => { s with video := { s.video with encodes := s.video.encodes.del id } }
  | .encodeSet id p => s.modEncode id (fun x => x.patch p)
  | .encodeKey id => s.modEncode id (fun x => { x with keyCmd := true })
  | .encodeRecovery id => s.modEncode id (fun x => { x with recoveryDue := true })

end Sys2Proof.Machine
end

