-- ==== Sys2Proof/Machine/AudioOps.lean ====
section
/-! DEFINITION. Operations and changes of audio legs, crosspoints, talker groups and beacons (10, 11 and 12).
Corners of the audio path: DEDUCED (log entries 6, 34). -/

namespace Sys2Proof.Machine

def State.audioLeg (s : State) (id : Nat) : Option AudioLeg := s.audio.legs.find id
def State.setLegA (s : State) (id : Nat) (x : AudioLeg) : State :=
  { s with audio := { s.audio with legs := s.audio.legs.put id x } }
def State.modLegA (s : State) (id : Nat) (f : AudioLeg → AudioLeg) : State :=
  { s with audio := { s.audio with legs := s.audio.legs.modify id f } }
def State.setXp (s : State) (d : Nat) (x : Crosspoint) : State := { s with audio := { s.audio with xps := s.audio.xps.put d x } }
def State.modXp (s : State) (d : Nat) (f : Crosspoint → Crosspoint) : State := s.setXp d (f (s.xp d))

/- Rounding of the audio unit (R223). -/

/-- An accumulator stored to a 32-bit word with a shift of sh (R223). -/
def store (acc : Int) (sh : Int) : Int :=
  clampI (-(2 ^ 31 : Nat)) ((2 ^ 31 : Nat) - 1) (floorDiv (acc + (2 ^ (30 - sh).toNat : Nat)) (2 ^ (31 - sh).toNat))

/-- Saturation of a sample to Q1.31. -/
def satSample (x : Int) : Int := clampI (-(2 ^ 31 : Nat)) ((2 ^ 31 : Nat) - 1) x

/-- The audio grid's index of a beat. -/
def audioIndex (b : Instant) : Nat := Grid.audio.indexOf b

/- Codecs (R229, R234, R235). -/

/-- RTP time-stamp step of a 20 ms frame. -/
def codecTs (codec : Nat) : Nat := if codec = 5 then 960 else 160
/-- Samples of a frame at the endpoint's rate. -/
def codecSamples (codec : Nat) : Nat := match codec with | 5 => 960 | 8 => 320 | _ => 160
/-- Samples per second of the endpoint. -/
def codecRate (codec : Nat) : Nat := match codec with | 5 => 48000 | 8 => 16000 | _ => 8000

/- Events. -/

/-- An audio event of a leg (R241). -/
def State.audioEvent (s : State) (t : Instant) (id code data : Nat) : State :=
  s.raiseAt t (128 + 8 * legDie id + 4) code (dCode 88 32 id + data) (pkgOfDie (legDie id))

/-- A crosspoint event of a die (R260). -/
def State.xpEvent (s : State) (t : Instant) (d code data : Nat) : State := s.raiseAt t (128 + 8 * d + 5) code data (pkgOfDie d)

/-- A beacon event of a leg (R278). -/
def State.beaconEvent (s : State) (t : Instant) (id code data : Nat) : State :=
  s.raiseAt t (128 + 8 * legDie id + 6) code (dCode 88 32 id + data) (pkgOfDie (legDie id))

/- The beacon's lock and loading (R270, R276). -/

def initialLoading : List Nat := [5, 0, 0, 0]

/-- The loading returns to the initial one, and every S_g is cleared (R270). -/
def Beacon.resetLoading (b : Beacon) (t : Instant) : Beacon := { b with loading := [(t, initialLoading)], snr := [] }

/-- Lock is lost (R276), with the cause of Table 12.6. -/
def State.beaconUnlock (s : State) (id cause : Nat) (t : Instant) : State :=
  match s.audioLeg id with
  | none => s
  | some x =>
    if x.beacon.locked then
      (s.setLegA id { x with beacon := { (x.beacon.resetLoading t) with locked := false, due := [] }, lockNext := x.lockNext ++ [(t, false)] }).beaconEvent t id 0x0001 (dCode 72 8 cause)
    else s

/-- CMD_BEACON_SET takes effect on a leg (R280). A change of tag resets seq and the loading and ends lock; so does disabling the
receiver or the modulator end lock. -/
def State.beaconSet (s : State) (id : Nat) (cfg : BeaconCfg) : State :=
  match s.audioLeg id with
  | none => s
  | some x =>
    let old := x.beacon.cfg
    let newTag := cfg.tag != old.tag
    let off := (!cfg.rxEnable && old.rxEnable) || (!cfg.txEnable && old.txEnable)
    let b0 := { x.beacon with cfg := cfg, current := if cfg.rxEnable then x.beacon.current else none, gainFrozen := cfg.rxEnable && x.beacon.gainFrozen, store := if cfg.rxEnable then x.beacon.store else [] }
    let b1 := if newTag then { b0 with seq := 0 } else b0
    let b2 := if newTag || cfg.subHi != old.subHi then b1.resetLoading s.now else b1
    let s1 := s.setLegA id { x with beacon := b2 }
    if newTag then s1.beaconUnlock id 2 s.now
    else if off then s1.beaconUnlock id 3 s.now
    else s1

/- Crosspoint nodes and talkers (R247 to R258). -/

/-- The gain code that means off. -/
def gainOff : Int := -32768

def nodeNo (i o : Nat) : Nat := xpNode i o
def nodeIn (n : Nat) : Nat := n / xpPorts
def nodeOut (n : Nat) : Nat := n % xpPorts

/-- The group of a port and the port's membership. -/
def Crosspoint.member (x : Crosspoint) (port : Nat) : Option (TalkerGroup × Member) :=
  (x.groups.vals.filterMap (fun g => (g.members.find? (fun m => m.port == port)).map (fun m => (g, m)))).head?

/-- The target code of a node (R257). -/
def Crosspoint.targetOf (x : Crosspoint) (i : Nat) (gain : Int) : Int :=
  if gain = gainOff then gainOff
  else match x.member i with
    | none => gain
    | some (g, m) =>
      if m.talker then gain
      else if g.duck = gainOff then gainOff
      else
        let t := gain + g.duck
        if t < -24576 then gainOff else min t 4608

/-- Start a ramp from the code last mixed to a target (R250, R251), also where both are off: the rule takes either end as −24,576. -/
def Node.rampTo (n : Node) (t : Int) (r : Nat) : Node := { n with target := t, ramp := some { s := n.current, t := t, r := r } }

/-- A node follows a change of its target that no command made: over len samples, or over the commanded length when a command
changes it in the same beat (R251). A node being removed keeps ramping to off. -/
def Crosspoint.follow (x : Crosspoint) (k len : Nat) (n : Node) : Node :=
  let t := x.targetOf (nodeIn k) n.gain
  if n.removing ∨ t = n.target then n
  else n.rampTo t (if n.fresh then (match n.ramp with | some r => r.r | none => n.rampLen) else len)

/-- Every node of an input port follows a change of its targets. -/
def Crosspoint.retarget (x : Crosspoint) (port len : Nat) : Crosspoint :=
  { x with nodes := x.nodes.mapVals (fun k n => if nodeIn k = port then x.follow k len n else n) }

/-- A command changes a node (R249 to R253). -/
def Crosspoint.setNode (x : Crosspoint) (i o : Nat) (gain : Int) (ramp : Nat) (remove delay1 : Bool) : Crosspoint :=
  let k := nodeNo i o
  let n0 := x.nodes.getD k {}
  let len := if ramp = 0 then n0.rampLen else ramp
  if remove then
    if x.nodes.has k then
      let n1 := { n0 with removing := true, rampLen := len, fresh := true }
      { x with nodes := x.nodes.put k (n1.rampTo gainOff len) }
    else x
  else
    let n1 := { n0 with gain := gain, rampLen := len, delay1 := delay1, removing := false, fresh := true }
    { x with nodes := x.nodes.put k (n1.rampTo (x.targetOf i gain) len) }

/-- Install a group's settings, keeping its members. Its members' nodes follow a change of duck over the attack length. -/
def Crosspoint.setGroup (x : Crosspoint) (num : Nat) (g : TalkerGroup) : Crosspoint :=
  let old := x.groups.getD num {}
  let x1 := { x with groups := x.groups.put num { g with members := old.members, codecFrame := old.codecFrame, talkers := old.talkers, pending := old.pending } }
  old.members.foldl (fun y m => y.retarget m.port g.attack) x1

/-- A group is deleted: each member's nodes return to their commanded gains over the attack length. -/
def Crosspoint.deleteGroup (x : Crosspoint) (num : Nat) : Crosspoint :=
  match x.groups.find num with
  | none => x
  | some g => g.members.foldl (fun y m => y.retarget m.port g.attack) { x with groups := x.groups.del num }

def Crosspoint.modGroup (x : Crosspoint) (num : Nat) (f : TalkerGroup → TalkerGroup) : Crosspoint :=
  { x with groups := x.groups.modify num f }

/-- A member joins a group, or changes its pinned flag. A pinned member is always a talker (R257). -/
def Crosspoint.addMember (x : Crosspoint) (num port : Nat) (pinned : Bool) : Crosspoint :=
  match x.groups.find num with
  | none => x
  | some g =>
    let old := g.members.find? (fun m => m.port == port)
    let m : Member := { port := port, pinned := pinned, talker := pinned || (match old with | some o => o.talker && !o.pinned | none => false), last := old.bind (·.last) }
    let ms := g.members.filter (fun m => m.port != port) ++ [m]
    let len := if m.talker then g.attack else g.release
    ({ x with groups := x.groups.put num { g with members := ms } }).retarget port len

def Crosspoint.removeMember (x : Crosspoint) (num port : Nat) : Crosspoint :=
  match x.groups.find num with
  | none => x
  | some g =>
    let g1 := { g with members := g.members.filter (fun m => m.port != port), talkers := g.talkers.filter (· != port) }
    ({ x with groups := x.groups.put num g1 }).retarget port g.attack

/- Legs (R230, R239). -/

/-- The settings of a leg that a command changes; jb_target and resync act at the effective instant, the others by the leg's
first task (R239). -/
def AudioLeg.patch (x : AudioLeg) (p : AudioPatch) : AudioLeg :=
  let c := x.cfg
  let cfg := { c with flags := p.flags.getD c.flags, bandwidth := p.bandwidth.getD c.bandwidth, lossPct := p.lossPct.getD c.lossPct, bitrate := p.bitrate.getD c.bitrate, jbTarget := p.jbTarget.getD c.jbTarget, vadThreshold := p.vadThreshold.getD c.vadThreshold }
  let x1 := { x with cfg := cfg }
  if p.resync && x.everAnchored then { x1 with anchor := none, jb := [], cause := 4 } else x1

/-- New equaliser sections; a section keeps the history of the one it replaces. -/
def keepHistory (old : Option (List Biquad)) (new : List Biquad) : List Biquad :=
  let o := old.getD []
  ((List.range new.length).zip new).map (fun p => match o[p.1]? with
    | some b => { p.2 with x1 := b.x1, x2 := b.x2, y1 := b.y1, y2 := b.y2 }
    | none => p.2)

/-- A stage value is set in a path (R239). -/
def Stages.set (x : Stages) (v : StageValue) : Stages :=
  match v with
  | .eq l => { x with eq := some (keepHistory x.eq l) }
  | .ns d => { x with ns := some d }
  | .agc t g => { x with agc := some (t, g) }

def Stages.clear (x : Stages) (stage : Nat) : Stages :=
  match stage with
  | 0x11 => { x with eq := none }
  | 0x10 => { x with ns := none, nsState := 0 }
  | 0x12 => { x with agc := none, agcState := 0 }
  | _ => x

/-- Apply a change of the audio path. -/
def applyAudio (c : AudioChange) (s : State) : State :=
  match c with
  | .legCreate id x => s.setLegA id x
  | .legDelete id =>
    { s with audio := { s.audio with legs := s.audio.legs.del id } }
  | .legSet id p => s.modLegA id (fun x => x.patch p)
  | .stageSet id send v => s.modLegA id (fun x => if send then { x with tx := x.tx.set v } else { x with rx := x.rx.set v })
  | .stageRemove id send st => s.modLegA id (fun x => if send then { x with tx := x.tx.clear st } else { x with rx := x.rx.clear st })
  | .steer id kb kj => s.modLegA id (fun x => { x with kb := kb, kj := kj })
  | .beacon id cfg => s.beaconSet id cfg
  | .node d i o gain ramp remove delay1 => s.modXp d (fun x => x.setNode i o gain ramp remove delay1)
  | .tieConnect t => { s with audio := { s.audio with ties := s.audio.ties ++ [t] } }
  | .tieFree d p => { s with audio := { s.audio with ties := s.audio.ties.filter (fun t => !(t.srcDie == d && t.srcPort == p)) } }
  | .groupSet d num g => s.modXp d (fun x => x.setGroup num g)
  | .groupDelete d num => s.modXp d (fun x => x.deleteGroup num)
  | .memberAdd d num port pinned => s.modXp d (fun x => x.addMember num port pinned)
  | .memberRemove d num port => s.modXp d (fun x => x.removeMember num port)

end Sys2Proof.Machine
end

