-- ==== Sys2Proof/Machine/AudioCodec.lean ====
section
/-! DEFINITION. The audio unit's arithmetic and its codecs: moves between memories (R224), library stages whose algorithm no rule
prints, PCM exchange (Table 10.1), G.711, G.722 and the decimators (R233, R238).
The tables and equations of G.711 and G.722 are those of the ITU-T recommendations: PRESUMED (log entry 68).
Stages as passes of uninterpreted words, and what a coder keeps across frames: DESIGN CHOICE (log entry 69). -/

namespace Sys2Proof.Machine

/- Move scaling (R224). -/

/-- How the moves of a pass are scaled: not, by a constant of the stage, or by the block exponent with a guard. -/
inductive MoveScaling
  | none
  | fixed (sh : Int)
  | block (guard : Nat)
deriving DecidableEq, Repr

/-- Redundant sign bits of a 32-bit word. -/
def redundantSign (v : Int) : Nat :=
  let m := (if v < 0 then -v - 1 else v).toNat
  if m = 0 then 31 else 30 - Nat.log2 m

/-- What the exponent detector holds after the words of a pass: rs, the smallest count of redundant sign bits. -/
def exponentDetector (l : List Int) : Nat := (l.map redundantSign).foldl min 31

/-- The shift of a pass's moves, positive to the left, from the rs of the pass before. -/
def MoveScaling.shift (m : MoveScaling) (rs : Nat) : Int :=
  match m with
  | .none => 0
  | .fixed sh => sh
  | .block guard => min ((rs : Int) - guard) 0

/-- How far the shift of a pass raises the block exponent. -/
def MoveScaling.grows (m : MoveScaling) (rs : Nat) : Nat :=
  match m with
  | .block _ => (m.shift rs).natAbs
  | _ => 0

/-- A move between memories: a right shift rounds as R223 does. -/
def moveWord (sh v : Int) : Int :=
  if sh < 0 then floorDiv (v + (2 ^ (-sh).toNat / 2 : Nat)) (2 ^ (-sh).toNat) else satSample (v * (2 ^ sh.toNat : Nat))

/-- The scaling that a stage states for a pass. -/
def passScaling (code k : Nat) : MoveScaling :=
  match Config.passScaling code k with
  | (0, _) => .none
  | (1, c) => .fixed (clampI (-8) 8 c)
  | (_, c) => .block (c.natAbs % 4)

/-- A library stage: its passes in order, each over the words that the one before wrote. The parameters are the stage's settings
and whatever it reads beside the words. -/
def libraryStage (code token : Nat) (params words : List Int) : List Int :=
  ((List.range (Config.stagePasses code)).foldl (fun (p : List Int × Nat × Nat) k =>
    let m := passScaling code k
    let e := p.2.2 + m.grows p.2.1
    let out := (Config.passWords code k token params e (p.1.map (moveWord (m.shift p.2.1)))).map satSample
    (out, exponentDetector out, e)) (words, 31, 0)).1

/-- The first n words of a list, with zeros after its end. -/
def fitWords (n : Nat) (l : List Int) : List Int := (List.range n).map (fun k => nth l k 0)

/- PCM exchange (Table 10.1). -/

def sat16 (v : Int) : Int := clampI (-32768) 32767 v
/-- A 16-bit codec sample enters. -/
def pcmIn (s : Int) : Int := s * 65536
/-- A word leaves as a 16-bit codec sample. -/
def pcmOut (v : Int) : Int := sat16 (floorDiv (v + 32768) 65536)

/- G.711. -/

/-- A-law expansion, at 16 bits. -/
def alawDecode (c : Nat) : Int :=
  let a := c ^^^ 0x55
  let seg := bitsOf a 6 4
  let m := bitsOf a 3 0 * 16 + 8
  let mag : Int := (if seg = 0 then m else (m + 256) * 2 ^ (seg - 1) : Nat)
  if a.testBit 7 then mag else -mag

/-- µ-law expansion, at 16 bits. -/
def ulawDecode (c : Nat) : Int :=
  let u := c ^^^ 0xFF
  let mag : Int := ((bitsOf u 3 0 * 8 + 132) * 2 ^ bitsOf u 6 4 - 132 : Nat)
  if u.testBit 7 then -mag else mag

/-- A-law compression of a 16-bit sample. -/
def alawEncode (s : Int) : Nat :=
  let m := ((if s < 0 then -s - 1 else s) / 16).toNat
  let code := if m < 32 then m else let e := Nat.log2 m - 4; (e + 1) * 16 + (m / 2 ^ e - 16)
  (code + (if s < 0 then 0 else 128)) ^^^ 0x55

/-- µ-law compression of a 16-bit sample. -/
def ulawEncode (s : Int) : Nat :=
  let m := min 0x1FFF (((if s < 0 then -s - 1 else s) / 4).toNat + 33)
  let seg := Nat.log2 m - 4
  let code := (8 - seg) * 16 + (15 - m / 2 ^ seg % 16)
  code + (if s < 0 then 0 else 128)

/- G.722, 64 kbit/s. Arithmetic is of 16-bit words that saturate. -/

def g722Wl : List Int := [-60, -30, 58, 172, 334, 538, 1198, 3042]
def g722Rl42 : List Nat := [0, 7, 6, 5, 4, 3, 2, 1, 7, 6, 5, 4, 3, 2, 1, 0]
def g722Ilb : List Nat :=
  [2048, 2093, 2139, 2186, 2233, 2282, 2332, 2383, 2435, 2489, 2543, 2599, 2656, 2714, 2774, 2834] ++
  [2896, 2960, 3025, 3091, 3158, 3228, 3298, 3371, 3444, 3520, 3597, 3676, 3756, 3838, 3922, 4008]
def g722Wh : List Int := [0, -214, 798]
def g722Rh2 : List Nat := [2, 1, 2, 1]
def g722Qm2 : List Int := [-7408, -1616, 7408, 1616]
def g722Qm4 : List Int := [0, -20456, -12896, -8968, -6288, -4240, -2584, -1200, 20456, 12896, 8968, 6288, 4240, 2584, 1200, 0]
def g722Qm6 : List Int :=
  [-136, -136, -136, -136, -24808, -21904, -19008, -16704, -14984, -13512, -12280, -11192, -10232, -9360, -8576, -7856] ++
  [-7192, -6576, -6000, -5456, -4944, -4464, -4008, -3576, -3168, -2776, -2400, -2032, -1688, -1360, -1040, -728] ++
  [24808, 21904, 19008, 16704, 14984, 13512, 12280, 11192, 10232, 9360, 8576, 7856, 7192, 6576, 6000, 5456] ++
  [4944, 4464, 4008, 3576, 3168, 2776, 2400, 2032, 1688, 1360, 1040, 728, 432, 136, -432, -136]
def g722Q6 : List Nat :=
  [0, 35, 72, 110, 150, 190, 233, 276, 323, 370, 422, 473, 530, 587, 650] ++
  [714, 786, 858, 940, 1023, 1121, 1219, 1339, 1458, 1612, 1765, 1980, 2195, 2557, 2919]
def g722Qmf : List Int := [3, -11, 12, 32, -210, 951, 3876, -805, 362, -156, 53, -11]

/-- A product of 16-bit words shifted right by 15. -/
def mul15 (a b : Int) : Int := floorDiv (a * b) 32768

/-- The scale factor of a log scale factor, for the exponent offset of the band. -/
def g722Scale (offset : Int) (nb : Int) : Int :=
  let m : Int := (nth g722Ilb ((floorDiv nb 64).toNat % 32) 0 : Nat)
  let sh := offset - floorDiv nb 2048
  4 * (if sh < 0 then m * (2 ^ (-sh).toNat : Nat) else floorDiv m (2 ^ sh.toNat))

/-- The log scale factor follows a code. -/
def g722Log (top : Int) (nb w : Int) : Int := clampI 0 top (floorDiv (nb * 127) 128 + w)

/-- Both predictors of a band follow a difference signal. -/
def SubBand.adapt (x : SubBand) (dx : Int) : SubBand :=
  let r0 := sat16 (x.s + dx)
  let p0 := sat16 (x.sz + dx)
  let same := fun (a b : Int) => decide (a < 0) == decide (b < 0)
  let w := sat16 (4 * x.a1)
  let w2 := min 32767 (if same p0 x.p1 then -w else w)
  let a2 := clampI (-12288) 12288 (floorDiv w2 128 + (if same p0 x.p2 then 128 else -128) + mul15 x.a2 32512)
  let lim := sat16 (15360 - a2)
  let a1 := clampI (-lim) lim (sat16 ((if same p0 x.p1 then 192 else -192) + mul15 x.a1 32640))
  let g : Int := if dx = 0 then 0 else 128
  let b := (x.b.zip x.d).map (fun q => sat16 ((if same q.2 dx then g else -g) + mul15 q.1 32640))
  let d := (dx :: x.d).take 6
  let sp := sat16 (mul15 a1 (sat16 (2 * r0)) + mul15 a2 (sat16 (2 * x.r1)))
  let sz := sat16 (sumI ((b.zip d).map (fun q => mul15 q.1 (sat16 (2 * q.2)))))
  { x with s := sat16 (sp + sz), sz := sz, a1 := a1, a2 := a2, r1 := r0, p1 := p0, p2 := x.p1, b := b, d := d }

/-- The lower band follows the upper four bits of its code. -/
def SubBand.stepLow (x : SubBand) (code : Nat) : SubBand :=
  let q := code / 4
  let y := x.adapt (mul15 x.det (nth g722Qm4 q 0))
  let nb := g722Log 18432 x.nb (nth g722Wl (nth g722Rl42 q 0) 0)
  { y with nb := nb, det := g722Scale 8 nb }

/-- The upper band follows its code. -/
def SubBand.stepHigh (x : SubBand) (code : Nat) : SubBand :=
  let y := x.adapt (mul15 x.det (nth g722Qm2 code 0))
  let nb := g722Log 22528 x.nb (nth g722Wh (nth g722Rh2 code 0) 0)
  { y with nb := nb, det := g722Scale 10 nb }

/-- The bands of a coder after a reset. -/
def lowBand : SubBand := { det := 32 }
def highBand : SubBand := { det := 8 }

/-- One phase of the quadrature mirror filter over 24 words, oldest first. -/
def qmfEven (x : List Int) : Int := sumI ((List.range 12).map (fun k => nth x (2 * k) 0 * nth g722Qmf k 0))
def qmfOdd (x : List Int) : Int := sumI ((List.range 12).map (fun k => nth x (2 * k + 1) 0 * nth g722Qmf (11 - k) 0))

/-- The latest 24 words of the filter, with two more. -/
def qmfPush (l : List Int) (a b : Int) : List Int := ((List.replicate (24 - l.length) 0 ++ l).drop 2) ++ [a, b]

/-- One byte decodes to two 16-bit samples. -/
def Coder.g722Decode (x : Coder) (c : Nat) : (Int × Int) × Coder :=
  let lim := clampI (-16384) 16383
  let rl := lim (x.low.s + mul15 x.low.det (nth g722Qm6 (c % 64) 0))
  let rh := lim (x.high.s + mul15 x.high.det (nth g722Qm2 (c / 64 % 4) 0))
  let q := qmfPush x.qmf (rl + rh) (rl - rh)
  ((sat16 (floorDiv (qmfOdd q) 2048), sat16 (floorDiv (qmfEven q) 2048)),
    { x with low := x.low.stepLow (c % 64), high := x.high.stepHigh (c / 64 % 4), qmf := q })

/-- The lower band's code of a difference. -/
def g722QuantLow (det e : Int) : Nat :=
  let wd := if e < 0 then -e - 1 else e
  let i := ((List.range 30).filter (fun k => decide (1 ≤ k ∧ floorDiv (((nth g722Q6 k 0 : Nat) : Int) * det) 4096 ≤ wd))).length + 1
  if e < 0 then (if i = 1 then 63 else if i = 2 then 62 else 34 - i) else 62 - i

/-- The upper band's code of a difference. -/
def g722QuantHigh (det e : Int) : Nat :=
  let wd := if e < 0 then -e - 1 else e
  let far := decide (floorDiv (564 * det) 4096 ≤ wd)
  if e < 0 then (if far then 0 else 1) else (if far then 2 else 3)

/-- Two 16-bit samples encode to one byte. -/
def Coder.g722Encode (x : Coder) (a b : Int) : Nat × Coder :=
  let q := qmfPush x.qmf a b
  let lo := floorDiv (qmfOdd q + qmfEven q) 16384
  let hi := floorDiv (qmfOdd q - qmfEven q) 16384
  let il := g722QuantLow x.low.det (sat16 (lo - x.low.s))
  let ih := g722QuantHigh x.high.det (sat16 (hi - x.high.s))
  (64 * ih + il, { x with low := x.low.stepLow il, high := x.high.stepHigh ih, qmf := q })

/-- Bytes decode in order. -/
def Coder.g722DecodeAll : Coder → List Byte → List Int × Coder
  | x, [] => ([], x)
  | x, c :: cs =>
    let (p, y) := x.g722Decode c.toNat
    let r := Coder.g722DecodeAll y cs
    (p.1 :: p.2 :: r.1, r.2)

/-- Samples encode in order, two to a byte. -/
def Coder.g722EncodeAll : Coder → List Int → List Byte × Coder
  | x, a :: b :: vs =>
    let (c, y) := x.g722Encode a b
    let r := Coder.g722EncodeAll y vs
    (BitVec.ofNat 8 c :: r.1, r.2)
  | x, _ => ([], x)

/- Decoding and encoding a frame (R233, R238). -/

/-- A coder after a reset (R230). -/
def Coder.fresh : Coder := { low := lowBand, high := highBand }

/-- The stage code of a codec's decoder and encoder (Table 10.2). -/
def decodeStage (codec : Nat) : Nat := match codec with | 5 => 0x01 | 8 => 0x03 | _ => 0x02
def encodeStage (codec : Nat) : Nat := match codec with | 5 => 0x21 | 8 => 0x23 | _ => 0x22

/-- The samples that a frame decodes to (R232, R233): kind 0 a packet, 1 in-band FEC data of the packet given, 2 concealment, 3 silence. -/
def Coder.decode (x : Coder) (codec kind : Nat) (data : List Byte) : List Int × Coder :=
  let n := codecSamples codec
  let params := (kind : Int) :: data.map (fun b => (b.toNat : Int))
  let made := libraryStage (decodeStage codec) x.token params []
  let next := fun (v : List Int) => Config.stageNext (decodeStage codec) x.token params v
  if kind = 3 then (List.replicate n 0, x)
  else if codec = 5 then (fitWords n made, { x with token := next [] })
  else if kind = 2 then
    let v := (fitWords n made).map (fun w => pcmIn (sat16 w))
    (v, { x with token := next v })
  else
    let (v, y) := match codec with
      | 6 => (data.map (fun (b : Byte) => alawDecode b.toNat), x)
      | 7 => (data.map (fun (b : Byte) => ulawDecode b.toNat), x)
      | _ => x.g722DecodeAll data
    let w := fitWords n (v.map pcmIn)
    (w, { y with token := next w })

/-- A decimator (R238): 96 taps over the latest samples, `hist` newest first, one output with the last of every n inputs. -/
def decimate (table n : Nat) : List Int → Nat → List Int → List Int × List Int
  | hist, _, [] => ([], hist)
  | hist, c, v :: vs =>
    let h := (v :: hist).take 96
    let r := decimate table n h ((c + 1) % n) vs
    (if c + 1 = n then store (sumI ((h.zip (List.range 96)).map (fun q => Config.decimatorCoef table q.2 * q.1))) 0 :: r.1 else r.1, r.2)

/-- The settings that an Opus encoder takes (R238). -/
def opusSettings (c : AudioCfg) : List Int := [(c.bitrate : Int), c.bandwidth, c.flags, c.lossPct]

/-- A window of 960 samples encodes to a payload; none when the encoder chooses discontinuous transmission (R238). -/
def Coder.encode (x : Coder) (c : AudioCfg) (v : List Int) : Option (List Byte) × Coder :=
  if c.codec = 5 then
    let p := opusSettings c
    ( if c.flags.testBit 1 && Config.opusDtx x.token p v then none else some ((libraryStage 0x21 x.token p v).map (BitVec.ofInt 8)),
      { x with token := Config.stageNext 0x21 x.token p v })
  else
    let (w, hist) := if c.codec = 8 then decimate 2 3 x.decim 0 v else decimate 1 6 x.decim 0 v
    let pcm := w.map pcmOut
    let (bytes, y) := match c.codec with
      | 6 => (pcm.map (fun s => BitVec.ofNat 8 (alawEncode s)), x)
      | 7 => (pcm.map (fun s => BitVec.ofNat 8 (ulawEncode s)), x)
      | _ => x.g722EncodeAll pcm
    (some bytes, { y with decim := hist })

end Sys2Proof.Machine
end

