-- ==== Sys2Proof/Machine/EventOps.lean ====
section
/-! DEFINITION. Operations of the event merger and of subscriptions (16_events_and_telemetry.md).
Corners of events: DEDUCED (log entries 18, 44). -/

namespace Sys2Proof.Machine

/-- How long after its stamp a record is released (R351). -/
def releaseDelay : Instant := ns 2000000

/-- The release frontier (R351, R353); before TAI 0 it is TAI 0. -/
def State.frontier (s : State) : Instant := s.now - releaseDelay

/-- An EVENTS_LOST record, stamped with the release frontier (R353, Table 16.3). -/
def State.lostRecord (s : State) (sub cause count : Nat) : EventRec :=
  { stamp := s.frontier, source := 226, code := 1,
    data := BitVec.ofNat 120 (dCode 112 8 sub + dCode 104 8 cause + dBits 72 32 count) }

/-- EVENTS_LOST for all subscribers enters the merger at the frontier (R352, R354). -/
def State.lostForAll (s : State) (cause count : Nat) : State :=
  { s with events := { s.events with held := s.events.held ++ [s.lostRecord 0xFF cause count] } }

/-- The order of R351: stamp, source, package; equal ones keep the order in which they were raised. -/
def EventRec.before (a b : EventRec) : Bool :=
  decide (a.stamp < b.stamp) || (a.stamp == b.stamp && (decide (a.source < b.source) ||
    (a.source == b.source && decide (a.pkg < b.pkg))))

/-- The first record in the order of R351, with the others in their order. -/
def firstRecord : List EventRec → Option (EventRec × List EventRec)
  | [] => none
  | r :: rs =>
    match firstRecord rs with
    | none => some (r, [])
    | some (x, others) => if x.before r then some (x, r :: others) else some (r, rs)

/-- Records of a subscriber's queue and of its history (R358). -/
def queueMax : Nat := 65536

/-- The mask that a record of this stamp meets (R355). -/
def Subscriber.maskAt (b : Subscriber) (stamp : Instant) : BitVec 256 :=
  match b.masks.find? (fun m => decide (m.1 ≤ stamp)) with
  | some m => m.2
  | none => 0

/-- The subscriber takes records of this source and stamp (Table 16.6: source s is admitted when bit 255 − s is set). -/
def Subscriber.admits (b : Subscriber) (r : EventRec) : Bool := b.events && (b.maskAt r.stamp).getLsbD (255 - r.source)

/-- A record takes the next sequence and its place in the queue (R357). -/
def Subscriber.place (b : Subscriber) (now : Instant) (r : EventRec) : Subscriber :=
  { b with queue := b.queue ++ [({ seq := b.nextSeq, rec_ := r }, now)], nextSeq := b.nextSeq + 1 }

/-- Once the queue has room for two records, EVENTS_LOST with the number dropped is placed (R358). -/
def Subscriber.noteLost (b : Subscriber) (now : Instant) (lost : Nat → EventRec) : Subscriber :=
  if b.droppedPending ≠ 0 ∧ b.queue.length + 2 ≤ queueMax then
    { b.place now (lost b.droppedPending) with droppedPending := 0 }
  else b

/-- A released record meets a subscriber (R357, R358). -/
def Subscriber.offer (b : Subscriber) (now : Instant) (lost : Nat → EventRec) (r : EventRec) : Subscriber :=
  if !b.admits r then b
  else
    let b1 := b.noteLost now lost
    if queueMax ≤ b1.queue.length then { b1 with dropped := b1.dropped + 1, droppedPending := b1.droppedPending + 1 }
    else b1.place now r

/-- Event records that a packet holds at most (R357), and samples (R360). -/
def eventCap (maxDatagram : Nat) : Nat := (maxDatagram - 68) / 32
def sampleCap (maxDatagram : Nat) : Nat := (maxDatagram - 68) / 20

/-- The subscriber number of a session. -/
def EventState.subOf (e : EventState) (session : Nat) : Option Nat :=
  (e.subs.find? (fun p => p.2.session == session)).map (·.1)

/-- What a takeover does to the subscriptions (R359): records not yet sent and the history are lost, the numbering goes on from
the copied value, and EVENTS_LOST with cause 3 is placed for each subscriber. -/
def State.eventsTakeover (s : State) : State :=
  { s with events := { s.events with
      subs := s.events.subs.mapVals (fun n b =>
        { b with queue := [], history := [], nextSeq := b.copied, droppedPending := 0 }.place s.now
          (s.lostRecord n 3 0xFFFFFFFF)) },
           egress := { s.egress with samplesWaiting := [] } }

/-- Masks that a record still to come may meet: the newest that applies at the frontier, and newer ones. -/
def pruneMasks (frontier : Instant) (l : List (Instant × BitVec 256)) : List (Instant × BitVec 256) :=
  l.filter (fun m => decide (frontier < m.1)) ++ (l.filter (fun m => decide (m.1 ≤ frontier))).take 1

def applyEvent (c : EventChange) (s : State) : State :=
  match c with
  | .subscribe num session flags flushMs maxPps mask =>
    let m := BitVec.ofNat 256 mask
    let old := match s.events.subs.find num with
      | some b => if b.session = session then b else { session := session }
      | none => { session := session }
    let b := { old with events := flags.testBit 0, samples := flags.testBit 1, flushMs := flushMs, maxPps := maxPps,
                        masks := (s.now, m) :: pruneMasks s.frontier old.masks }
    { s with events := { s.events with subs := s.events.subs.put num b } }
  | .cancel session =>
    { s with events := { s.events with subs := s.events.subs.filter (fun p => p.2.session != session) } }

end Sys2Proof.Machine
end

