-- ==== Sys2Proof/Machine/PtpWire.lean ====
section
/-! DEFINITION. PTP messages as bytes: how the time unit reads them, writes them and passes them on (R289 to R293).
The layout of IEEE 1588-2019 is PRESUMED (log entry 37). -/

namespace Sys2Proof.Machine

/- Frames. -/

/-- EtherType 0x88F7, or UDP to port 319 or 320 (Table 4.1 rule 2). -/
def EthFrame.isPtp (e : EthFrame) : Bool := e.type == 0x88F7 || (e.ip.isUdp && (e.ip.dstUdp == 319 || e.ip.dstUdp == 320))

/-- The PTP message of a frame, and whether it was sent to a group (R289). -/
def EthFrame.ptp (e : EthFrame) : List Byte := if e.type = 0x88F7 then e.rest else e.ip.udpPayload
def EthFrame.multicast (e : EthFrame) : Bool :=
  if e.type = 0x88F7 then e.dst / 2 ^ 40 % 2 == 1
  else if e.ip.family = 4 then decide (224 ≤ e.ip.dst / 2 ^ 24 ∧ e.ip.dst / 2 ^ 24 ≤ 239) else e.ip.dst / 2 ^ 120 == 0xFF

/- Messages that the module sends. -/

/-- A timestamp of 48 bits of seconds and 32 of nanoseconds. -/
def ptpStamp (t : Instant) : List Byte := beBytes 6 (secOf t) ++ beBytes 4 (nsOf t % 1000000000)

/-- The TLV of a unicast negotiation: request, grant, cancel, acknowledge. -/
def ptpTlv (t : Nat × Nat × Nat) : List Byte :=
  let head := fun (type n : Nat) => beBytes 2 type ++ beBytes 2 n ++ beBytes 1 (t.2.1 * 16)
  match t.1 with
  | 0 => head 4 6 ++ zeros 1 ++ beBytes 4 t.2.2
  | 1 => head 5 8 ++ zeros 1 ++ beBytes 4 t.2.2 ++ zeros 2
  | 2 => head 6 2 ++ zeros 1
  | _ => head 7 2 ++ zeros 1

/-- What follows the header of a message. -/
def PtpMsg.tail (m : PtpMsg) : List Byte :=
  match m.kind with
  | 9 => ptpStamp m.stamp ++ beBytes 10 m.requesting
  | 11 =>
    let d := m.ds.getD {}
    zeros 10 ++ beBytes 2 d.utcOffset ++ zeros 1 ++ beBytes 1 d.priority1 ++ beBytes 1 d.gmClass ++ beBytes 1 d.gmAccuracy ++ beBytes 2 d.gmVariance ++
    beBytes 1 d.priority2 ++ beBytes 8 d.gmIdentity ++ beBytes 2 d.stepsRemoved ++ beBytes 1 0xA0
  | 12 => List.replicate 10 0xFF ++ (match m.tlv with | some t => ptpTlv t | none => [])
  | _ => ptpStamp m.stamp

/-- The flags: unicast in the first octet; of an Announce, the PTP timescale, a valid UTC offset and timeTraceable in the second. -/
def PtpMsg.flags (m : PtpMsg) : List Byte :=
  beBytes 1 (4 * b2n m.unicast) ++ beBytes 1 (match m.ds with | some d => 0x0C + 0x10 * b2n d.timeTraceable | none => 0)

/-- controlField. -/
def ptpControl (kind : Nat) : Nat := match kind with | 0 => 0 | 1 => 1 | 9 => 3 | _ => 5

def PtpMsg.bytes (m : PtpMsg) : List Byte :=
  beBytes 1 m.kind ++ [0x12] ++ beBytes 2 (34 + m.tail.length) ++ beBytes 1 m.domain ++ zeros 1 ++ m.flags ++ beInt 8 m.corr ++ zeros 4 ++
  beBytes 10 m.source ++ beBytes 2 m.seq ++ beBytes 1 (ptpControl m.kind) ++ beInt 1 m.log ++ m.tail

/- Frames that the transparent clock passes on (R293). -/

/-- Bytes written over others from an offset. -/
def splice (b : List Byte) (off : Nat) (v : List Byte) : List Byte := b.take off ++ v ++ b.drop (off + v.length)

/-- Where the PTP message of a frame starts. -/
def ptpOffset (f : List Byte) : Nat :=
  let e := ethOf f
  let l3 := 14 + 4 * e.tags
  if e.type = 0x88F7 then l3 else if e.ip.family = 4 then l3 + 4 * (fieldAt e.rest 0 1 % 16) + 8 else l3 + 48

/-- The frame of an event message with `add` added to its correctionField; its UDP checksum and its check sequence follow. An IPv4 checksum
that arrived as zero stays zero (R291, R293). -/
def passedFrame (f : List Byte) (add : Int) : List Byte :=
  let e := ethOf f
  let o := ptpOffset f
  let b := splice (frameBody f) (o + 8) (beInt 8 (satI 64 (signed 64 (fieldAt f (o + 8) 8) + add)))
  let summed :=
    if e.type = 0x88F7 ∨ (e.ip.family = 4 ∧ fieldAt b (o - 2) 2 = 0) then b
    else
      let z := splice b (o - 2) (zeros 2)
      let n := fieldAt b (o - 4) 2
      let c := inetSum (pseudoHeader e.ip.family e.ip.src e.ip.dst n ++ (z.drop (o - 8)).take n)
      splice z (o - 2) (beBytes 2 (if c = 0 then 65535 else c))
  summed ++ fcsBytes summed

end Sys2Proof.Machine

/- A PTP message as the time unit reads it. -/

namespace Sys2Proof

open Sys2Proof.Machine

def PtpRx.eth (x : PtpRx) : EthFrame := ethOf x.bytes
def PtpRx.msg (x : PtpRx) : List Byte := x.eth.ptp
def PtpRx.len (x : PtpRx) : Nat := x.bytes.length
def PtpRx.multicast (x : PtpRx) : Bool := x.eth.multicast
def PtpRx.kind (x : PtpRx) : Nat := fieldAt x.msg 0 1 % 16
def PtpRx.domain (x : PtpRx) : Nat := fieldAt x.msg 4 1
def PtpRx.twoStep (x : PtpRx) : Bool := (fieldAt x.msg 6 1).testBit 1
/-- correctionField, in 2^-16 ns. -/
def PtpRx.corr (x : PtpRx) : Int := signed 64 (fieldAt x.msg 8 8)
def PtpRx.source (x : PtpRx) : Nat := fieldAt x.msg 20 10
def PtpRx.seq (x : PtpRx) : Nat := fieldAt x.msg 30 2
/-- originTimestamp or receiveTimestamp. -/
def PtpRx.stamp (x : PtpRx) : Instant := sec (fieldAt x.msg 34 6) + ns (fieldAt x.msg 40 4)
def PtpRx.requesting (x : PtpRx) : Nat := fieldAt x.msg 44 10
/-- The address that a message came from. -/
def PtpRx.peer (x : PtpRx) : Nat := if x.eth.ip.family = 0 then x.eth.src else x.eth.ip.src

/-- The data of an Announce. -/
def PtpRx.data (x : PtpRx) : Parent :=
  let f := fieldAt x.msg
  { identity := x.source / 65536, gmIdentity := f 53 8, gmClass := f 48 1, gmAccuracy := f 49 1, gmVariance := f 50 2, priority1 := f 47 1
    priority2 := f 52 1, stepsRemoved := f 61 2, timeTraceable := (f 7 1).testBit 4, utcOffset := f 44 2 }

/-- Bytes of a message of a kind, without TLVs. -/
def ptpLeast (kind : Nat) : Nat := match kind with | 9 => 54 | 10 => 54 | 3 => 54 | 2 => 54 | 11 => 64 | _ => 44

/-- A message that cannot be read: another version, too short for its kind or for its messageLength, or a UDP checksum that does not hold. -/
def PtpRx.malformed (x : PtpRx) : Bool :=
  fieldAt x.msg 1 1 % 16 != 2 || decide (fieldAt x.msg 2 2 < ptpLeast x.kind) || decide (x.msg.length < fieldAt x.msg 2 2) ||
  (x.eth.type != 0x88F7 && !x.eth.ip.udpSumOk)

/-- The unicast negotiations of a Signaling message's TLVs: kind, messageType, duration (on fuel). -/
def ptpTlvs : Nat → List Byte → List (Nat × Nat × Nat)
  | 0, _ => []
  | n + 1, b =>
    if b.length < 4 then []
    else
      let type := fieldAt b 0 2
      let v := b.drop 4
      let rest := ptpTlvs n (v.drop (fieldAt b 2 2))
      if 4 ≤ type ∧ type ≤ 7 then (type - 4, fieldAt v 0 1 / 16, if type ≤ 5 then fieldAt v 2 4 else 0) :: rest else rest

def PtpRx.tlvs (x : PtpRx) : List (Nat × Nat × Nat) := ptpTlvs 64 ((x.msg.take (fieldAt x.msg 2 2)).drop 44)

end Sys2Proof
end

