-- ==== Sys2Proof/Machine/Srtp.lean ====
section
/-! DEFINITION. SRTP and SRTCP under the transforms of Table 5.1: key derivation, encryption, tags (R113, RFC 3711, RFC 6188, RFC 7714).
The algorithms of the RFCs are PRESUMED (log entry 53). -/

namespace Sys2Proof.Machine

/-- Key lengths of a transform: master key and salt bytes (Table 5.1). -/
def transformKeyLen (t : Nat) : Nat := if t = 1 ∨ t = 2 ∨ t = 5 ∨ t = 6 then 16 else 32
def transformSaltLen (t : Nat) : Nat := if t = 6 ∨ t = 7 then 12 else 14
/-- SRTP tag bytes (Table 5.1), and SRTCP tag bytes (R113). -/
def transformTag (t : Nat) : Nat := if t = 2 ∨ t = 4 then 4 else if t = 6 ∨ t = 7 then 16 else 10
def transformRtcpTag (t : Nat) : Nat := if t = 6 ∨ t = 7 then 16 else 10
/-- Counter mode: the transforms that may serve the express path (R104, R113). -/
def transformCounter (t : Nat) : Bool := t != 5
/-- The AEAD transforms. -/
def transformGcm (t : Nat) : Bool := t == 6 || t == 7

/- Key derivation, with a derivation rate of 0. -/

/-- n bytes of the derivation function for a label: AES in counter mode under the master key. A 12-byte salt is extended by two zero bytes. -/
def srtpDerive (key salt : List Byte) (label n : Nat) : List Byte :=
  let s := beNat (salt ++ zeros (14 - salt.length))
  (ctrCrypt (roundKeys key) 16 ((s ^^^ label * 2 ^ 48) * 2 ^ 16) (zeros n))

/-- A key context as it is installed: its session keys are derived once (R113). -/
def KeyCtx.derive (k : KeyCtx) : KeyCtx :=
  let key := beBytes (transformKeyLen k.transform) k.masterKey
  let salt := beBytes (transformSaltLen k.transform) k.masterSalt
  let d := srtpDerive key salt
  { k with srtpKey := d 0 key.length, srtpAuth := d 1 20, srtpSalt := d 2 salt.length,
           srtcpKey := d 3 key.length, srtcpAuth := d 4 20, srtcpSalt := d 5 salt.length }

/- SRTP. -/

/-- The initial counter block of AES-CM. -/
def cmIv (salt : List Byte) (ssrc index : Nat) : Nat := (beNat salt * 2 ^ 16) ^^^ (ssrc * 2 ^ 64) ^^^ (index * 2 ^ 16)

/-- The nonce of AES-GCM. -/
def gcmNonce (salt : List Byte) (ssrc index : Nat) : Nat := beNat salt ^^^ (ssrc * 2 ^ 48 + index)

/-- The initial vector of AES-f8: M, PT, sequence, time-stamp and SSRC of the header, and the rollover counter. -/
def f8SrtpIv (header : List Byte) (index : Nat) : Nat := fieldAt header 1 11 * 2 ^ 32 + index / 2 ^ 16 % 2 ^ 32

/-- The crypto message of a packet (R113): `text` is its payload, in clear or, where `opens`, encrypted. -/
def KeyCtx.srtpMsg (k : KeyCtx) (index : Nat) (header text : List Byte) (opens : Bool) : CryptoMsg :=
  let ssrc := fieldAt header 8 4
  let roc := beBytes 4 (index / 2 ^ 16)
  let n := transformTag k.transform
  if transformGcm k.transform then gcmMsg k.srtpKey (gcmNonce k.srtpSalt ssrc index) header text opens
  else if k.transform = 5 then
    sha1Msg .f8 k.srtpKey k.srtpAuth header text roc { f8Iv := f8Iv k.srtpKey k.srtpSalt (f8SrtpIv header index) } n opens
  else sha1Msg (.ctr 16) k.srtpKey k.srtpAuth header text roc { counter := cmIv k.srtpSalt ssrc index } n opens

/-- The MKI bytes of a packet. -/
def KeyCtx.mkiBytes (k : KeyCtx) : List Byte := beBytes k.mkiLength k.mki

/-- What follows the header of a protected packet: encrypted payload, MKI and tag. -/
def KeyCtx.srtpSeal (k : KeyCtx) (index : Nat) (header payload : List Byte) : List Byte :=
  let m := (k.srtpMsg index header payload false).finish
  m.output ++ k.mkiBytes ++ m.tag

/-- Bytes that a key context adds to a packet. -/
def KeyCtx.growth (k : KeyCtx) : Nat := k.mkiLength + transformTag k.transform

/-- What follows the header of a received packet, cut under a key context: encrypted payload, MKI and tag. -/
def KeyCtx.srtpCut (k : KeyCtx) (body : List Byte) : List Byte × List Byte × List Byte :=
  let n := body.length - k.growth
  (body.take n, (body.drop n).take k.mkiLength, body.drop (n + k.mkiLength))

/-- The crypto message of a received packet whose header and what follows it are given. -/
def KeyCtx.srtpIn (k : KeyCtx) (index : Nat) (header body : List Byte) : CryptoMsg := k.srtpMsg index header (k.srtpCut body).1 true

/-- The tag of a received packet verifies. -/
def KeyCtx.srtpVerifies (k : KeyCtx) (index : Nat) (header body : List Byte) : Bool :=
  decide (k.growth ≤ body.length) && (k.srtpCut body).2.2 == (k.srtpIn index header body).finish.tag

/-- The payload of a received packet in clear. -/
def KeyCtx.srtpOpen (k : KeyCtx) (index : Nat) (header body : List Byte) : List Byte := (k.srtpIn index header body).finish.output

/- SRTCP: 8 bytes in clear, the encrypted rest, the E flag with the index, MKI and tag. -/

/-- The initial vector of AES-f8 for SRTCP: the E flag with the index, and the clear bytes. -/
def f8SrtcpIv (head word : List Byte) : Nat := beNat word * 2 ^ 64 + beNat head

/-- The crypto message of an SRTCP packet: `head` its 8 clear bytes, `word` the E flag with its index; a GCM packet's additional data is both. -/
def KeyCtx.srtcpMsg (k : KeyCtx) (head word text : List Byte) (opens : Bool) : CryptoMsg :=
  let ssrc := fieldAt head 4 4
  let index := beNat word % 2 ^ 31
  if transformGcm k.transform then gcmMsg k.srtcpKey (gcmNonce k.srtcpSalt ssrc index) (head ++ word) text opens
  else if k.transform = 5 then
    sha1Msg .f8 k.srtcpKey k.srtcpAuth head text word { f8Iv := f8Iv k.srtcpKey k.srtcpSalt (f8SrtcpIv head word) } (transformRtcpTag 5) opens
  else sha1Msg (.ctr 16) k.srtcpKey k.srtcpAuth head text word { counter := cmIv k.srtcpSalt ssrc index } (transformRtcpTag k.transform) opens

/-- The word of an SRTCP packet that the module makes: E is set. -/
def srtcpWord (index : Nat) : List Byte := beBytes 4 (2 ^ 31 + index % 2 ^ 31)

/-- The crypto message of an SRTCP packet that the module makes around a compound in clear. -/
def KeyCtx.srtcpOut (k : KeyCtx) (index : Nat) (rtcp : List Byte) : CryptoMsg := k.srtcpMsg (rtcp.take 8) (srtcpWord index) (rtcp.drop 8) false

/-- A whole SRTCP packet around a compound in clear. -/
def KeyCtx.srtcpSeal (k : KeyCtx) (index : Nat) (rtcp : List Byte) : List Byte :=
  let m := (k.srtcpOut index rtcp).finish
  rtcp.take 8 ++ m.output ++ srtcpWord index ++ k.mkiBytes ++ m.tag

/-- Bytes behind the encrypted part of an SRTCP packet: the word, MKI and tag. -/
def KeyCtx.srtcpTail (k : KeyCtx) : Nat := 4 + k.mkiLength + transformRtcpTag k.transform

/-- The crypto message of a received SRTCP packet. -/
def KeyCtx.srtcpIn (k : KeyCtx) (p : List Byte) : CryptoMsg :=
  let n := p.length - k.srtcpTail - 8
  k.srtcpMsg (p.take 8) ((p.drop (8 + n)).take 4) ((p.drop 8).take n) true

/-- The compound of an SRTCP packet in clear, where its tag verifies; without the E flag nothing was encrypted. -/
def KeyCtx.srtcpOpen (k : KeyCtx) (p : List Byte) : Option (List Byte) :=
  let n := p.length - k.srtcpTail - 8
  let m := (k.srtcpIn p).finish
  if p.length < k.srtcpTail + 8 then none
  else if p.drop (p.length - transformRtcpTag k.transform) == m.tag then
    some (p.take 8 ++ (if fieldAt p (8 + n) 4 < 2 ^ 31 then (p.drop 8).take n else m.output))
  else none

end Sys2Proof.Machine
end

