-- ==== Sys2Proof/Machine/FwdOps.lean ====
section
/-! DEFINITION. Operations on stream contexts, targets, layer selection and rewriting (04_forwarding_and_layers.md). -/

namespace Sys2Proof.Machine

def State.stream (s : State) (id : Nat) : Option Stream := s.fwd.streams.find id
def State.setStream (s : State) (id : Nat) (x : Stream) : State :=
  { s with fwd := { s.fwd with streams := s.fwd.streams.put id x } }

/-- Change the counters of a context. -/
def State.countStream (s : State) (id : Nat) (f : StreamCtrs → StreamCtrs) : State :=
  { s with fwd := { s.fwd with streams := s.fwd.streams.modify id (fun x => { x with ctrs := f x.ctrs }) } }

/-- Port contexts bound to a destination address and UDP port of a port (Table 4.1 rule 11). -/
def FwdState.bound (f : FwdState) (port family addr udp : Nat) : List (Nat × Stream) :=
  f.streams.filter (fun p => p.2.cfg.sourceKind == 0 && p.2.cfg.port == port && p.2.cfg.family == family &&
    p.2.cfg.dstAddress == addr && p.2.cfg.dstUdpPort == udp)

/-- The lookup key of a port context as bytes (R87). -/
def lookupKey (port family addr udp : Nat) (ssrc : W32) : List Nat :=
  ([BitVec.ofNat 8 port, BitVec.ofNat 8 family] ++ beBytes 16 addr ++ beBytes 2 udp ++ beBytes 4 ssrc.toNat).map (·.toNat)

/-- The packet cluster that serves a lookup key: bits [2:0] of its CRC-32 (R82). -/
def clusterOf (port family addr udp : Nat) (ssrc : W32) : Nat := crc32 (lookupKey port family addr udp ssrc) % 8

/- SRTP indexes and the replay window (R102, RFC 3711). -/

/-- The index that RFC 3711 estimates for a sequence number, given the highest index authenticated. -/
def rtpIndex (high : Option Nat) (seq : Nat) : Option Nat :=
  match high with
  | none => some seq
  | some h =>
    let roc := h / 65536
    let sl := h % 65536
    if sl < 32768 then
      if sl + 32768 < seq then (if roc = 0 then none else some ((roc - 1) * 65536 + seq)) else some (roc * 65536 + seq)
    else
      if seq + 32768 < sl then some ((roc + 1) * 65536 + seq) else some (roc * 65536 + seq)

/-- The packet's index is a replay: marked, provisionally or finally, or below the window of 1,024. -/
def Stream.replayed (x : Stream) (i : Nat) : Bool :=
  x.marks.any (fun m => m.index == i) ||
  (match x.highIndex with | some h => decide (i + 1024 ≤ h) | none => false)

def Stream.mark (x : Stream) (i : Nat) : Stream := { x with marks := x.marks ++ [{ index := i, final := false }] }
def Stream.unmark (x : Stream) (i : Nat) : Stream := { x with marks := x.marks.filter (fun m => m.index != i) }

/-- Authentication passed: the mark becomes final, and the highest index advances (R102). -/
def Stream.authenticated (x : Stream) (i : Nat) : Stream :=
  let h := match x.highIndex with | some h => max h i | none => i
  let ms := x.marks.map (fun m => if m.index = i then { m with final := true } else m)
  { x with highIndex := some h, marks := ms.filter (fun m => !m.final || decide (h < m.index + 1024)) }

/- Layer selection (R91 to R94). -/

/-- What the layer selector knows of a packet (Table 4.2). -/
structure Layers where
  spatial : Nat := 0
  temporal : Nat := 0
  frameStart : Bool := false
  frameEnd : Bool := false
  /-- The format gives no frame start of its own: a new time-stamp starts a frame and is a switch point (R93). -/
  byTime : Bool := false
  switchS : Bool := false
  switchT : Bool := false
  dti : Option (List Nat) := none
  newStruct : Bool := false
  /-- 0 known, 1 descriptor missing, 2 template not in the stored structure (R91). -/
  unknown : Nat := 0
  template : Nat := 0
deriving DecidableEq, Repr, Inhabited

/-- A limit admits a layer id; 0xFF admits all (Table 4.9). -/
def within (limit id : Nat) : Bool := limit == 0xFF || decide (id ≤ limit)

/-- Pairs of a spatial and a temporal id; 8 stands for every spatial id above 7, which only 0xFF admits. -/
def allPairs : List (Nat × Nat) := ((List.range 9).map (fun s => (List.range 8).map (fun t => (s, t)))).flatten

/-- The structure has the decode target. -/
def TemplateStruct.hasTarget (t : TemplateStruct) (d : Nat) : Bool := decide (d < t.targets)

/-- What a selection admits (R93): templates of the stored structure, by number, or pairs (spatial, temporal). -/
def LayerSel.admits (x : LayerSel) (st : Option TemplateStruct) : List (Nat × Nat) :=
  match st with
  | some t =>
    ((t.templates.filter (fun p =>
      if x.decodeTarget != 0xFF then nth p.dti x.decodeTarget 0 != 0
      else within x.maxSpatial p.spatial && within x.maxTemporal p.temporal))).map (fun p => (p.id, 0))
  | none =>
    if x.decodeTarget != 0xFF then [] else allPairs.filter (fun p => within x.maxSpatial p.1 && within x.maxTemporal p.2)

/-- A selection admits every layer (R91). -/
def LayerSel.isAll (x : LayerSel) : Bool := x.decodeTarget == 0xFF && x.maxSpatial == 0xFF && x.maxTemporal == 0xFF

/-- A limit adds layers over another one; a selection that was in decode-target mode is taken to add every layer. -/
def adds (new old : Nat) (oldTarget : Bool) : Bool :=
  oldTarget || (old != 0xFF && (new == 0xFF || decide (old < new)))

/-- The frame start is a switch point for a new selection (R93). `av1` marks AV1 with a dependency descriptor. -/
def switchPoint (l : Layers) (av1 : Bool) (new old : LayerSel) : Bool :=
  if l.byTime then true
  else if new.decodeTarget != 0xFF then
    match l.dti with
    | some d => nth d new.decodeTarget 0 == 2
    | none => false
  else if av1 then l.newStruct
  else
    let t := old.decodeTarget != 0xFF
    (!adds new.maxSpatial old.maxSpatial t || l.switchS) && (!adds new.maxTemporal old.maxTemporal t || l.switchT)

/-- A waiting selection is taken at a frame start (R93): at once when it admits a subset, else at a switch point. -/
def Target.settle (t : Target) (l : Layers) (av1 : Bool) (st : Option TemplateStruct) : Target :=
  match t.nextSel with
  | none => t
  | some n =>
    let subset := (n.admits st).all (fun p => (t.cfg.sel.admits st).contains p)
    if l.frameStart && (subset || switchPoint l av1 n t.cfg.sel) then
      { t with cfg := { t.cfg with sel := n }, nextSel := none }
    else t

/-- Whether the target's selection forwards the packet, and whether its decode target is absent from the stored structure
(R91, R92): a target whose decode target the structure lacks gets no packet of the context. -/
def LayerSel.forwards (x : LayerSel) (l : Layers) (missing : Nat) (st : Option TemplateStruct) : Bool × Bool :=
  if x.decodeTarget != 0xFF && (match st with | some t => !t.hasTarget x.decodeTarget | none => false) then (false, true)
  else if l.unknown != 0 then (missing == 0 || x.isAll, false)
  else if x.decodeTarget != 0xFF then (match l.dti with | some d => nth d x.decodeTarget 0 != 0 | none => false, false)
  else (within x.maxSpatial l.spatial && within x.maxTemporal l.temporal, false)

/-- The highest spatial id that a selection admits (R94); none where M is left as received. -/
def LayerSel.top (x : LayerSel) (st : Option TemplateStruct) : Option Nat :=
  if x.decodeTarget != 0xFF then
    match st with
    | none => none
    | some t =>
      let l := (t.templates.filter (fun p => nth p.dti x.decodeTarget 0 != 0)).map (·.spatial)
      if l.isEmpty then none else some (maxN l)
  else if x.maxSpatial == 0xFF then none else some x.maxSpatial

/- Sequence rewriting (R96). -/

/-- A target that waits for its first packet takes it (R96). -/
def Target.begin_ (t : Target) (x : W16) : Target :=
  match t.h with
  | some _ => t
  | none => { t with h := some (x - 1), d := x - t.cfg.seqStart }

/-- The H and D of a packet that was forwarded or dropped (R96). -/
def Target.pass (t : Target) (x : W16) (dropped : Bool) : Target :=
  match t.h with
  | none => t
  | some h => if seqAfter x h then { t with h := some x, d := if dropped then t.d + 1 else t.d } else t

/-- The outgoing sequence number (R96). -/
def Target.outSeq (t : Target) (x : W16) : W16 := x - t.d

/- The residence-time element (R97, R98). -/

/-- What becomes of the element of a copy: growth in bytes, the element (ID, value to add to), and whether rt_skipped counts.
`form` is 0 without an extension block, 1 one-byte, 2 two-byte, 3 another profile, in which no ID can be written; `pad` the trailing padding; `ingress` the element with the
context's ID. -/
def rtElement (rtIn : Nat) (t : TargetCfg) (form pad : Nat) (ingress : Option Nat) (len mtu : Nat) :
    Nat × Option (Nat × Nat) × Bool :=
  match ingress with
  | some v =>
    let id := if t.rtExtIdOut = 0 then rtIn else t.rtExtIdOut
    if form == 1 && decide (14 < id) then (0, some (rtIn, v), true) else (0, some (id, v), false)
  | none =>
    if !t.addRt then (0, none, false)
    else
      let id := if t.rtExtIdOut = 0 then rtIn else t.rtExtIdOut
      if id = 0 ∨ (form = 1 ∧ 14 < id) ∨ form = 3 then (0, none, true)
      else
        let grow := match form with
          | 0 => if id ≤ 14 then 8 else 12
          | 1 => if 4 ≤ pad then 0 else 4
          | _ => if 5 ≤ pad then 0 else 8
        if mtu < len + grow then (0, none, true) else (grow, some (id, 0), false)

/-- Frame bytes around an RTP packet: Ethernet with FCS, IP and UDP headers. -/
def frameOverhead (family : Nat) : Nat := 18 + (if family = 4 then 20 else 40) + 8

/- A copy on the wire (Table 4.3). -/

def MediaHdr.family (h : MediaHdr) : Nat := h.net.family
def MediaHdr.ssrc (h : MediaHdr) : W32 := h.rtp.ssrc
def MediaHdr.seq (h : MediaHdr) : W16 := h.rtp.seq
def MediaHdr.ts (h : MediaHdr) : W32 := h.rtp.ts
def MediaHdr.m (h : MediaHdr) : Bool := h.rtp.m
def MediaHdr.pt (h : MediaHdr) : Nat := h.rtp.pt
def MediaHdr.dscp (h : MediaHdr) : Nat := h.net.dscp
/-- The copy goes out with a UDP checksum of zero. -/
def MediaHdr.zeroChecksum (h : MediaHdr) : Bool := !h.net.sum

/-- The RTP packet with its residence-time element as committed (R97, R98). -/
def MediaHdr.sent (h : MediaHdr) : RtpPkt :=
  match h.rt, h.residence with
  | some (id, _), some v => h.rtp.withResidence h.rtOld id v
  | _, _ => h.rtp

/-- The bitwise inverse of the last n bytes. -/
def invertLast (n : Nat) (b : List Byte) : List Byte := b.take (b.length - n) ++ (b.drop (b.length - n)).map (fun x => ~~~x)

/-- The UDP payload of a copy: its payload is encrypted and its tag computed under its key; the tag of a poisoned copy is inverted (R107). -/
def MediaHdr.udp (h : MediaHdr) : List Byte :=
  let p := h.sent
  match h.prot with
  | none => p.header ++ p.body
  | some k =>
    let z := k.srtpSeal h.srtpIndex p.header p.body
    p.header ++ (if h.poisoned then invertLast (transformTag k.transform) z else z)

/-- The frame that leaves, from destination MAC through FCS; that of a stomped copy ends with the inverse of its FCS (R108). -/
def MediaHdr.wire (h : MediaHdr) : List Byte :=
  let f := h.net.frame h.udp
  let w := f ++ fcsBytes f
  if h.stomped then invertLast 4 w else w

/-- Where a packet of a port goes next: on the link, or by the port's gateway. -/
def PortAddr.nextHop (a : PortAddr) (family dst : Nat) : Nat :=
  let host := 2 ^ ((if family = 4 then 32 else 128) - a.prefixLen)
  if a.family = family ∧ a.gateway ≠ 0 ∧ dst / host ≠ a.addr / host then a.gateway else dst

/-- The MAC address of a group address. -/
def groupMac (family dst : Nat) : Option Nat :=
  if family = 4 ∧ 224 ≤ dst / 2 ^ 24 ∧ dst / 2 ^ 24 ≤ 239 then some (0x01005E000000 + dst % 2 ^ 23)
  else if family = 6 ∧ dst / 2 ^ 120 = 0xFF then some (0x333300000000 + dst % 2 ^ 32)
  else none

/-- The headers of a frame of a port (Table 4.3, R28). -/
def State.netHdr (s : State) (port family src dst sport dport dscp vid : Nat) : NetHdr :=
  { dstMac := (groupMac family dst).getD (Config.neighbourMac port ((s.vcp.addr port).nextHop family dst)).toNat,
    srcMac := (Config.macAddress port).toNat, vid := vid, family := family, src := src, dst := dst, sport := sport, dport := dport, dscp := dscp }

/-- A queued copy of a port as the frame that leaves, where the model holds its payload. PTP over Ethernet goes to its group (R289); a short
frame is padded. -/
def State.frameOf (s : State) (port : Nat) (c : Copy) : List Byte :=
  let udp := fun (b : List Byte) => (s.netHdr port (if c.dstAddr < 2 ^ 32 then 4 else 6) c.srcAddr c.dstAddr c.srcUdp c.dstUdp c.dscp c.vid).frame b
  let done := fun (f : List Byte) => let g := f ++ zeros (60 - f.length); g ++ fcsBytes g
  match c.payload with
  | .media h => h.wire
  | .ptpPass f _ => f
  | .ptp m => done (if c.dstUdp = 0 then ethBytes 0x011B19000000 (Config.macAddress port).toNat c.vid 0x88F7 m.bytes else udp m.bytes)
  | _ => done (udp c.body)

/- Changes. -/

def Stream.modTarget (x : Stream) (n : Nat) (f : Target → Target) : Stream := { x with targets := x.targets.modify n f }

def State.modStream (s : State) (id : Nat) (f : Stream → Stream) : State :=
  { s with fwd := { s.fwd with streams := s.fwd.streams.modify id f } }

/-- A new target's rewrite state (R96). -/
def newTarget (x : Stream) (cfg : TargetCfg) : Target :=
  match x.highSeq with
  | some h => { cfg := cfg, h := some h, d := h - cfg.seqStart + 1 }
  | none => { cfg := cfg }

def applyFwd (c : FwdChange) (s : State) : State :=
  match c with
  | .streamCreate id cfg => s.setStream id { cfg := cfg }
  | .streamDelete id => { s with fwd := { s.fwd with streams := s.fwd.streams.del id } }
  | .targetAdd ctx num cfg => s.modStream ctx (fun x => { x with targets := x.targets.put num (newTarget x cfg) })
  | .targetSelect ctx num sel => s.modStream ctx (fun x => x.modTarget num (fun t => { t with nextSel := some sel }))
  | .targetRemove ctx num => s.modStream ctx (fun x => { x with targets := x.targets.del num })
  | .pin ctx => s.modStream ctx (fun x => { x with pinned := true })
  | .unpin ctx => s.modStream ctx (fun x => { x with pinned := false })
  | .policerUnbind ctx => s.modStream ctx (fun x => { x with cfg := { x.cfg with policer := 0 } })
  | .rollIngress ctx key => s.modStream ctx (fun x => { x with prevKey := x.cfg.keyCtx, cfg := { x.cfg with keyCtx := key } })
  | .rollTarget ctx num key => s.modStream ctx (fun x => x.modTarget num (fun t => { t with cfg := { t.cfg with keyCtx := key } }))

end Sys2Proof.Machine
end

