-- ==== Sys2Proof/Machine/ImageOps.lean ====
section
/-! DEFINITION. What buffers hold, as migration images carry it, and the changes of the cipher engine (05_cipher_engine.md, R128 to R130, R311).
The order of what stands in a buffer: DESIGN CHOICE (log entry 65). -/

namespace Sys2Proof.Machine

/-- A pair of surfaces of a size and depth. -/
structure PairShape where
  w : Nat
  h : Nat
  depth : Nat
deriving DecidableEq, Repr, Inhabited

/-- The shape of an output pair or memory pair. -/
def State.pairShape (s : State) (h : Nat) : Option PairShape :=
  match s.video.decodes.find? (fun p => p.2.outs.contains h) with
  | some p =>
    let size := p.2.cfg.layerSize (p.2.outs.findIdx (· == h))
    some { w := size.1, h := size.2, depth := p.2.cfg.bitDepth }
  | none => (s.video.outputs.find? (fun p => p.2.memoryPair == h)).map (fun p => { w := p.2.cfg.width, h := p.2.cfg.height, depth := 8 })

/-- Surfaces one after the other. -/
def surfacesOf (c : PairShape) (ps : List Picture) : List Byte := (ps.map (surfaceOf c.w c.h c.depth)).flatten

/-- The picture of surface k of a buffer's bytes. -/
def surfaceAt (c : PairShape) (b : List Byte) (k : Nat) : Picture := pictureFrom c.w c.h c.depth (b.drop (k * surfaceBytes c.w c.h c.depth))

/-- Slots of a decode stream, and the shape of each. -/
def DecodeStream.refShape (x : DecodeStream) : PairShape := { w := x.cfg.maxWidth, h := x.cfg.maxHeight, depth := x.cfg.bitDepth }
def EncodeLeg.refShape (x : EncodeLeg) : PairShape := { w := x.cfg.codedWidth, h := x.cfg.codedHeight, depth := 8 }

/-- The bytes of one buffer of a graphic surface. -/
def Graphic.bytes (g : Graphic) (buf : Tab Byte) : List Byte := (List.range (up4k (4 * g.w * g.h))).map (fun i => buf.getD i 0)

/-- What a buffer holds. Surfaces hold pictures (R165) and graphic surfaces pixels (R184); the form of the other kinds is not stated, so their
bytes are free until an import has written them. -/
def State.bufferContent (s : State) (h : Nat) : List Byte :=
  let n := s.mem.bufferSize h
  let other := match s.mem.contents.find h with
    | some c => c
    | none => (List.range n).map (fun i => Config.bufferByte h s.now i)
  let b := match handleKind h with
    | 0x02 | 0x04 => match s.pairShape h with
      | some c => surfacesOf c ((List.range 2).map (fun k => ((s.video.pairs.getD h [])[k]?.map (·.pic)).getD {}))
      | none => other
    | 0x03 => match s.video.decodes.find? (fun p => p.2.refHandle == h) with
      | some p => surfacesOf p.2.refShape ((List.range p.2.cfg.refSlots).map (fun k => (p.2.slots.getD k {}).pic))
      | none => other
    | 0x05 => match s.video.graphics.find h with
      | some g => g.bytes g.front ++ g.bytes g.back
      | none => other
    | 0x07 => match s.video.encodes.find? (fun p => p.2.refHandle == h) with
      | some p => surfacesOf p.2.refShape [(p.2.slot0.getD {}).pic, (p.2.slot1.getD {}).pic]
      | none => other
    | _ => other
  (b ++ zeros (n - b.length)).take n

/-- Write an object's content into its buffer (R129); what it does not cover stays. Whether a picture is current, valid or concealed is no part
of a surface, so it stays too. -/
def State.loadBuffer (s : State) (h : Nat) (data : List Byte) : State :=
  let b := data ++ (s.bufferContent h).drop data.length
  let other := { s with mem := { s.mem with contents := s.mem.contents.put h b } }
  match handleKind h with
  | 0x02 | 0x04 => match s.pairShape h with
    | some c =>
      let old := s.video.pairs.getD h []
      let new := (List.range 2).map (fun k => let q : PairPic := (old[k]?).getD { beat := s.now, completed := s.now }; { q with pic := surfaceAt c b k })
      { s with video := { s.video with pairs := s.video.pairs.put h new } }
    | none => other
  | 0x03 => match s.video.decodes.find? (fun p => p.2.refHandle == h) with
    | some (id, x) =>
      let t := (List.range x.cfg.refSlots).foldl (fun t k => t.put k { t.getD k {} with pic := surfaceAt x.refShape b k }) x.slots
      s.setDecode id { x with slots := t }
    | none => other
  | 0x05 => match s.video.graphics.find h with
    | some g =>
      let n := up4k (4 * g.w * g.h)
      s.setGraphic h { g with front := writeBytes [] 0 (b.take n), back := writeBytes [] 0 ((b.drop n).take n) }
    | none => other
  | 0x07 => match s.video.encodes.find? (fun p => p.2.refHandle == h) with
    | some (id, x) =>
      let slot := fun (r : Option RefPic) (k : Nat) => some { (r.getD {}) with pic := surfaceAt x.refShape b k }
      s.setEncode id { x with slot0 := slot x.slot0 0, slot1 := slot x.slot1 1 }
    | none => other
  | _ => other

/-- The plaintext of an image over the listed buffers (R128). -/
def State.imagePlain (s : State) (handles : List Nat) : List Byte := (handles.map (fun h => imageObject (handleKind h) (s.bufferContent h))).flatten

/-- An export takes its buffers' contents, draws its iv, and its sealing becomes ready at the image unit (R128, R130). -/
def State.startExport (s : State) (pkg : Nat) (x : Export) : State :=
  let (n, s1) := s.draw
  let plain := s.imagePlain x.handles
  let key := ((s.cipher.sealKeys pkg).find x.sealKeyId).getD { encKey := 0, macKey := 0 }
  let y := { x with state := 1, started := s.now, iv := Config.random n % 2 ^ 128, imageLen := plain.length + 112, until_ := segmentCount (plain.length + 112) }
  (s1.setExport pkg y).imageWork pkg (imageMsg key.encKey key.macKey y.iv (y.header plain.length) plain false)

/-- The image work of an opening. -/
def State.openWork (s : State) (pkg : Nat) (x : Import) : State :=
  let b := x.bytes
  match (s.cipher.sealKeys pkg).find (fieldAt b 12 4) with
  | none => s
  | some k => s.imageWork pkg (imageMsg k.encKey k.macKey (fieldAt b 48 16) (b.take 64) ((b.take (b.length - 48)).drop 64) true)

def applyCipher (c : CipherChange) (s : State) : State :=
  match c with
  | .keyInstall id k => s.setKey id k
  | .keyDelete id => { s with cipher := { s.cipher with keys := s.cipher.keys.del id } }
  | .keyLimit id srtcp srtp =>
    match s.key id with
    | none => s
    | some k =>
      -- more than 1,024 uses left re-arms the near-limit event (R119)
      s.setKey id { k with srtpLimit := srtp, srtcpLimit := srtcp,
                           srtpArmed := if k.srtpCount + 1024 < srtp then true else k.srtpArmed,
                           srtcpArmed := if k.srtcpCount + 1024 < srtcp then true else k.srtcpArmed }
  | .keyLink id next =>
    match s.key id with
    | none => s
    | some k => s.setKey id { k with nextCtx := next }
  | .sealKey pkg id enc mac =>
    let t := (s.cipher.sealKeys pkg).put id { encKey := enc, macKey := mac }
    if pkg = 0 then { s with cipher := { s.cipher with sealKeys0 := t } }
    else { s with cipher := { s.cipher with sealKeys1 := t } }
  | .exportStart pkg x => s.startExport pkg x
  | .exportResend pkg first until_ =>
    let x := s.cipher.exp pkg
    s.setExport pkg { x with state := 2, next := first, until_ := until_ }
  | .exportDiscard pkg =>
    let n := imageUnit pkg
    (s.setExport pkg {}).setUnit n ((s.cipher.unit n).workTo s.now).dropSeal
  | .importArm pkg x => s.setImport pkg { x with state := 1 }
  | .importOpen pkg contents =>
    let x := s.cipher.imp pkg
    (((contents.foldl (fun t c => t.loadBuffer c.1 c.2) s).openWork pkg x).setImport pkg { x with state := 3 }).raise 75 0x0004
      (dCode 88 32 x.imageId + dCode 80 8 3) pkg
  | .importDiscard pkg => s.setImport pkg {}

end Sys2Proof.Machine
end

