-- ==== Sys2Proof/Machine/TimeOps.lean ====
section
/-! DEFINITION. Operations of the timebase: traceability, steps, the regulator, PTP ports and their messages
(13_time_and_ptp.md).
Units, rounding and steps: DEDUCED (log entries 30, 38). -/

namespace Sys2Proof.Machine

/- Units: e in 2^-17 ns, of which 2^15 make 0.25 ns; i and y in 2^-48 ppb. -/

def TimeState.port (t : TimeState) (p : Nat) : PtpPort := if p = 0 then t.portA else t.portB
def State.setPtp (s : State) (p : Nat) (x : PtpPort) : State :=
  { s with time := if p = 0 then { s.time with portA := x } else { s.time with portB := x } }
def State.modPtp (s : State) (p : Nat) (f : PtpPort → PtpPort) : State := s.setPtp p (f (s.time.port p))

/-- Port p has a PTP port (R290). -/
def PtpClockCfg.hasPort (c : PtpClockCfg) (p : Nat) : Bool := c.role == 3 || (c.role == 1 && p == 0) || (c.role == 2 && p == 1)

def TimeMode.code (m : TimeMode) : Nat := match m with | .free => 0 | .acquiring => 1 | .locked => 2 | .holdover => 3

/-- The PTP port that is in the SLAVE state. -/
def TimeState.slavePort (t : TimeState) : Option Nat :=
  if t.portA.portState = 9 then some 0 else if t.portB.portState = 9 then some 1 else none

/-- The timebase is LOCKED to a source that is traceable (R284). -/
def TimeState.lockedTraceable (t : TimeState) : Bool :=
  t.mode == .locked && (match t.source with
    | 1 => (match t.slavePort with | some p => (t.port p).parent.timeTraceable | none => false)
    | 2 => t.timeInTraceable
    | 3 => t.timeInTraceable
    | _ => false)

/-- The timebase is traceable (R284). -/
def State.traceable (s : State) : Bool :=
  s.time.lockedTraceable ||
  (s.time.mode == .holdover && s.time.holdoverTraceable && !s.time.holdoverExpired &&
    decide (s.now ≤ s.time.holdoverSince + sec s.time.reg.holdoverLimit))

/-- TIME OUT is held low while its function asks for it and the timebase is not traceable; each change is reported (R301). -/
def State.squelch (s : State) : State :=
  let want := match s.time.timeOut with | some c => c.squelch && !s.traceable | none => false
  if want = s.time.squelched then s
  else ({ s with time := { s.time with squelched := want } }).raise 20 0x0001 (dCode 112 8 (b2n want))

/-- A change of the timebase's state (R283). -/
def State.timeMode (s : State) (m : TimeMode) : State :=
  if s.time.mode = m then s
  else
    let old := s.time.mode
    let t := s.time
    let t1 := match m with
      | .holdover => { t with mode := m, holdoverSince := s.now, holdoverTraceable := t.lockedTraceable, holdoverExpired := false }
      | .acquiring => { t with mode := m, lockRun := 0, withheldRaised := false }
      | .locked => { t with mode := m, everLocked := true }
      | .free => { t with mode := m }
    (({ s with time := t1 }).raise 16 0x0001 (dCode 112 8 old.code + dCode 104 8 m.code + dCode 96 8 t.source)).squelch

/- Steps of the counter (R285). -/

/-- An escapement bank of the module has a grid slot bound: an active one, or the shadow that the pending changes give. -/
def State.slotBound (s shadow : State) : Bool :=
  s.escs.any (fun p => !p.2.active.slots.isEmpty || !(compileCluster shadow p.1).slots.isEmpty)

/-- A step is allowed (R285). -/
def State.stepAllowed (s shadow : State) : Bool := !s.slotBound shadow && s.egress.timers.isEmpty

/-- An instant moved with the counter. -/
def moved (d : Int) (t : Instant) : Instant := ((t : Int) + d).toNat

def Bucket.moved (d : Int) (b : Bucket) : Bucket := { b with last := Machine.moved d b.last }

def PortAddr.moved (d : Int) (a : PortAddr) : PortAddr :=
  { a with phaseSince := Machine.moved d a.phaseSince, leaseEnd := Machine.moved d a.leaseEnd, renewAt := Machine.moved d a.renewAt }

def Session.moved (d : Int) (x : Session) : Session :=
  { x with established := Machine.moved d x.established, lastPacket := Machine.moved d x.lastPacket, expired := x.expired.map (Machine.moved d) }

def VcpState.moved (d : Int) (v : VcpState) : VcpState :=
  { v with half := v.half.map (fun h => { h with created := Machine.moved d h.created })
           sessions := v.sessions.map (Session.moved d)
           addrA := v.addrA.moved d
           addrB := v.addrB.moved d }

def Iface.moved (d : Int) (i : Iface) : Iface :=
  { i with since := Machine.moved d i.since, retryAt := i.retryAt.map (Machine.moved d),
           lossSince := i.lossSince.map (fun x => (Machine.moved d x.1, x.2)) }

def Optics.moved (d : Int) (o : Optics) : Optics :=
  { o with insertedAt := Machine.moved d o.insertedAt, firstAccess := o.firstAccess.map (Machine.moved d) }

def Port.moved (d : Int) (p : Port) : Port :=
  { p with ifaces := p.ifaces.mapVals (fun _ i => i.moved d), lastPoll := Machine.moved d p.lastPoll, optics := p.optics.map (Optics.moved d) }

def PtpPort.moved (d : Int) (p : PtpPort) : PtpPort :=
  { p with lastAnnounce := Machine.moved d p.lastAnnounce
           nextSync := Machine.moved d p.nextSync
           nextDelayReq := Machine.moved d p.nextDelayReq
           nextAnnounce := Machine.moved d p.nextAnnounce
           t3 := none
           lastSync := none
           foreign := p.foreign.map (fun f => { f with seen := f.seen.map (Machine.moved d) })
           grants := p.grants.map (fun g => { g with ends := Machine.moved d g.ends }) }

def TimeState.moved (d : Int) (t : TimeState) : TimeState :=
  { t with lastMeasure := Machine.moved d t.lastMeasure
           holdoverSince := Machine.moved d t.holdoverSince
           yHistory := t.yHistory.map (fun x => (Machine.moved d x.1, x.2))
           timeInSince := Machine.moved d t.timeInSince
           timeInLast := t.timeInLast.map (Machine.moved d)
           lastCompare := Machine.moved d t.lastCompare
           syncWindow := []
           portA := t.portA.moved d
           portB := t.portB.moved d }

def Leg.moved (d : Int) (l : Leg) : Leg :=
  { l with bucket := l.bucket.moved d, queue := l.queue.map (fun c => { c with enq := Machine.moved d c.enq }) }

def EgIface.moved (d : Int) (i : EgIface) : EgIface :=
  { i with classes := i.classes.mapVals (fun _ c => { c with bucket := c.bucket.moved d })
           tx := i.tx.map (fun x => { x with start := Machine.moved d x.start, until_ := Machine.moved d x.until_ }) }

def EgressState.moved (d : Int) (e : EgressState) : EgressState :=
  { e with legs := e.legs.mapVals (fun _ l => l.moved d)
           ifaces := e.ifaces.mapVals (fun _ i => i.moved d)
           policers := e.policers.mapVals (fun _ p => { p with last := Machine.moved d p.last }) }

def Stack.moved (d : Int) (k : Stack) : Stack :=
  { k with pchs := k.pchs.mapVals (fun _ c => { c with due := Machine.moved d c.due, lastRefresh := Machine.moved d c.lastRefresh, lastScrub := Machine.moved d c.lastScrub })
           lastReading := Machine.moved d k.lastReading }

def PowerState.moved (d : Int) (p : PowerState) : PowerState :=
  { p with stopSince := p.stopSince.mapVals (fun _ t => Machine.moved d t) }

/-- A step of the counter. Durations in progress keep their length: the instants from which the module measures them move with
the counter (log entry 30). No beat is pending, since no grid slot is bound. -/
def State.stepClock (s : State) (d : Int) : State :=
  { s with now := Machine.moved d s.now
           vcp := s.vcp.moved d
           role := { s.role with lastTick := Machine.moved d s.role.lastTick, lastBeat := Machine.moved d s.role.lastBeat, lastAnswer := Machine.moved d s.role.lastAnswer }
           escs := s.escs.mapVals (fun _ e => { e with lastBeat := 0, walkEnd := 0, stallEnd := 0, held := [] })
           pools := s.pools.mapVals (fun _ p => { p with triggered := [], words := [], replicaAt := Machine.moved d p.replicaAt })
           egress := s.egress.moved d
           ports := { s.ports with portA := s.ports.portA.moved d, portB := s.ports.portB.moved d }
           time := s.time.moved d
           mem := { s.mem with hbms := s.mem.hbms.mapVals (fun _ k => k.moved d) }
           start := { s.start with dies := s.start.dies.mapVals (fun _ x => { x with workSince := Machine.moved d x.workSince }) }
           power := s.power.moved d }

/- PTP messages (R286 to R293). -/

/-- The EUI-64 of an EUI-48. -/
def eui64 (m : Nat) : Nat := m / 2 ^ 24 * 2 ^ 40 + 0xFFFE * 2 ^ 24 + m % 2 ^ 24

/-- The EUI-64 of port A's MAC address (R289). -/
def clockIdentity : Nat := eui64 (Config.macAddress 0).toNat

/-- The identity of a PTP port: clockIdentity and portNumber. -/
def portIdentity (p : Nat) : Nat := clockIdentity * 65536 + p + 1

/-- Corrections of Table 13.1, in 2^-16 ns: transmit and receive. The start's single lane runs 100GBASE-R. -/
def ptpCorr (p : Port) : Nat × Nat :=
  if p.single then (165 * 16384, 611 * 16384)
  else match p.mode with
    | 1 => (74 * 16384, 385 * 16384)
    | 2 => (91 * 16384, 418 * 16384)
    | _ => (165 * 16384, 611 * 16384)

/-- t_tx of a frame whose first bit passes the MAC time-stamp point at t (R281, R288). -/
def State.tTx (s : State) (p : Nat) (t : Instant) : Instant :=
  t / 16384 * 16384 + (ptpCorr (s.port p)).1 + (s.time.port p).cfg.txExtra * 16384

/-- t_rx of a frame stamped at t (R288). -/
def State.tRx (s : State) (p : Nat) (t : Instant) : Instant :=
  t / 16384 * 16384 - (ptpCorr (s.port p)).2 - (s.time.port p).cfg.rxExtra * 16384

/-- The time unit fixes t_tx as a message of the module's own is committed to transmission, and writes it into the message (R291). -/
def PtpMsg.committed (m : PtpMsg) (tx : Instant) : PtpMsg :=
  match m.kind with
  | 0 => { m with stamp := wholeNs tx, corr := ((tx - wholeNs tx : Nat) : Int) }
  | 1 => { m with stamp := wholeNs tx, corr := 0 }
  | _ => m

/-- A committed internal frame, whose first bit leaves at t: PTP messages take t_tx, an event message that passes takes its residence, and
a Delay_Req of the module's own gives t3 (R291, R293). -/
def State.commitPtp (s : State) (p : Nat) (t : Instant) (c : Copy) : State × Copy :=
  let tx := s.tTx p t
  match c.payload with
  | .ptp m =>
    let s1 := if m.kind = 1 then s.modPtp p (fun x => { x with t3 := some (m.seq, tx) }) else s
    (s1, { c with payload := .ptp (m.committed tx) })
  | .ptpPass f rx => (s, { c with payload := .ptpPass (if fieldAt (ethOf f).ptp 0 1 % 16 ≤ 1 then passedFrame f ((tx : Int) - (rx : Int)) else f) rx })
  | _ => (s, c)

/-- Frame length of a PTP message on a port's transport (R289), at least 64. -/
def ptpFrameLen (c : PtpPortCfg) (m : PtpMsg) : Nat :=
  max 64 (14 + (if c.vid = 0 then 0 else 4) + (match c.transport with | 0 => 0 | 1 => 28 | _ => 48) + m.bytes.length + 4)

/-- logMessageInterval of a message of a port: 0x7F for a Delay_Req, a Signaling message and every unicast one. -/
def PtpPortCfg.logOf (c : PtpPortCfg) (kind : Nat) (unicast : Bool) : Int :=
  if unicast then 0x7F else match kind with | 0 => c.logSync | 9 => c.logDelayReq | 11 => c.logAnnounce | _ => 0x7F

/-- Send a PTP message on the internal leg of the port's interface 0 (R289), to a peer or, at 0, to the multicast address. -/
def State.sendPtp (s : State) (p : Nat) (m : PtpMsg) (peer : Nat := 0) : State :=
  let c := (s.time.port p).cfg
  let dst := if peer ≠ 0 then peer else match c.transport with | 0 => 0 | 1 => 0xE0000181 | _ => 0xFF0E0000000000000000000000000181
  let udp := if c.transport = 0 then 0 else if m.kind ≤ 3 then 319 else 320
  let w : PtpMsg := { m with unicast := peer != 0, log := c.logOf m.kind (peer != 0) }
  s.sendInternal p 0 { len := ptpFrameLen c w, enq := s.now, arrival := s.now, dstUdp := udp, dstAddr := dst, srcUdp := udp,
                       srcAddr := if c.transport = 0 then 0 else (s.vcp.addr p).addr, vid := c.vid, payload := .ptp w }

/-- A PTP port changes state (R304). A new SLAVE port starts its measurements anew. -/
def State.portState (s : State) (p st : Nat) : State :=
  let x := s.time.port p
  if x.portState = st then s
  else
    let y := { x with portState := st,
                      delay2 := if st = 8 then none else x.delay2, lastSync := none, t3 := none,
                      lastAnnounce := if st = 4 then s.now else x.lastAnnounce,
                      nextSync := s.now, nextDelayReq := s.now, nextAnnounce := s.now }
    let s1 := s.setPtp p y
    ({ s1 with time := { s1.time with syncWindow := [] } }).raise (17 + p) 0x0001 (dCode 112 8 x.portState + dCode 104 8 st)

/-- An interval of 2^log seconds, for log from −7 to 7. -/
def logInterval (log : Int) : Instant := sec (2 ^ (log + 7).toNat) / 128

/- The best master clock algorithm (IEEE 1588; R290, R294). -/

/-- clockClass that the module advertises of itself (R294). -/
def State.ownClass (s : State) : Nat :=
  let t := s.time
  if t.mode = .locked ∧ (t.source = 2 ∨ t.source = 3) ∧ t.timeInTraceable then t.ptp.gmClass
  else if t.mode = .holdover ∧ s.traceable then (if t.ptp.profile = 0 then 7 else 135)
  else 248

/-- The module's own data set. -/
def State.ownData (s : State) : Parent :=
  { identity := clockIdentity, gmIdentity := clockIdentity, gmClass := s.ownClass, priority1 := s.time.ptp.priority1,
    priority2 := s.time.ptp.priority2, timeTraceable := s.traceable, utcOffset := s.time.utcOffset }

/-- What a master port advertises (R294). -/
def State.advertised (s : State) : Parent :=
  match s.time.mode, s.time.source, s.time.ptp.role, s.time.slavePort with
  | .locked, 1, 3, some p =>
    let q := (s.time.port p).parent
    { q with identity := clockIdentity, stepsRemoved := q.stepsRemoved + 1 }
  | _, _, _, _ => s.ownData

/-- The keys of a data set in the order of comparison of a profile; the lower is the better. The alternate algorithm compares localPriority and
no priority1 (R290). -/
def Parent.keys (profile : Nat) (d : Parent) (localPriority port : Nat) : List Nat :=
  if profile = 0 then
    [d.priority1, d.gmClass, d.gmAccuracy, d.gmVariance, d.priority2, d.gmIdentity, d.stepsRemoved, d.identity, port]
  else if d.gmClass ≤ 127 then [d.gmClass, d.gmAccuracy, d.gmVariance, d.priority2, localPriority, d.stepsRemoved, d.identity, port]
  else [d.gmClass, d.gmAccuracy, d.gmVariance, d.priority2, localPriority, d.gmIdentity, d.stepsRemoved, d.identity, port]

def lexLess : List Nat → List Nat → Bool
  | [], _ => false
  | _ :: _, [] => false
  | a :: x, b :: y => decide (a < b) || (a == b && lexLess x y)

/-- A candidate: a port and a foreign master that qualifies on it. -/
abbrev Candidate := Nat × Foreign

def betterOf (profile : Nat) (a b : Candidate) : Bool := lexLess (a.2.data.keys profile a.2.localPriority a.1) (b.2.data.keys profile b.2.localPriority b.1)

def bestOf (profile : Nat) (l : List Candidate) : Option Candidate :=
  l.foldl (fun best c => match best with | none => some c | some b => if betterOf profile c b then some c else some b) none

/-- A foreign master qualifies when two of its Announces have come within four intervals. -/
def Foreign.qualified (f : Foreign) (interval now : Instant) : Bool :=
  match f.seen with
  | a :: b :: _ => decide (now ≤ b + 4 * interval) && decide (b ≤ a) && decide (f.data.stepsRemoved < 255)
  | _ => false

def State.candidates (s : State) (p : Nat) : List Candidate :=
  if s.time.ptp.hasPort p then
    let x := s.time.port p
    (x.foreign.filter (fun f => f.qualified (logInterval x.cfg.logAnnounce) s.now)).map (fun f => (p, f))
  else []

/-- What the algorithm recommends for a port: a new state and, for a slave, its parent. -/
def State.recommended (s : State) (p : Nat) : Nat × Option Foreign :=
  let pr := s.time.ptp.profile
  let mine := bestOf pr (s.candidates p)
  let best := bestOf pr (s.candidates 0 ++ s.candidates 1)
  let d0 : Foreign := { data := s.ownData, localPriority := s.time.ptp.localPriority }
  let cur := (s.time.port p).portState
  match best with
  | none => (if s.time.ptp.slaveOnly ∨ cur = 4 then 4 else 6, none)
  | some b =>
    if s.time.ptp.slaveOnly then
      if b.1 = p then (9, some b.2) else (4, none)
    else if d0.data.gmClass ≤ 127 then
      match mine with
      | none => (6, none)
      | some m => if betterOf pr (p, d0) m then (6, none) else (7, none)
    else if betterOf pr (p, d0) b then (6, none)
    else if b.1 = p then (9, some b.2)
    else match mine with
      | none => (if cur = 4 then 4 else 6, none)
      | some m => if m.2.data.gmIdentity = b.2.data.gmIdentity then (7, none) else (6, none)

/-- Apply the recommendation to a port (R294, R304): a port that is to be a slave of a new parent is UNCALIBRATED until its first
path delay. -/
def State.follow (s : State) (p : Nat) : State :=
  let x := s.time.port p
  if !s.time.ptp.hasPort p || x.portState = 2 || x.portState = 3 then s
  else
    match s.recommended p with
    | (9, some f) =>
      let same := (x.portState = 8 || x.portState = 9) && x.parent.identity = f.data.identity
      let change := !(x.parent.identity = f.data.identity && x.parent.gmIdentity = f.data.gmIdentity) || !(x.portState = 8 || x.portState = 9)
      let s1 := s.setPtp p { x with parent := f.data, parentPeer := f.peer }
      let s2 := if same then s1 else (s1.portState p 8)
      s2.raiseIf change (17 + p) 0x0002 (dCode 56 64 f.data.gmIdentity + dCode 48 8 f.data.gmClass)
    | (st, _) => s.portState p st

/-- Run the algorithm on both ports. -/
def State.bmca (s : State) : State := ((s.follow 0).follow 1).squelch

/-- The link of a port's interface 0 goes up or down (R334): a PTP port on it is FAULTY while it is down. -/
def State.ptpLink (s : State) (p : Nat) (up : Bool) : State :=
  if !s.time.ptp.hasPort p then s
  else if up then (if (s.time.port p).portState = 2 then (s.portState p 4) else s)
  else ((s.modPtp p (fun x => { x with foreign := [] })).portState p 2).squelch

/- Unicast negotiation (R290). -/

/-- Ask a master for a grant of one message type, for 300 s. -/
def State.askGrant (s : State) (p peer msgType : Nat) : State :=
  s.sendPtp p { kind := 12, source := portIdentity p, domain := s.time.ptp.domain, tlv := some (0, msgType, 300) } peer

/-- Ask every master of a port for Announce, Sync and Delay_Resp messages. -/
def State.askMasters (s : State) (p : Nat) : State :=
  if s.time.ptp.profile = 1 && s.time.ptp.hasPort p then
    (s.time.port p).cfg.masters.foldl (fun t a => ((t.askGrant p a 11).askGrant p a 0).askGrant p a 9) s
  else s

/- The regulator (R295 to R298). -/

/-- Clamp to ± a limit in Q16.16 ppb, in 2^-48 ppb. -/
def clampPpb (limit : Nat) (x : Int) : Int := clampI (-((limit : Int) * 2 ^ 32)) ((limit : Int) * 2 ^ 32) x

/-- T of a source in units of 1/128 s (R296). -/
def State.intervalT (s : State) (source : Nat) (p : Nat) : Nat :=
  if source = 1 then s.time.reg.selectWindow * 2 ^ ((s.time.port p).cfg.logSync + 7).toNat else 128

/-- base − steer in 2^-16 ppb, from a value in 2^-48 ppb: the steer covers ±500 ppb in steps of 2^-16 ppb (R297). -/
def steerOf (y : Int) : Int :=
  let st := clampI (-(500 * 65536)) (500 * 65536) (Config.ocxoBase - roundDivAway y (2 ^ 32))
  Config.ocxoBase - st

/-- One pass of R297 for a measurement e. -/
def State.regulate (s : State) (e : Int) (T : Nat) : State :=
  let t := s.time
  let r := t.reg
  let i := clampPpb r.freqLimit (t.integrator + (r.ki : Int) * e * T)
  let raw := (r.kp : Int) * e * 128 + i
  let y0 := clampPpb r.freqLimit raw
  let slew := (r.slewLimit : Int) * T * 2 ^ 25
  let y := clampI (t.y - slew) (t.y + slew) y0
  let hit := raw != y0
  let (fire, lim) := if hit then t.freqEvent.hit s.now (sec 1) else (none, t.freqEvent)
  let s1 := { s with time := { t with integrator := i, y := y, steer := steerOf y, freqEvent := lim } }
  match fire with
  | some n => s1.raise 16 0x0005 (dInt 88 32 (roundDivAway raw (2 ^ 32)) + dBits 56 32 n)
  | none => s1

/-- The mean of y over the last holdover_average seconds of LOCKED (R297). -/
def TimeState.meanY (t : TimeState) (now : Instant) : Int :=
  let l := t.yHistory.filter (fun x => decide (now ≤ x.1 + sec t.reg.holdoverAverage))
  if l.isEmpty then t.y else roundDivAway (sumI (l.map (·.2))) l.length

/-- Enter HOLDOVER: the steer is fixed at base − the mean of y (R283, R297). -/
def State.holdover (s : State) : State :=
  let m := s.time.meanY s.now
  ({ s with time := { s.time with steer := steerOf m } }).timeMode .holdover

/-- The source in use is lost (R283). -/
def State.loseSource (s : State) : State :=
  match s.time.mode with
  | .acquiring => if s.time.everLocked then s.holdover else s.timeMode .free
  | .locked => s.holdover
  | _ => s

/-- The regulator changes to another source (R295). -/
def State.takeSource (s : State) (new : Nat) : State :=
  let old := s.time.source
  if old = new then s
  else
    let t := s.time
    ({ s with time := { t with source := new, lastMeasure := s.now, sourceChanges := t.sourceChanges + 1 } }).raise 16 0x0004
      (dCode 112 8 old + dCode 104 8 new)

/-- The latest e in 0.25 ns units, saturating. -/
def quarterNs (e : Int) : Int := satI 32 (roundDivAway e (2 ^ 15))

/-- A first measurement, or one past unlock_threshold, leads to ACQUIRING (R283). -/
def State.acquire (s : State) (size : Nat) : State :=
  match s.time.mode with
  | .free => s.timeMode .acquiring
  | .holdover => s.timeMode .acquiring
  | .locked => if s.time.reg.unlockThreshold * 2 ^ 17 < size then s.timeMode .acquiring else s
  | .acquiring => s

/-- The regulator steps the counter by a measurement, in whole nanoseconds (R285, R297). -/
def State.regulatorStep (s : State) (e : Int) : State :=
  let whole := roundDivAway e (2 ^ 17)
  let s1 := s.stepClock (-(whole * 65536))
  ({ s1 with time := { s1.time with steps := s1.time.steps + 1, lockRun := 0 } }).raise 16 0x0002 (dInt 56 64 (-whole))

/-- STEP_WITHHELD, once for each entry into ACQUIRING (R285). -/
def State.withhold (s : State) (e : Int) : State :=
  if s.time.withheldRaised then s
  else ({ s with time := { s.time with withheldRaised := true } }).raise 16 0x0003 (dInt 56 64 (roundDivAway e (2 ^ 17)))

/-- Counting towards LOCKED (R283), and the history of y while LOCKED (R297). -/
def State.lockCount (s : State) (size : Nat) : State :=
  let r := s.time.reg
  let run := if size ≤ r.lockThreshold * 2 ^ 17 then s.time.lockRun + 1 else 0
  let s1 := { s with time := { s.time with lockRun := run } }
  let s2 := if s1.time.mode = .acquiring ∧ r.lockCount ≤ run then s1.timeMode .locked else s1
  if s2.time.mode = .locked then
    let keep := s2.time.yHistory.filter (fun x => decide (s2.now ≤ x.1 + sec r.holdoverAverage))
    ({ s2 with time := { s2.time with yHistory := (s2.now, s2.time.y) :: keep } }).squelch
  else s2

/-- The regulator takes a measurement of the source in use (R283, R297). `shadow` is the view, for R285. -/
def State.measure (s : State) (shadow : State) (e : Int) (T : Nat) : State :=
  let size := e.natAbs
  let s1 := ({ s with time := { s.time with offset := e, lastMeasure := s.now } }).acquire size
  let big := s1.time.mode == .acquiring && decide (s1.time.reg.stepThreshold * 2 ^ 17 < size)
  if big && s1.stepAllowed shadow then s1.regulatorStep e
  else ((if big then s1.withhold e else s1).regulate e T).lockCount size

/- Changes. -/

def applyTime (c : TimeChange) (s : State) : State :=
  match c with
  | .ptpClock cfg =>
    let old := s.time.ptp
    let fresh := old.role != cfg.role || old.profile != cfg.profile || old.domain != cfg.domain
    let s1 := { s with time := { s.time with ptp := cfg, utcOffset := cfg.utcOffset } }
    if !fresh then s1.bmca
    else
      let one := fun (t : State) (p : Nat) =>
        let t1 := t.modPtp p (fun x => { x with foreign := [], grants := [], parent := {}, parentPeer := 0, delay2 := none })
        let st := if !cfg.hasPort p then 3 else if (t.port p).ifaceUp 0 then 4 else 2
        (t1.portState p st).askMasters p
      (one (one s1 0) 1).squelch
  | .ptpPort p cfg =>
    let old := (s.time.port p).cfg
    let s1 := s.modPtp p (fun x => { x with cfg := cfg })
    if old.masters = cfg.masters then s1
    else (s1.modPtp p (fun x => { x with grants := x.grants.filter (fun g => g.grantor || cfg.masters.contains g.peer) })).askMasters p
  | .regulator cfg => { s with time := { s.time with reg := cfg } }
  | .forceHoldover =>
    if s.time.mode = .locked then
      let s1 := s.holdover
      { s1 with time := { s1.time with forced := true } }
    else s
  | .releaseHoldover => { s with time := { s.time with forced := false } }
  | .timeSet time utc =>
    let s1 := if utc = 0xFFFF then s else { s with time := { s.time with utcOffset := utc } }
    if s1.stepAllowed s1 then s1.stepClock ((time : Int) - (s1.now : Int)) else s1
  | .timeIn mode traceable delay =>
    let t := s.time
    let same := t.timeInMode = mode
    let t1 := { t with timeInMode := mode, timeInTraceable := traceable, timeInDelay := delay }
    let t2 := if same then t1 else { t1 with timeInLast := none, timeInSince := s.now, timeInLost := false, timeInNew := none }
    ({ s with time := t2 }).squelch
  | .timeOut cfg fresh =>
    let t := s.time
    let t1 := { t with timeOut := some cfg, oneShotDone := false }
    ({ s with time := if fresh then { t1 with lastEdge := none, pulses := 0 } else t1 }).squelch
  | .timeOutFree => ({ s with time := { s.time with timeOut := none, lastEdge := none, pulses := 0, oneShotDone := false } }).squelch

end Sys2Proof.Machine
end

