-- ==== Sys2Proof/Machine/PortOps.lean ====
section
/-! DEFINITION. Operations of ports, interfaces and lanes (15_ports_and_lanes.md).
Corners of ports and lanes: DEDUCED (log entries 42, 43). -/

namespace Sys2Proof.Machine

/- Interfaces (R330 to R335). -/

/-- Media type of a port: 0 empty, 1 optical, 2 passive copper, 3 active electrical; the media field may force it (Table 15.4). -/
def Port.media (p : Port) : Nat :=
  match p.optics with
  | none => 0
  | some o => match p.cfg.media with | 1 => 2 | 2 => 1 | _ => o.media

/-- The first stage of Table 15.2 that applies; 0 while the cage is empty. -/
def Port.firstStage (p : Port) : Nat := match p.media with | 0 => 0 | 2 => 2 | _ => 1

/-- Interface i is held down by admin_down. -/
def Port.adminDown (p : Port) (i : Nat) : Bool := p.cfg.adminDown.testBit i

/-- Lanes of interface i (Table 15.1). -/
def Port.lanesOf (p : Port) (i : Nat) : List Nat :=
  if p.single then (if i = 0 then [0] else [])
  else match p.mode with
    | 1 => if i = 0 then List.range 8 else []
    | 2 => if i < 2 then (List.range 4).map (· + 4 * i) else []
    | 3 => if i < 8 then [i] else []
    | _ => []

/-- The interface that uses a lane. -/
def Port.ifaceOfLane (p : Port) (l : Nat) : Option Nat := (List.range 8).find? (fun i => (p.lanesOf i).contains l)

def State.setPort (s : State) (p : Nat) (x : Port) : State := { s with ports := s.ports.setPort p x }
def State.modPort (s : State) (p : Nat) (f : Port → Port) : State := s.setPort p (f (s.port p))

/-- An interface enters a state (Table 15.5). -/
def State.ifaceStage (s : State) (p i st : Nat) : State :=
  s.modIface p i (fun x => { x with stage := st, since := s.now, changed := if x.stage = st then x.changed else s.now,
                                    lossSince := none, retryAt := none })

/-- An interface starts at stage 1, or stays down (R333). -/
def State.startIface (s : State) (p i : Nat) : State :=
  s.ifaceStage p i (if (s.port p).adminDown i then 8 else (s.port p).firstStage)

/-- The mode in force as events name it; interface 0 on L0 alone runs 100GBASE-R. -/
def Port.modeName (p : Port) : Nat := if p.single then 3 else p.mode

/-- An interface goes up (R334). -/
def State.ifaceUp (s : State) (p i : Nat) : State :=
  let s1 := (s.ifaceStage p i 7).raise (32 + p) 0x0001 (dCode 112 8 i + dCode 104 8 (s.port p).modeName)
  if i = 0 then s1.ptpLink p true else s1

/-- An interface that is up goes down with a cause, and starts anew (R334). -/
def State.ifaceDown (s : State) (p i cause : Nat) : State :=
  if ((s.port p).iface i).stage = 7 then
    let s1 := (s.startIface p i).raise (32 + p) 0x0002 (dCode 112 8 i + dCode 104 8 cause)
    if i = 0 then s1.ptpLink p false else s1
  else s.startIface p i

/-- Every interface of the port goes down. -/
def State.portDown (s : State) (p cause : Nat) : State :=
  (List.range (s.port p).ifaceCount).foldl (fun t i => t.ifaceDown p i cause) s

/-- A port takes a mode: its interfaces go down with cause 5 (an interface newly held down, with cause 4) and start stage 1; those
that the mode lacks are absent. -/
def State.takeMode (s : State) (p mode : Nat) : State :=
  let old := s.port p
  let s1 := (List.range old.ifaceCount).foldl (fun t i => t.ifaceDown p i (if old.adminDown i then 4 else 5)) s
  let s2 := s1.modPort p (fun x => { x with mode := mode, single := false, mismatchRaised := false })
  (List.range 8).foldl (fun t i => if i < modeIfaces mode then t.startIface p i else t.ifaceStage p i 9) s2

/-- The mode that a port in auto would take: the first that its media advertise; on passive copper, the one that auto-negotiation has
resolved (R332). -/
def Port.autoMode (p : Port) : Option Nat :=
  match p.optics with
  | none => none
  | some o =>
    if p.media = 2 then (if p.resolved ≠ 0 ∧ o.modes.contains p.resolved then some p.resolved else none)
    else [1, 2, 3].find? (fun m => o.modes.contains m)

/-- A port in auto selects its mode (R332). In mode 3, interface 0 on L0 stays as it is. -/
def State.selectMode (s : State) (p : Nat) : State :=
  let x := s.port p
  if x.cfg.mode ≠ 0 then s
  else match x.autoMode with
    | none => s
    | some m =>
      if x.mode = m ∧ !x.single then s
      else if m = 3 ∧ x.single then
        (List.range 7).foldl (fun t i => t.startIface p (i + 1)) (s.modPort p (fun y => { y with mode := 3, single := false }))
      else s.takeMode p m

/-- A start brings up interface 0 as 100GBASE-R on L0 alone, with the default settings (R332). -/
def State.startPort (s : State) (p : Nat) : State :=
  let s1 := s.modPort p (fun x => { x with cfg := {}, mode := 3, single := true, resolved := 0, mismatchRaised := false, ifaces := [] })
  s1.startIface p 0

/-- The optics lack the application of the mode that is set: the port stays down (R335). -/
def Port.lacksMode (p : Port) : Bool :=
  p.cfg.mode != 0 && (match p.optics with | some o => !o.modes.contains p.cfg.mode | none => false)

/-- OPTICS_MISMATCH: the set mode is not among those that the optics advertise (R335). -/
def State.opticsMismatch (s : State) (p : Nat) : State :=
  let x := s.port p
  match x.optics with
  | none => s
  | some o =>
    if x.cfg.mode ≠ 0 ∧ !o.modes.contains x.cfg.mode ∧ !x.mismatchRaised then
      (s.modPort p (fun y => { y with mismatchRaised := true })).raise (32 + p) 0x0006 (dCode 112 8 x.cfg.mode)
    else s

/- Lanes (R336 to R342). -/

/-- Lanes by site: external 8 × port + lane, inter-package 32 × direction + lane. -/
def laneIsIpl (site : Nat) : Bool := siteKind site == 3
def laneKey (site : Nat) : Nat := if laneIsIpl site then 32 * siteDie site + siteIndex site else 8 * siteDie site + siteIndex site

def State.lane (s : State) (site : Nat) : Lane :=
  if laneIsIpl site then s.ports.iplLanes.getD (laneKey site) {} else s.ports.lanes.getD (laneKey site) {}

def State.setLane (s : State) (site : Nat) (x : Lane) : State :=
  if laneIsIpl site then { s with ports := { s.ports with iplLanes := s.ports.iplLanes.put (laneKey site) x } }
  else { s with ports := { s.ports with lanes := s.ports.lanes.put (laneKey site) x } }

def State.modLane (s : State) (site : Nat) (f : Lane → Lane) : State := s.setLane site (f (s.lane site))

/-- Bits that a lane's checker has seen since an instant: 106.25 Gbit/s outside, 112 Gbit/s between the packages (R330, R340). -/
def laneBits (site : Nat) (since now : Instant) : Nat :=
  if laneIsIpl site then (now - since) / 65536 * 112 else (now - since) / 65536 * 10625 / 100

/-- The PRBS counters of a lane at an instant. The errors are the line's. -/
def Lane.prbsAt (x : Lane) (site : Nat) (now : Instant) : Ctr × Ctr :=
  if x.test = 3 then (BitVec.ofNat 64 (laneBits site x.testSince now), BitVec.ofNat 64 (Config.prbsErrorCount site x.testSince now))
  else (x.prbsBits, x.prbsErrors)

/-- A test ends: the PRBS counters keep what they have reached. -/
def Lane.endTest (x : Lane) (site : Nat) (now : Instant) : Lane :=
  { x with test := 0, prbsBits := (x.prbsAt site now).1, prbsErrors := (x.prbsAt site now).2 }

/-- The inter-package lanes of a direction in a state. -/
def State.iplIn (s : State) (dir st : Nat) : List Nat :=
  (List.range 18).filter (fun l => (s.lane (mkSite 3 dir 0 0 0 l)).state == st)

/-- Lanes of a direction that have not failed. -/
def State.iplGood (s : State) (dir : Nat) : List Nat :=
  (List.range 18).filter (fun l => (s.lane (mkSite 3 dir 0 0 0 l)).state != 4)

def State.setIpl (s : State) (dir : Nat) (x : IplDir) : State :=
  { s with ports := if dir = 0 then { s.ports with ipl0 := x } else { s.ports with ipl1 := x } }

/-- Stage 9: lanes 0 to 15 of each direction are active, 16 and 17 spare (R340). -/
def State.trainIpl (s : State) : State :=
  let lanes := fun (d : Nat) => (List.range 18).map (fun l => (32 * d + l, ({ state := if l < 16 then 1 else 2 } : Lane)))
  { s with ports := { s.ports with iplLanes := lanes 0 ++ lanes 1, ipl0 := {}, ipl1 := {} } }

def applyPort (c : PortChange) (s : State) : State :=
  match c with
  | .mode p cfg =>
    let s1 := s.modPort p (fun x => { x with cfg := cfg })
    let x := s1.port p
    s1.takeMode p (if cfg.mode ≠ 0 then cfg.mode else x.autoMode.getD (if x.mode = 0 then 3 else x.mode)) |>.opticsMismatch p
  | .quiet site tx rx q =>
    s.modLane site (fun x => if x.state = 4 then x else { x with quietTx := if tx then q else x.quietTx, quietRx := if rx then q else x.quietRx })
  | .testEnd site => s.modLane site (fun x => { x.endTest site s.now with frozenAt := none })
  | .loopback site kind => s.modLane site (fun x => { x.endTest site s.now with test := kind })
  | .prbs site pattern => s.modLane site (fun x => { x with test := 3, pattern := pattern, testSince := s.now })
  | .slip site n => s.modLane site (fun x => { x with slips := x.slips + 1, shift := x.shift + n })
  | .txFfe site taps => s.modLane site (fun x => { x with txFfe := taps })
  | .freeze site f => s.modLane site (fun x => { x with frozenAt := if f then some (x.frozenAt.getD s.now) else none })
  | .cmisWrite p bank page off data =>
    s.modPort p (fun x => { x with optics := x.optics.map (fun o =>
      { o with written := ((List.range data.length).zip data).foldl (fun t b => t.put ((bank * 256 + page) * 256 + off + b.1) b.2) o.written }) })

end Sys2Proof.Machine
end

