-- ==== Sys2Proof/Machine/StartOps.lean ====
section
/-! DEFINITION. Operations of start-up, fencing, self-test, OTP and firmware (17_start_test_security.md).
Corners of starts, tests and trust: DEDUCED (log entries 45 to 48). -/

namespace Sys2Proof.Machine

def sysPsu : Nat := sysSite 1
def sysOcxo : Nat := sysSite 2
def ccSite (p k : Nat) : Nat := mkSite 1 p 0 0 0 (8 + k)

/- Clock domains (R24, R25, Table 1.6). -/

/-- Domains of which each media die has a share of its own. -/
def dieDomains : List Nat := [4, 17, 10, 11, 5, 6, 7]

/-- The IO die of a package has a share of the domain: the port MACs belong to one package each. -/
def ioHasDomain (p dom : Nat) : Bool := if dom = 12 then p == 0 else if dom = 13 then p == 1 else true

/-- The shares of a domain that start on the packages and the media dies given. -/
def domainShares (pkgs dies : List Nat) (dom : Nat) : List (Nat × Nat) :=
  (pkgs.filter (fun p => ioHasDomain p dom)).map (fun p => (dom, ioSite p)) ++
  (if dieDomains.contains dom then dies.map (fun d => (dom, dieSite d)) else [])

/-- Shares start, in order; those that run go on. -/
def StartState.startClocks (t : StartState) (l : List (Nat × Nat)) : StartState :=
  { t with domains := t.domains ++ l.filter (fun x => !t.domains.contains x) }

/-- The shares of a media die stop. -/
def StartState.stopDieClocks (t : StartState) (d : Nat) : StartState := { t with domains := t.domains.filter (fun x => x.2 != dieSite d) }

/-- The shares of a package stop, all but the balance clock of its supervisor island (R18, R25). -/
def StartState.stopPkgClocks (t : StartState) (p : Nat) : StartState :=
  { t with domains := t.domains.filter (fun x => x.1 == 1 || !(x.2 == ioSite p || (siteMediaDie x.2).map pkgOfDie == some p)) }

/-- A recovering die's shares restart, in the order of R24. -/
def StartState.startDieClocks (t : StartState) (d : Nat) : StartState := t.startClocks (dieDomains.map (fun dom => (dom, dieSite d)))

/-- Both balance clocks. -/
def balanceClocks : List (Nat × Nat) := [(1, ioSite 0), (1, ioSite 1)]

/-- A share of a domain runs (Table 1.6): the recovered receive clock of a lane follows its lane, and the others are held. -/
def State.clockRuns (s : State) (dom site : Nat) : Bool :=
  if dom = 15 then isExtLane site && s.start.domains.contains (14, ioSite (siteDie site)) && Config.laneSignal site 1 s.now
  else s.start.domains.contains (dom, site)

/- OTP (R378, R379, Tables 17.6 and 17.7). -/

def StartState.otp (t : StartState) (p : Nat) : OtpBlock := if p = 0 then t.otp0 else t.otp1
def StartState.fw (t : StartState) (p : Nat) : FirmwareStore := if p = 0 then t.fw0 else t.fw1
def State.modOtp (s : State) (p : Nat) (f : OtpBlock → OtpBlock) : State :=
  { s with start := if p = 0 then { s.start with otp0 := f s.start.otp0 } else { s.start with otp1 := f s.start.otp1 } }
def State.modFw (s : State) (p : Nat) (f : FirmwareStore → FirmwareStore) : State :=
  { s with start := if p = 0 then { s.start with fw0 := f s.start.fw0 } else { s.start with fw1 := f s.start.fw1 } }

/-- CRC-32 of a block's bytes (R189). -/
def blockCrc (b : List Byte) : Nat := crc32 (b.map (·.toNat))

/-- A settings block (Table 17.7). -/
def Settings.bytes (x : Settings) (gen : Nat) : List Byte :=
  let ks := (x.keys.take 4).map (beBytes 104)
  let body := beBytes 4 0x56534231 ++ beBytes 1 gen ++ beBytes 1 x.keys.length ++ zeros 2 ++ beBytes 4 x.minFirmware ++ zeros 4 ++
    ks.flatten ++ zeros (104 * (4 - ks.length)) ++ zeros 76
  body ++ beBytes 4 (blockCrc body)

def Repair.bytes (r : Repair) : List Byte := beBytes 4 r.site ++ beBytes 1 r.kind ++ beBytes 1 r.spare ++ beBytes 2 r.index

/-- A repair generation's block (R379). -/
def RepairGen.bytes (x : RepairGen) (gen : Nat) : List Byte :=
  let es := (x.repairs.map Repair.bytes).flatten
  let body := beBytes 4 0x56524231 ++ beBytes 1 gen ++ beBytes 1 x.repairs.length ++ zeros 2 ++ es ++ zeros (1012 - es.length)
  body ++ beBytes 4 (blockCrc body)

/-- The generation of the settings in force, and the settings (R378): the highest that is valid in at least one block. -/
def StartState.settings (t : StartState) : Option (Nat × Settings) :=
  [4, 3, 2, 1].findSome? (fun g =>
    match (t.otp0.settings.find g).filter (·.valid), (t.otp1.settings.find g).filter (·.valid) with
    | some x, _ => some (g, x)
    | none, some x => some (g, x)
    | none, none => none)

/-- The floor of firmware versions in force. -/
def StartState.floor (t : StartState) : Nat := match t.settings with | some (_, x) => x.minFirmware | none => 0

/-- The newest valid repair generation of a block (R379), 0 when none. -/
def OtpBlock.repairGen (b : OtpBlock) : Nat :=
  ([4, 3, 2, 1].find? (fun g => ((b.repairs.find g).filter (·.valid)).isSome)).getD 0

def OtpBlock.repairsInForce (b : OtpBlock) : List Repair :=
  match b.repairs.find b.repairGen with | some x => x.repairs | none => []

/-- One above the highest generation written in either block (R378). -/
def StartState.nextSettings (t : StartState) : Nat := maxN (t.otp0.settings.keys ++ t.otp1.settings.keys) + 1
def StartState.nextRepairs (t : StartState) : Nat := maxN (t.otp0.repairs.keys ++ t.otp1.repairs.keys) + 1

/-- OTP_WRITTEN (Table 17.10): area, generation, packages verified. -/
def State.otpWritten (s : State) (area gen : Nat) : State :=
  s.raise 194 0x0001 (dCode 112 8 area + dCode 104 8 gen +
    dCode 96 8 (b2n (Config.otpVerifies 0 area gen) + 2 * b2n (Config.otpVerifies 1 area gen)))

/-- Program the next settings generation in both blocks and verify it (R378). -/
def State.writeSettings (s : State) (x : Settings) : State :=
  let g := s.start.nextSettings
  if 4 < g then s
  else
    let one := fun (t : State) (p : Nat) =>
      t.modOtp p (fun b => { b with settings := b.settings.put g { x with valid := Config.otpVerifies p 2 g } })
    (one (one s 0) 1).otpWritten 2 g

def StartState.pendingRepairs (t : StartState) (p : Nat) : List Repair := if p = 0 then t.pendingRepairs0 else t.pendingRepairs1

/-- The full set of a package's repairs (R379): those in force and the pending ones, at most 126. -/
def StartState.fullRepairs (t : StartState) (p : Nat) : List Repair :=
  ((t.otp p).repairsInForce ++ t.pendingRepairs p).take 126

/-- Program the next repair generation in both blocks with the pending repairs (R379). -/
def State.writeRepairs (s : State) : State :=
  let g := s.start.nextRepairs
  if 4 < g then s
  else
    let one := fun (t : State) (p : Nat) =>
      t.modOtp p (fun b => { b with repairs := b.repairs.put g { repairs := s.start.fullRepairs p, valid := Config.otpVerifies p 3 g } })
    let s1 := one (one s 0) 1
    let done := fun (l : List BistFailure) => l.map (fun f => { f with pending := false })
    ({ s1 with start := { s1.start with pendingRepairs0 := [], pendingRepairs1 := [], bistFailures0 := done s1.start.bistFailures0,
                                        bistFailures1 := done s1.start.bistFailures1 } }).otpWritten 3 g

/- Firmware (R380, R381, Table 17.8). -/

def slotBytes : Nat := 2 ^ 25

def FirmwareStore.slot (f : FirmwareStore) (k : Nat) : Image := if k = 0 then f.slot0 else f.slot1

/-- A byte of slot k of package p; the factory's own image is not given. -/
def Image.byte (x : Image) (p k off : Nat) : Byte := (x.bytes.find off).getD (Config.erasedByte p k off)

/-- Bytes off to off + n − 1. -/
def Image.read (x : Image) (p k off n : Nat) : List Byte := (List.range n).map (fun i => x.byte p k (off + i))

/-- firmware_version of an image. -/
def Image.version (x : Image) (p k : Nat) : Nat := if x.factory then Config.factoryVersion else beNat (x.read p k 8 4)
def Image.bodyLength (x : Image) (p k : Nat) : Nat := beNat (x.read p k 12 4)
def Image.digest (x : Image) (p k : Nat) : Nat := if x.factory then Config.factoryDigest else beNat (x.read p k 32 48)

/-- The signature of a header verifies under the image key that its signer field names (Table 17.8). -/
def imageSignature (header : List Byte) : Bool :=
  let key := Config.imageKey (fieldAt header 6 2)
  onCurve key && ecdsaVerify key (fieldAt header 80 96) (sha384 (header.take 80))

/-- The signature verifies and the body matches its digest (R380). A slot that holds nothing holds no image. -/
def Image.signed_ (x : Image) (p k : Nat) : Bool :=
  x.factory ||
    (!x.bytes.isEmpty && decide (176 + x.bodyLength p k ≤ slotBytes) && imageSignature (x.read p k 0 176) &&
      beNat (sha384 (x.read p k 176 (x.bodyLength p k))) == x.digest p k)

/-- The image is valid under a floor (R380). -/
def Image.valid (x : Image) (p k floor : Nat) : Bool := x.signed_ p k && decide (floor ≤ x.version p k)

/-- Table 17.4, cause 4: which slots failed signature, and which the floor. -/
def imageDetail (f : FirmwareStore) (p floor : Nat) : Nat :=
  let bits := fun (k : Nat) =>
    if !(f.slot k).signed_ p k then 2 ^ k else if (f.slot k).version p k < floor then 2 ^ (k + 8) else 0
  bits 0 + bits 1

/-- The slot that stage 4 chooses, and whether it is the fallback. -/
def chooseImage (f : FirmwareStore) (p floor : Nat) : Option (Nat × Bool) :=
  let k := f.preferred
  if (f.slot k).valid p k floor then some (k, false)
  else if (f.slot (1 - k)).valid p (1 - k) floor then some (1 - k, true)
  else none

/-- firmware_version and digest that a package runs; 0 for one that runs none. -/
def StartState.runningVersion (t : StartState) (p : Nat) : Nat :=
  let f := t.fw p
  if f.running = 0xFF then 0 else (f.slot f.running).version p f.running
def StartState.runningDigest (t : StartState) (p : Nat) : Nat :=
  let f := t.fw p
  if f.running = 0xFF then 0 else (f.slot f.running).digest p f.running

/-- Write into the slot that is not preferred; a write at offset 0 first erases it (R381). -/
def FirmwareStore.write (f : FirmwareStore) (off : Nat) (data : List Byte) : FirmwareStore :=
  let k := 1 - f.preferred
  let x : Image := if off = 0 then {} else { (f.slot k) with factory := false }
  let y := { x with bytes := ((List.range data.length).zip data).foldl (fun t b => t.put (off + b.1) b.2) x.bytes }
  if k = 0 then { f with slot0 := y } else { f with slot1 := y }

/- The counter on the standby rail (R305). -/

/-- The supervisor island keeps the counter's last value and the balance-clock time of its stop. -/
def State.saveCounter (s : State) : State := { s with time := { s.time with savedCounter := s.now, savedAt := s.start.balance } }

/-- The counter that a start loads: the saved value advanced by the interval, to within 50 µs per second. -/
def State.loadedCounter (s : State) : Instant :=
  let gap := s.start.balance - s.time.savedAt
  let lim := gap / 20000
  (((s.time.savedCounter + gap : Nat) : Int) + clampI (-(lim : Int)) lim (Config.counterDrift s.start.starts)).toNat

/- Starts (R363 to R370). -/

/-- What a start keeps (R365): OTP, the firmware store and the failed-start record; the supervisor's own readings; the optics; what
waits outside. Every session, subscription, claim and configuration is gone. -/
def StartState.kept (t : StartState) (r : Run) : StartState :=
  { run := r, balance := t.balance, stageSince := t.balance, startSince := t.balance, starts := t.starts, failures := t.failures
    totalFailed := t.totalFailed, failTimes := t.failTimes, domains := balanceClocks, otp0 := t.otp0, otp1 := t.otp1
    fw0 := { t.fw0 with running := 0xFF, fallback := false }, fw1 := { t.fw1 with running := 0xFF, fallback := false }
    jumper := t.jumper }

def PowerState.kept (p : PowerState) : PowerState :=
  { p with warned := [], stopSince := [], psuFault := none, portsQuiet := false, fansFull := false, loopAt := none }

def Optics.kept (o : Optics) : Optics := { o with moduleState := 0, insertedAt := 0, firstAccess := none, flags := [] }

/-- The module with everything gone that a start does not keep. -/
def State.wiped (s : State) (r : Run) : State :=
  { pending := s.pending
    now := s.now
    vcp := { draws := s.vcp.draws }
    time := { steer := s.time.steer, savedCounter := s.time.savedCounter, savedAt := s.time.savedAt, ocxoStable := s.time.ocxoStable
              ocxoAlarm := s.time.ocxoAlarm }
    ports := { portA := { optics := s.ports.portA.optics.map Optics.kept }, portB := { optics := s.ports.portB.optics.map Optics.kept } }
    start := s.start.kept r
    power := s.power.kept }

/-- A start begins (R363): the counter is loaded (R305), the fans run at start speed, and stage 1 runs on both packages. -/
def State.beginStart (s : State) (setting : Bool) : State :=
  let s1 := (s.wiped (.starting 1))
  { s1 with now := s.loadedCounter
            start := { s1.start with starts := s.start.starts + 1, settingStart := setting, part0 := true, part1 := true
                                     svc0 := true, svc1 := true }
            power := { s1.power with fanCommand := Config.fanStart } }

/-- Failed starts of the last 600 s (R368). -/
def StartState.recentFails (t : StartState) : Nat := (t.failTimes.filter (fun x => decide (t.balance ≤ x + sec 600))).length

/-- A failed start (R367, R368): it is recorded, every domain but 1 stops, and a new start follows after 5 s. -/
def State.failedStart (s : State) (r : FailRec) : State :=
  let s1 := (s.saveCounter).wiped .failed
  let t := s1.start
  let rec_ := { r with kind := b2n s.start.settingStart, atS := secOf t.balance }
  { s1 with start := { t with failures := (rec_ :: t.failures).take 8, totalFailed := t.totalFailed + 1
                              failTimes := t.balance :: t.failTimes.filter (fun x => decide (t.balance ≤ x + sec 600))
                              restartAt := t.balance + sec 5 } }

/-- A restart by CMD_RESET kind 0 or 2 (R363, R370). -/
def State.restart (s : State) (clear : Bool) : State :=
  let s1 := s.saveCounter
  let s2 := if clear then { s1 with start := { s1.start with failures := [], totalFailed := 0, failTimes := [] } } else s1
  s2.beginStart false

/- Background self-test (R373 to R376). -/

/-- Slices per test (Table 17.5). -/
def slicePlan (kind : Nat) : Nat := match kind with | 1 => 16 | 2 => 4 | 3 => 32 | 5 => 16 | _ => 1

/-- The die of a target: 0 to 7, or 8 and 9 for the IO dies. -/
def testDie (site : Nat) : Nat := match siteMediaDie site with | some d => d | none => 8 + (sitePkg site).getD 0

/-- Source and package of a die's self-test events (Table 17.10). -/
def testSource (d : Nat) : Nat × Nat := if d < 8 then (128 + 8 * d + 7, pkgOfDie d) else (192 + (d - 8), d - 8)

/-- TEST_VERDICT (R385). -/
def State.verdictEvent (s : State) (d site verdict count plan : Nat) (onCommand : Bool) : State :=
  s.raise (testSource d).1 0x0002
    (dCode 88 32 site + dCode 80 8 verdict + dBits 64 16 count + dBits 48 16 plan + dCode 40 8 (b2n onCommand)) (testSource d).2

def testKey (site kind : Nat) : Nat := site * 8 + kind

/-- The tests of a die that run end INCOMPLETE, its slices end, and their claims are released (R375). -/
def State.stopTests (s : State) (d : Nat) : State :=
  let gone := s.start.slices.filter (fun x => x.die == d)
  let s0 : State := { s with
    start := { s.start with slices := s.start.slices.filter (fun x => x.die != d) }
    vcp := { s.vcp with claims := s.vcp.claims.filter (fun c => !gone.any (fun x => x.claim == c.id)) } }
  let s1 := gone.foldl (fun (t : State) x => if x.kind = 6 then t.setUnit x.unit ((t.cipher.unit x.unit).return_ t.now) else t) s0
  let run := s1.start.tests.filter (fun p => testDie (p.1 / 8) == d && p.2.verdict == 4)
  run.foldl (fun t p =>
    let t1 : State := { t with start := { t.start with tests := t.start.tests.put p.1 { p.2 with verdict := 3 }
                                                       bistIncomplete := t.start.bistIncomplete + 1 } }
    t1.verdictEvent d (p.1 / 8) 3 p.2.count (slicePlan (p.1 % 8)) false) s1

/- Fencing and recovery (R371, R372). -/

/-- Media dies in service. -/
def State.diesUp (s : State) : Nat := ((List.range 8).filter (fun d => s.dieUp d)).length

/-- The capacities of Table 2.10: each media die in service gives 256, 1,536 and 8,192; setting mode gives none (R4, R369). -/
def State.videoLegs (s : State) : Nat := if s.serving then 256 * s.diesUp else 0
def State.audioLegs (s : State) : Nat := if s.serving then 1536 * s.diesUp else 0
def State.taskSlots (s : State) : Nat := if s.serving then 8192 * s.diesUp else 0

def State.fencedBits (s : State) : Nat := sumN ((List.range 8).map (fun d => if s.dieUp d then 0 else 2 ^ d))

def State.modDie (s : State) (d : Nat) (f : DieState → DieState) : State :=
  { s with start := { s.start with dies := s.start.dies.put d (f (s.die d)) } }

/-- DIE_FENCED (Table 17.10), with the capacities that are left. -/
def State.fencedEvent (s : State) (d cause : Nat) : State :=
  s.raise 0 0x0002 (dCode 112 8 d + dCode 104 8 cause + dBits 72 32 s.videoLegs + dBits 40 32 s.audioLegs) (pkgOfDie d)

/-- A die's tasks and its triggers under way are dropped: a fenced die runs none. -/
def State.haltDie (s : State) (d : Nat) : State :=
  let s1 := s.modPool d (fun p => { p with insts := [], words := [], triggered := [] })
  { s1 with escs := s1.escs.mapVals (fun n e => if clusterDie n = d then { e with stalled := [] } else e) }

/-- A die stops running: its tasks are dropped, its tests end, and its shares of the clock domains stop (R25, R371). -/
def State.stopDie (s : State) (d cause : Nat) : State :=
  let r : FailRec := { stage := 0, cause := cause, site := dieSite d, atS := secOf s.start.balance }
  let s1 := ((s.haltDie d).stopTests d).modDie d (fun x => { x with fenced := true, cause := cause, failRec := some r, restoreAt := none })
  { s1 with start := s1.start.stopDieClocks d }

/-- A die is fenced, if it is not already (R371). -/
def State.fenceDie (s : State) (d cause : Nat) : State :=
  if s.dieFenced d && (s.die d).restoreAt.isNone then s else (s.stopDie d cause).fencedEvent d cause

/-- A die of a package that leaves media service is fenced with cause 6; one that is fenced already keeps its record. Each die raises
DIE_FENCED (R18). -/
def State.fenceWithPackage (s : State) (d : Nat) : State :=
  (if s.dieFenced d && (s.die d).restoreAt.isNone then s else s.stopDie d 6).fencedEvent d 6

/-- Before self-refresh every postponed refresh is issued (R318). -/
def Stack.sleep (x : Stack) : Stack :=
  { x with mode := .selfRefresh, refreshes := x.refreshes + BitVec.ofNat 64 (sumN (x.pchs.map (fun p => p.2.postponed)))
           pchs := x.pchs.mapVals (fun _ p => { p with postponed := 0 }) }

/-- The stack's refresh runs in normal mode, with its first refreshes due one interval on; `waking` says that it leaves self-refresh, by
one all-bank refresh of each pseudo-channel (R315, R318). -/
def State.startStack (s : State) (k : Nat) (waking : Bool) : State :=
  let x := s.stack k
  s.setStack k { x with mode := .normal, refreshes := if waking then x.refreshes + 32 else x.refreshes
                        pchs := (List.range 32).map (fun c => (c, ({ due := s.now + ns 3900, lastRefresh := s.now } : Pch))) }

/-- A recovery begins (R372): the die is fenced and its stack enters self-refresh. -/
def State.recoverDie (s : State) (d : Nat) : State :=
  let s1 := (s.fenceDie d 5).modDie d (fun x => { x with work := 1, workSince := s.now })
  s1.setStack d (s1.stack d).sleep

/-- An audio leg's jitter buffer and converter after its unit's memory was lost: it anchors anew with cause 4 (R230). -/
def AudioLeg.restarted (l : AudioLeg) : AudioLeg :=
  { l with anchor := none, jb := [], cause := if l.everAnchored then 4 else l.cause, fifo := [], history := [], p := 0, started := false,
           completions := 0, slice := 0, sliceKind := 0, window := none, encoding := none, outs := [], limiter := [] }

/-- A die returns to service at an instant (R372): its books start from balance, and the walks of its clusters begin there. -/
def State.restoreDie (s : State) (d via : Nat) (at_ : Instant) : State :=
  let s1 := s.modDie d (fun x => { x with work := 0, restoreAt := some at_, cause := 0, failRec := none })
  let s2 := s1.modPool d (fun p => { p with book := {}, insts := [], words := [], triggered := [] })
  let s3 : State := { s2 with
    escs := s2.escs.mapVals (fun n e => if clusterDie n = d then { e with carried := [], stalled := [], lastBeat := max e.lastBeat (at_ - 1) } else e)
    mem := { s2.mem with bookError := s2.mem.bookError.filter (fun p => p.1 % 16 != d) }
    audio := { s2.audio with legs := s2.audio.legs.mapVals (fun id l => if legDie id = d then l.restarted else l) } }
  let s4 := s3.startStack d true
  let s5 : State := { s4 with start := s4.start.startDieClocks d }
  s5.raiseAt at_ 0 0x0003 (dCode 112 8 d + dCode 104 8 via) (pkgOfDie d)

/-- The whole contents of a stack are lost. -/
def State.clearStack (s : State) (k : Nat) : State :=
  let s1 := s.setStack k { s.stack k with flaws := [] }
  { s1 with mem := { s1.mem with contents := s1.mem.contents.filter (fun p => handleStack p.1 != k) } }

/- A package leaves media service while the module runs (R18). -/

/-- The interfaces of a port are held down: no firmware runs that could raise them. LINK_DOWN is not raised, since none of its causes
(Table 15.9) is this one (DESIGN CHOICE, log entry 54). -/
def State.holdPort (s : State) (p : Nat) : State :=
  let s1 := (List.range 8).foldl (fun (t : State) i => if i < (t.port p).ifaceCount then t.ifaceStage p i 0 else t) s
  s1.ptpLink p false

/-- The package leaves: its port's interfaces go down and its media dies are fenced with cause 6. Its record names core 0 of its control
complex, since only single cores have sites (DESIGN CHOICE, log entry 54). -/
def State.leave (s : State) (p : Nat) : State :=
  let r : FailRec := { stage := 4, cause := 1, site := ccSite p 0, atS := secOf s.start.balance }
  let dies := (List.range 4).map (fun j => 4 * p + j)
  let s1 := dies.foldl (fun (t : State) d => t.fenceWithPackage d) s
  let s2a := (s1.stopTests (8 + p)).holdPort p
  let s2 : State := { s2a with start := s2a.start.stopPkgClocks p }
  if p = 0 then { s2 with role := { s2.role with up0 := false }, start := { s2.start with pkgRec0 := some r } }
  else { s2 with role := { s2.role with up1 := false }, start := { s2.start with pkgRec1 := some r } }

/-- A package that meets what R366 asks of it has a media die in service; in setting mode, which starts none, that is not asked. -/
def State.mayServe (s : State) (p : Nat) : Bool :=
  s.inSetting || (s.pkgUp p && (List.range 4).any (fun j => !s.dieFenced (4 * p + j)))

/-- The record of a failed start that follows where the package left does not meet the media-service working set (R14, R367; DEDUCED, log
entry 55). Both packages have passed stages 2 to 4. -/
def noPackageLeft : FailRec := { stage := 4, cause := 8, site := sysSite 0, detail := 3 }

/- Scan unlock (R384). -/

/-- Steps 2 to 5 of R384: service stops, the keys are zeroised, the OTP key read paths are disabled, scan opens. -/
def State.unlockScan (s : State) : State :=
  let s1 : State := { s with start := { s.start with run := .unlocked, scanOpen := true, domains := s.start.domains ++ [(18, ioSite 0), (18, ioSite 1)], slices := [] } }
  let s2 : State := { s1 with
    cipher := { s1.cipher with keys := [], sealKeys0 := [], sealKeys1 := [] }
    vcp := { s1.vcp with sessions := [], half := [], executing := [], claims := [] }
    events := { s1.events with subs := [] }
    staged := []
    power := { s1.power with portsQuiet := true } }
  (s2.modOtp 0 (fun b => { b with keyPath := false })).modOtp 1 (fun b => { b with keyPath := false })

/- Changes. -/

/-- CMD_FIRMWARE_COMMIT takes effect (R381). -/
def State.commitImage (s : State) (slot : Nat) : State :=
  let v := (s.start.fw0.slot slot).version 0 slot
  ((s.modFw 0 (fun f => { f with preferred := slot })).modFw 1 (fun f => { f with preferred := slot })).raise 195 0x0001
    (dCode 88 32 v + dCode 80 8 slot)

/-- CMD_BIST_CONTROL takes effect: a die that is disabled stops its tests (R375). -/
def State.bistControl (s : State) (site : Nat) (enable : Bool) : State :=
  let d := testDie site
  let off := s.start.bistOff.filter (· != d)
  if enable then { s with start := { s.start with bistOff := off } }
  else ({ s with start := { s.start with bistOff := off ++ [d] } }).stopTests d

/-- An on-command test begins (R377): the die is fenced and its slices end. -/
def State.startTest (s : State) (d : Nat) : State :=
  ((s.fenceDie d 4).stopTests d).modDie d (fun x => { x with work := 2, workSince := s.now, testState := 1, testVerdict := 4, testDone := 0, testFailures := 0 })

/-- The on-command test of a die ends with a verdict (R377, R385), and its claim is released. -/
def State.endTest (s : State) (d verdict done failures : Nat) : State :=
  let s1 := s.modDie d (fun x => { x with work := 0, testState := 2, testVerdict := verdict, testDone := done, testFailures := failures })
  let s2 := match s1.vcp.holder (.onCommandTest d) with | some c => s1.dropClaim c.id | none => s1
  s2.verdictEvent d (dieSite d) verdict done Config.testPlan true

/-- Action 2 of CMD_TEST_RUN takes effect: the test ends INCOMPLETE and the die stays fenced. -/
def State.abortTest (s : State) (d : Nat) : State :=
  if (s.die d).work = 2 then s.endTest d 3 (Config.testProgress d s.now) (Config.testFound d s.now) else s

def applyStart (c : StartChange) (s : State) : State :=
  match c with
  | .restart clear => s.restart clear
  | .recover d => s.recoverDie d
  | .firmwareWrite off data => (s.modFw 0 (fun f => f.write off data)).modFw 1 (fun f => f.write off data)
  | .firmwareCommit slot => s.commitImage slot
  | .otpSettings x => s.writeSettings x
  | .otpRepairs => s.writeRepairs
  | .bist site enable => s.bistControl site enable
  | .testStart d => s.startTest d
  | .testAbort d => s.abortTest d
  | .fence d => s.fenceDie d 3
  | .unlock => s.unlockScan

end Sys2Proof.Machine
end

