-- ==== Sys2Proof/Machine/Apply.lean ====
section
/-! DEFINITION. Applying staged changes (R45), and the view that later commands are checked against.
When changes take effect: DEDUCED (log entry 17). -/

namespace Sys2Proof.Machine

/-- Changes of traces and peaks (R79, Table 3.9). -/
def applySched (c : SchedChange) (s : State) : State :=
  match c with
  | .traceArm n entry => s.modEsc n (fun e => { e with trace := { state := 1, entry := entry } })
  | .peakReset d => s.modPool d (fun p => { p with peak := p.insts.length })

/-- Apply one change. -/
def applyChange (c : Change) (s : State) : State :=
  match c with
  | .vcp c => applyVcp c s
  | .sched c => applySched c s
  | .egress c => applyEgress c s
  | .fwd c => applyFwd c s
  | .cipher c => applyCipher c s
  | .video c => applyVideo c s
  | .audio c => applyAudio c s
  | .mem c => applyMem c s
  | .event c => applyEvent c s
  | .time c => applyTime c s
  | .port c => applyPort c s
  | .start c => applyStart c s

/-- Apply changes in order. -/
def applyAll (cs : List Change) (s : State) : State := cs.foldl (fun t c => applyChange c t) s

/-- Whether a change is one of configuration, which later commands are checked against. Restarts, fencing, tests and a set of the
counter act only at their effective instants. -/
def Change.isConfig : Change → Bool
  | .start (.firmwareWrite _ _) => true
  | .start (.firmwareCommit _) => true
  | .start (.otpSettings _) => true
  | .start .otpRepairs => true
  | .start (.bist _ _) => true
  | .start _ => false
  | .time (.timeSet _ _) => false
  | _ => true

/-- The view that a command's checks use: the state with every change of configuration applied that has been made and has not yet
taken effect, in the order in which they were made. -/
def State.view (s : State) : State := applyAll ((s.staged.map (·.change)).filter Change.isConfig) s

/-- Put a staged change behind those of earlier or equal effective instants. -/
def insertByEff (x : Staged) : List Staged → List Staged
  | [] => [x]
  | y :: ys => if x.eff.getD 0 < y.eff.getD 0 then x :: y :: ys else y :: insertByEff x ys

/-- Staged changes in the order of their effective instants; equal ones keep their order (R45). -/
def byEff (l : List Staged) : List Staged := l.foldl (fun a x => insertByEff x a) []

/-- An object that takes staged changes at its own task takes those whose beat is at or before the task's (R45, R196, R215,
R239, R249), in the order of their effective instants. -/
def State.takeScoped (s : State) (sc : Scope) (beat : Instant) : State :=
  let mine := s.staged.filter (fun x => x.scope == sc && x.eff.isSome && decide (x.beat ≤ beat))
  let rest := s.staged.filter (fun x => !(x.scope == sc && x.eff.isSome && decide (x.beat ≤ beat)))
  applyAll ((byEff mine).map (·.change)) { s with staged := rest }

end Sys2Proof.Machine
end

