-- ==== Sys2Proof/Machine/Cmd.lean ====
section
/-! DEFINITION. How a command of a packet runs (R44 to R51, R68): one operation shared by every command.
Which command a row is, lengths and offsets of errors: DEDUCED (log entries 10 to 12, 16). -/

namespace Sys2Proof.Machine

/-- What a command sees: the state in force; the configuration at the instant at which it acts (`vw`; for a later instant that is
examined, `pend` is what lies between); the configurations at the later instants at which accepted packets change something; the
values of its block; and its packet. -/
structure Env where
  s : State
  vw : State
  base : State
  pend : List Change := []
  views : List State := []
  v : List Nat
  tail : List Byte := []
  session : Nat := 0
  seq : Nat := 0
  arrival : Instant := 0
  applyAt : Instant := 0
  peer : Peer := {}
deriving Inhabited

/-- Value i of the command's block. -/
def Env.at (e : Env) (i : Nat) : Nat := fv e.v i

/-- The configuration with every accepted change in it. -/
def Env.all (e : Env) : State := e.views.getLast?.getD e.vw

/-- Identifiers that stand at the instant at which the command acts, now, or at a later instant (R403). -/
def Env.used (e : Env) (f : State → List Nat) : List Nat := ((e.s :: e.vw :: e.views).map f).flatten

/-- The configuration examined, with the command's own changes made at its instant. -/
def Env.after (e : Env) (stage : List (Scope × Change)) : State := applyAll e.pend (applyAll (stage.map (·.2)) e.base)

/-- What a command that passes its checks does: its result block, the changes it stages, the claims it takes (site and
resource), and the changes it makes at once because they only serve reading. -/
structure CmdOut where
  result : List Byte := []
  stage : List (Scope × Change) := []
  claims : List (Nat × Resource) := []
  atOnce : List Change := []
deriving Inhabited

/-- A command of the protocol: opcode, the form of its block, and its meaning. `tail` gives the number of data bytes that
must follow the fields; `zero` lists further bits that must be zero, with their offsets (R49); `mine` says whether the
block selects this row, where rows share an opcode; `reads` marks a command that only reads, which ignores apply_at (R45); `checks` are steps 2 to 6 of R68 in order; `onFail`
are changes that a refusal itself makes (an event of the failure). -/
structure CmdDef where
  opcode : Nat
  setting : Bool := false
  fields : List Fld := []
  tail : Option (List Nat → Nat) := none
  zero : List Nat → List Byte → List (Bool × Nat) := fun _ _ => []
  mine : List Byte → Bool := fun _ => true
  reads : Bool := false
  checks : Env → List (Bool × Err) := fun _ => []
  effect : Env → CmdOut := fun _ => {}
  onFail : Env → Err → List Change := fun _ _ => []

/-- The 24-byte error block (R51). -/
def Err.block (e : Err) : List Byte :=
  beBytes 2 e.off ++ zeros 2 ++ beBytes 4 e.site ++ beBytes 4 e.holderClaim ++ beBytes 4 e.holderSession ++
  beBytes 2 e.holderOpcode ++ zeros 2 ++ beBytes 4 e.detail

/-- Step 1 of R68: the block's length and its reserved bits. -/
def CmdDef.parse (d : CmdDef) (b : List Byte) : Except Err (List Nat × List Byte) :=
  match readFields d.fields 0 b with
  | none => .error (badAt .badLength 0xFFFF)
  | some (v, bad, tl) =>
    let lenOk := match d.tail with
      | none => tl.isEmpty
      | some n => tl.length == n v
    if !lenOk then .error (badAt .badLength 0xFFFF)
    else match bad with
      | off :: _ => .error (badAt .reservedNonzero off)
      | [] =>
        match (d.zero v tl).find? (·.1) with
        | some (_, off) => .error (badAt .reservedNonzero off)
        | none => .ok (v, tl)

/-- The opcodes that rows of the table define. Any other opcode is reserved or undefined (R53). -/
def definedOpcode (op : Nat) : Bool :=
  let lo := op % 256
  match op / 256 with
  | 0x0 => decide (1 ≤ lo ∧ lo ≤ 6)
  | 0x1 => decide (1 ≤ lo ∧ lo ≤ 4)
  | 0x2 => decide (1 ≤ lo ∧ lo ≤ 8)
  | 0x3 => decide (1 ≤ lo ∧ lo ≤ 9)
  | 0x4 => decide (1 ≤ lo ∧ lo ≤ 10)
  | 0x5 => decide (1 ≤ lo ∧ lo ≤ 6)
  | 0x6 => decide (1 ≤ lo ∧ lo ≤ 10)
  | 0x7 => decide (1 ≤ lo ∧ lo ≤ 6)
  | 0x8 => decide (1 ≤ lo ∧ lo ≤ 8)
  | 0x9 => decide (1 ≤ lo ∧ lo ≤ 8)
  | 0xA => decide (1 ≤ lo ∧ lo ≤ 5)
  | 0xB => decide (1 ≤ lo ∧ lo ≤ 8)
  | 0xC => decide (1 ≤ lo ∧ lo ≤ 4)
  | 0xD => decide (1 ≤ lo ∧ lo ≤ 7)
  | 0xE => decide (1 ≤ lo ∧ lo ≤ 4)
  | 0xF => decide (1 ≤ lo ∧ lo ≤ 14)
  | _ => false

/-- Commands after the first failure are not run (R47). -/
def ExecPkt.stopped (p : ExecPkt) : Bool := p.failed && (p.stopOnError || p.atomic)

/-- Add a result record. -/
def ExecPkt.answer (p : ExecPkt) (opcode tag : Nat) (st : Status) (block : List Byte) : ExecPkt :=
  { p with results := p.results ++ [{ opcode := opcode, tag := tag, status := st, block := block }] }

def VcpState.packet (v : VcpState) (session seq : Nat) : Option ExecPkt :=
  v.executing.find? (fun p => p.session == session && p.seq == seq)

/-- Put a packet in execution back. -/
def State.setPacket (s : State) (p : ExecPkt) : State :=
  let ps := s.vcp.executing.map (fun q => if q.session = p.session ∧ q.seq = p.seq then p else q)
  { s with vcp := { s.vcp with executing := ps } }

/-- Undo what a packet has staged and release the claims its commands took (R46, R47). -/
def State.undo (s : State) (p : ExecPkt) : State :=
  { s with staged := s.staged.filter (fun c => !(c.session == p.session && c.seq == p.seq)),
           vcp := { s.vcp with claims := s.vcp.claims.filter (fun c => !p.claims.contains c.id) } }

/-- A command of the packet fails: its error block, and for ATOMIC the undoing of the earlier commands (R47, R51). -/
def State.failCmd (s : State) (p : ExecPkt) (opcode tag : Nat) (e : Err) : State :=
  let p1 := if p.atomic then
      { p with results := p.results.map (fun r => { r with status := .notExecuted, block := [] }), claims := [] }
    else p
  let s1 := if p.atomic then s.undo p else s
  s1.setPacket { (p1.answer opcode tag e.status e.block) with failed := true }

/-- A command of the packet succeeds: its changes are staged, its claims taken (R45, R55). What only serves reading, `atOnce`, stands whatever
becomes of the packet: R47 does not say whether ATOMIC undoes a clear on read (DESIGN CHOICE, log entry 71). -/
def State.passCmd (s : State) (p : ExecPkt) (opcode tag : Nat) (o : CmdOut) : State :=
  let first := s.vcp.nextClaim
  let s1 := o.claims.foldl (fun t c => t.takeClaim c.1 p.session opcode c.2) s
  let ids := (List.range o.claims.length).map (first + ·)
  let new : List Staged := o.stage.map (fun c => { session := p.session, seq := p.seq, scope := c.1, change := c.2 })
  let s2 := { s1 with staged := s1.staged ++ new }
  let s3 := applyAll o.atOnce s2
  s3.setPacket { (p.answer opcode tag .ok o.result) with claims := p.claims ++ ids }

/-- Records at the front whose opcode is reserved or undefined are answered BAD_OPCODE (R53), or NOT_EXECUTED once the
packet has stopped (R47). In setting mode too: R48 gives SETTING_MODE to opcodes that are not available there, and the spec does not say whether
an undefined one counts among them (DESIGN CHOICE, log entry 71). -/
def flushUndefined (s : State) (p : ExecPkt) : List PktRec → State × ExecPkt
  | [] => (s, { p with todo := [] })
  | r :: rest =>
    if definedOpcode r.opcode then (s, { p with todo := r :: rest })
    else if p.stopped then flushUndefined s (p.answer r.opcode r.tag .notExecuted []) rest
    else
      let s1 := s.failCmd p r.opcode r.tag (badAt .badOpcode 0xFFFF)
      match s1.vcp.packet p.session p.seq with
      | some q => flushUndefined s1 q rest
      | none => (s1, { p with todo := [] })

/- Which package executes a command (R15). -/

/-- Where the block of an opcode holds the site that the command names (R49: a field that names a site is a site code). The mirrored
cluster of a module-level TIME OUT is not counted: the pin is the primary's (DEDUCED, log entry 56). -/
def siteField (op : Nat) : Option Nat :=
  match op with
  | 0x0005 | 0x0101 | 0x0102 | 0x0103 | 0x0104 | 0x0501 | 0x0506 | 0x0601 | 0x0701 | 0x0706 | 0x0801 | 0x0807 | 0x0906 => some 0
  | 0x0C01 | 0x0C02 | 0x0C03 | 0x0C04 | 0x0D03 | 0x0D04 | 0x0D05 | 0x0F0A | 0x0F0B | 0x0F0C | 0x0F0D => some 0
  | 0x0F02 => some 4
  | _ => none

/-- The package whose site a command names. -/
def PktRec.namedPkg (r : PktRec) : Option Nat :=
  match siteField r.opcode with
  | none => none
  | some off =>
    let c := beNat ((r.block.drop off).take 4)
    if off + 4 ≤ r.block.length ∧ siteExists c then sitePkg c else none

/-- The package that executes a command received at a port: the one that holds the site, and the primary where there is none or its
package is out of service (R15, R18); in setting mode each package executes what it receives (R369). -/
def State.executor (s : State) (port : Nat) (r : PktRec) : Nat :=
  if s.inSetting then port
  else match r.namedPkg with
    | some p => if s.pkgUp p then p else s.role.primary
    | none => s.role.primary

/-- The next command of the packet can reach the package that executes it. -/
def State.reaches (s : State) (p : ExecPkt) : Bool :=
  match p.todo with
  | [] => false
  | r :: _ => s.executor p.peer.port r == p.peer.port || s.iplCarries

/-- The first packet, in the order of execution (R44: arrival stamps, port A before port B), that has records to run. -/
def State.running (s : State) : Option ExecPkt :=
  (s.vcp.executing.filter s.reaches).foldl (fun best p =>
    match best with
    | none => some p
    | some q => if p.arrival < q.arrival ∨ (p.arrival = q.arrival ∧ p.peer.port < q.peer.port) then some p else some q) none

/-- The status of a command that the module does not run: it has met a fault of control firmware, or is not available in
setting mode (R48, R353). -/
def CmdDef.barred (d : CmdDef) (s : State) (fault : Option Nat) : Option Err :=
  match fault with
  | some n => some { status := .internal, detail := n }
  | none => if s.inSetting && !d.setting then some (badAt .settingMode 0xFFFF) else none

/-- The module as the package that receives a command sees it: in setting mode the sites of the other package are out of its
reach (R369). -/
def State.seenFrom (s : State) (port : Nat) : State :=
  if s.inSetting then
    if port = 0 then { s with role := { s.role with up1 := false } } else { s with role := { s.role with up0 := false } }
  else s

/-- Staged changes of configuration, those of a packet apart: first its own, then the others' in the order of their effective instants. -/
def State.stagedFor (s : State) (p : ExecPkt) : List Staged × List Staged :=
  let l := s.staged.filter (fun x => x.change.isConfig)
  let own := fun (x : Staged) => x.session == p.session && x.seq == p.seq && x.eff.isNone
  (l.filter own, byEff (l.filter (fun x => !own x)))

/-- The instant at which a command acts as far as it is known when the command is checked (R45). -/
def ExecPkt.actsAt (p : ExecPkt) (reads : Bool) (now : Instant) : Instant := if reads then now else max p.applyAt now

/-- The lists of changes that lie between the command's instant and each later instant at which something changes. -/
def laterPrefixes (l : List Staged) : List (List Change) :=
  ((List.range l.length).filter (fun i => (l[i]?).map (·.eff.getD 0) != (l[i + 1]?).map (·.eff.getD 0))).map
    (fun i => (l.take (i + 1)).map (·.change))

/-- What the checks of a command see. -/
def envOf (s : State) (p : ExecPkt) (reads : Bool) (v : List Nat) (tl : List Byte) : Env :=
  let t := p.actsAt reads s.now
  let (own, others) := s.stagedFor p
  let mine := if reads && decide (s.now < p.applyAt) then [] else own
  let base := applyAll ((others.filter (fun x => decide (x.eff.getD 0 ≤ t)) ++ mine).map (·.change)) s
  let later := laterPrefixes (others.filter (fun x => decide (t < x.eff.getD 0)))
  let see := fun (z : State) => z.seenFrom p.peer.port
  { s := see s, vw := see base, base := see base, views := later.map (fun l => see (applyAll l base)), v := v, tail := tl, session := p.session, seq := p.seq, arrival := p.arrival, applyAt := p.applyAt, peer := p.peer }

/-- The later instants as a command's checks see them: what has been accepted for them stands beside what the command makes. -/
def laterEnvs (s : State) (p : ExecPkt) (reads : Bool) (e : Env) : List Env :=
  let t := p.actsAt reads s.now
  let later := laterPrefixes ((s.stagedFor p).2.filter (fun x => decide (t < x.eff.getD 0)))
  later.map (fun l => { e with vw := applyAll l e.base, pend := l, views := [] })

/-- A status that says that something does not fit beside what the module has accepted: it is judged at every instant from the
command's own on (R67). -/
def Status.ofCapacity : Status → Bool
  | .exists_ | .tableFull | .poolExhausted | .badDependence | .noPlacement | .beatOverrun => true
  | .contextFull | .pinFull | .duplicateSsrc | .keyContextFull | .mkiInUse | .queueFull => true
  | .decodeCapacity | .refSlotsFull | .tooManyLayers | .regionLimit | .composeCapacity => true
  | .encodeCapacity | .gangUnavailable | .legCapacity | .cycleBudget | .tieLinesFull => true
  | _ => false

/-- The first check that fails: at the command's own instant, or for want of room at a later one. -/
def CmdDef.refuses (d : CmdDef) (s : State) (p : ExecPkt) (e : Env) : Option Err :=
  match firstFail (d.checks e) with
  | some x => some x
  | none =>
    if d.reads then none
    else ((laterEnvs s p d.reads e).filterMap (fun l => (firstFail (d.checks l)).filter (fun x => x.status.ofCapacity))).head?

/-- Judge and run a command whose record stands at the front of packet p. FIRMWARE_FAULT names the package that executes it (R15) and, as
no rule says which control core interprets commands, core 0 in [79:72] (DESIGN CHOICE, log entry 54). -/
def State.runRecord (s : State) (d : CmdDef) (p : ExecPkt) (tag : Nat) (b : List Byte) (fault : Option Nat) : State :=
  if p.stopped then s.setPacket (p.answer d.opcode tag .notExecuted [])
  else match d.barred s fault with
    | some e =>
      let s1 := match fault with
        | some n =>
          let pkg := s.executor p.peer.port { opcode := d.opcode, tag := tag, block := b }
          s.raise 227 0x0001 (dCode 88 32 n + dCode 80 8 pkg) pkg
        | none => s
      s1.failCmd p d.opcode tag e
    | none =>
      match d.parse b with
      | .error e => s.failCmd p d.opcode tag e
      | .ok (v, tl) =>
        let env := envOf s p d.reads v tl
        match d.refuses s p env with
        | some e => applyAll (d.onFail env e) (s.failCmd p d.opcode tag e)
        | none => s.passCmd p d.opcode tag (d.effect env)

/-- The record at the front of a packet is this command. -/
def CmdDef.isNext (d : CmdDef) (r : CmdRef) (b : List Byte) (rec_ : PktRec) : Bool :=
  rec_.opcode == d.opcode && rec_.tag == r.tag && rec_.block == b && d.mine b

/-- Run a command: time passes; when the packet is the one to execute and the command is its next record, the record is
taken off and run. Otherwise nothing else changes: commands run in record order (R44). -/
def runCmd (d : CmdDef) (r : CmdRef) (b : List Byte) (s0 : State) : Out :=
  let s := s0.advance r.dt
  match s.running with
  | none => .next s
  | some p0 =>
    if !(s.live && p0.session == r.session && p0.seq == r.seq) then .next s
    else
      let (s1, p) := flushUndefined s p0 p0.todo
      match p.todo with
      | [] => .next s
      | rec_ :: rest =>
        if d.isNext r b rec_ then
          let p1 := { p with todo := rest }
          .next ((s1.setPacket p1).runRecord d p1 r.tag b r.firmwareFault)
        else .next s

/- Helpers that the families share. -/

/-- The action byte of a block, if present. -/
def actionAt (off : Nat) (b : List Byte) : Option Nat := (b[off]?).map (·.toNat)

/-- The block selects action k, or none of the actions of the rows that share the opcode. -/
def selects (off k n : Nat) (b : List Byte) : Bool :=
  match actionAt off b with
  | none => true
  | some a => a == k || decide (n ≤ a)

/-- The error that names the holder of a resource. -/
def heldBy (s : State) (r : Resource) (off : Nat) : Err :=
  match s.vcp.holder r with
  | some c => s.heldErr c c.site off
  | none => badAt .resourceHeld off

end Sys2Proof.Machine
end

