-- ==== Sys2Proof/Machine/BeaconOps.lean ====
section
/-! DEFINITION. The beacon modem: frame, modulator, receiver, lock and loading (12_acoustic_beacon.md).
Corners of the beacon: DEDUCED (log entry 36). -/

namespace Sys2Proof.Machine

/- Checks (R265, R266). -/

/-- Bits of a number, most significant first. -/
def bitsMsb : Nat → Nat → List Bool
  | 0, _ => []
  | n + 1, v => v.testBit n :: bitsMsb n v

/-- The number that bits spell, most significant first. -/
def natOfBits (l : List Bool) : Nat := l.foldl (fun a b => 2 * a + b2n b) 0

/-- A cyclic redundancy check without reflection over bits: width, polynomial, register. -/
def crcBits (w poly : Nat) : List Bool → Nat → Nat
  | [], r => r
  | b :: bs, r =>
    let top := r.testBit (w - 1) != b
    let s := r * 2 % 2 ^ w
    crcBits w poly bs (if top then s ^^^ poly else s)

/-- CRC-8 of the header (R265). -/
def crc8 (bits : List Bool) : Nat := crcBits 8 0x07 bits 0

/-- The bits of a byte string, most significant first. -/
def bytesBits (b : List Byte) : List Bool := (b.map (fun x => bitsMsb 8 x.toNat)).flatten

/-- CRC-16 of the payload (R266). -/
def crc16 (b : List Byte) : Nat := crcBits 16 0x1021 (bytesBits b) 0xFFFF

/- Header and loading (R265). -/

/-- Counts n1 to n4 of a header. -/
def headerCounts (h : Nat) : List Nat := [bitsOf h 29 26, bitsOf h 25 22, bitsOf h 21 18, bitsOf h 17 14]
def headerSyms (h : Nat) : Nat := bitsOf h 13 8

/-- The header of a loading and a symbol count. -/
def mkHeader (n : List Nat) (nsym : Nat) : Nat :=
  let top := (nth n 0 0 * 2 ^ 12 + nth n 1 0 * 2 ^ 8 + nth n 2 0 * 2 ^ 4 + nth n 3 0) * 2 ^ 6 + nsym
  top * 256 + crc8 (bitsMsb 22 top)

/-- A header is valid (R265). -/
def headerValid (h : Nat) : Bool :=
  let n := headerCounts h
  crc8 (bitsMsb 22 (h / 256)) == h % 256 && decide (nth n 1 0 ≤ nth n 0 0 ∧ nth n 2 0 ≤ nth n 1 0 ∧ nth n 3 0 ≤ nth n 2 0 ∧
    1 ≤ nth n 0 0 ∧ nth n 0 0 ≤ 10 ∧ 1 ≤ headerSyms h)

/-- Bits per payload symbol, B. -/
def loadBits (n : List Nat) : Nat := 2 * sumN n
/-- Bits b_g on each subcarrier of pair g. -/
def pairBits (n : List Nat) (g : Nat) : Nat := (n.filter (fun c => decide (g < c))).length

/- Payload and scrambler (R266). -/

/-- The scrambler, from register r. -/
def scramble : List Bool → Nat → List Bool
  | [], _ => []
  | u :: us, r =>
    let s := r.testBit 8 != r.testBit 4
    (u != s) :: scramble us ((2 * r + b2n s) % 512)

/-- Payload bytes with their CRC (Table 12.3). -/
def payloadBytes (tag : Nat) (seq : W16) (txBeat : Nat) (app : List Byte) : List Byte :=
  let b := beBytes 4 tag ++ beBytes 2 seq.toNat ++ beBytes 4 txBeat ++ beBytes 1 app.length ++ app
  b ++ beBytes 2 (crc16 b)

/-- The scrambled bits of a packet's payload symbols. -/
def payloadBits (bytes : List Byte) (nsym b : Nat) : List Bool :=
  let bits := bytesBits bytes
  scramble (bits ++ List.replicate (nsym * b - bits.length) false) 0x1FF

/-- The bytes of received payload bits. -/
def bitsBytes (l : List Bool) : List Byte := (chunks 8 (l.length / 8) l).map (fun c => BitVec.ofNat 8 (natOfBits c))

/-- A received payload: tag, seq and tx_beat when its CRC matches. -/
def readPayload (bits : List Bool) : Option (Nat × Nat × Nat) :=
  let b := bitsBytes (scramble bits 0x1FF)
  let n := 11 + beNat ((b.drop 10).take 1)
  if b.length < n + 2 then none
  else if crc16 (b.take n) == beNat ((b.drop n).take 2) then some (beNat (b.take 4), beNat ((b.drop 4).take 2), beNat ((b.drop 6).take 4))
  else none

/- Numbers of the modulator (R267, R268). Angles and points are held with 100 fraction bits. -/

def fracBits : Nat := 100

/-- cos(θ / 2) from cos θ, in the first quadrant. -/
def cosHalf (c : Nat) : Nat := isqrtAux ((2 ^ fracBits + c) * 2 ^ (fracBits - 1)) 101 0

/-- cos(2π / 256). -/
def cosStep : Nat := cosHalf (cosHalf (cosHalf (cosHalf (cosHalf (cosHalf 0)))))

/-- cos(2πm / 256) and cos(2π(m + 1) / 256), by the recurrence of cosines. -/
def cosPair : Nat → Int × Int
  | 0 => (2 ^ fracBits, cosStep)
  | m + 1 => let p := cosPair m; (p.2, floorDiv (2 * (cosStep : Int) * p.2) (2 ^ fracBits) - p.1)

/-- cos(2πm / 256) for m below 256, by symmetry from the first half turn. -/
def cosAt (m : Nat) : Int := (cosPair (if 128 < m % 256 then 256 - m % 256 else m % 256)).1

/-- A number with 100 fraction bits as a Q1.31 word, to nearest. -/
def word31 (x : Int) : Int := floorDiv (x + 2 ^ (fracBits - 32)) (2 ^ (fracBits - 31))

/-- The word c[m] of R268. -/
def cosWord (m : Nat) : Int := min (word31 (cosAt m)) (2 ^ 31 - 1)

/-- The window w(m) of R268. -/
def edgeWord (m : Nat) : Int := word31 (floorDiv (2 ^ fracBits - cosAt (4 * (2 * m + 1))) 2)

/-- The largest n with n^5120 × den ≤ num, by bisection. -/
def root5120 (num den : Nat) : Nat → Nat → Nat
  | 0, r => r
  | f + 1, r => let t := r + 2 ^ f; root5120 num den f (if t ^ 5120 * den ≤ num then t else r)

/-- The amplitude a of a level code (R268): sqrt(2) × 10^(level / 20), the level in Q8.8 dBFS and below 0. -/
def amplitude (level : Int) : Nat := root5120 (2 ^ (2560 + fracBits * 5120)) (10 ^ (-level).toNat) (fracBits + 1) 0

/-- The index whose Gray code is u. -/
def unGray3 (u : Nat) : Nat := ((List.range 8).find? (fun m => m ^^^ (m / 2) == u)).getD 0

/-- 1 / √10. -/
def invRoot10 : Int := isqrtAux (2 ^ (2 * fracBits) / 10) 101 0

def level4 (u : Nat) : Int := (match u with | 0 => -3 | 1 => -1 | 3 => 1 | _ => 3) * invRoot10

/-- The point of Table 12.4 of b bits of value u, first bit most significant. -/
def point (b u : Nat) : Int × Int :=
  match b with
  | 1 => (if u = 0 then 2 ^ fracBits else -(2 ^ fracBits), 0)
  | 2 => let h := cosAt 32; (if u / 2 = 0 then h else -h, if u % 2 = 0 then h else -h)
  | 3 => let t := 16 * (2 * unGray3 u + 1); (cosAt t, cosAt (t + 192))
  | _ => (level4 (u / 4), level4 (u % 4))

/-- A symbol's occupied subcarriers with their points. -/
abbrev Symbol := List (Nat × (Int × Int))

/-- P1 and P2 (R264). -/
def preamble : Symbol := (List.range 10).map (fun k => (96 + k, point 1 (b2n (Nat.testBit 0x2CB (9 - k)))))

/-- H (R265). -/
def headerSymbol (h : Nat) : Symbol := (List.range 10).map (fun k => (96 + k, point 3 (bitsOf h (29 - 3 * k) (27 - 3 * k))))

/-- A payload symbol from its bits: subcarriers in ascending order, probes where a pair carries none (R266). -/
def dataSymbol (n : List Nat) (subHi : Nat) : Nat → Nat → List Bool → Symbol
  | 0, _, _ => []
  | f + 1, k, bits =>
    if subHi < k then []
    else
      let b := pairBits n ((k - 96) / 2)
      if b = 0 then (k, point 1 0) :: dataSymbol n subHi f (k + 1) bits
      else (k, point b (natOfBits (bits.take b))) :: dataSymbol n subHi f (k + 1) (bits.drop b)

/-- The symbols of a packet (R264). -/
def packetSymbols (n : List Nat) (nsym subHi : Nat) (bits : List Bool) : List Symbol :=
  [preamble, preamble, headerSymbol (mkHeader n nsym)] ++
  (chunks (loadBits n) nsym bits).map (dataSymbol n subHi 20 96)

/-- A product of the amplitude with a point, as a word. -/
def ampWord (a : Nat) (x : Int) : Int := floorDiv ((a : Int) * x + 2 ^ (2 * fracBits - 32)) (2 ^ (2 * fracBits - 31))

/-- Sample u of a symbol, before the window. -/
def symbolV (a : Nat) (sym : Symbol) (u : Nat) : Int :=
  store (sumI (sym.map (fun p =>
    let m := p.1 * ((u + 224) % 256)
    ampWord a p.2.1 * cosWord (m % 256) - ampWord a p.2.2 * cosWord ((m + 192) % 256)))) 0

/-- Sample u of a symbol, 0 to 303 (R268). -/
def symbolX (a : Nat) (sym : Symbol) (u : Nat) : Int :=
  if u < 16 then store (symbolV a sym u * edgeWord u) 0
  else if u < 288 then symbolV a sym u
  else if u < 304 then store (symbolV a sym u * edgeWord (303 - u)) 0
  else 0

/-- Sample t of a packet: symbols overlap by 16 samples. -/
def packetSample (a : Nat) (syms : List Symbol) (t : Nat) : Int :=
  let k := t / 288
  let one := fun j => match syms[j]? with | some y => symbolX a y (t - 288 * j) | none => 0
  one k + (if k = 0 then 0 else one (k - 1))

/-- The samples of a whole packet. -/
def packetSamples (a : Nat) (syms : List Symbol) : List Int :=
  (List.range (syms.length * 288 + 16)).map (packetSample a syms)

/- Transmission (R269, R276). -/

/-- Symbols that a payload of n application bytes needs at a loading. -/
def symbolsFor (app b : Nat) : Nat := ceilDiv (8 * (13 + app)) b

/-- The loading in force for a packet that falls due at t (R270). -/
def Beacon.loadingAt (b : Beacon) (t : Instant) : List Nat :=
  match b.loading.find? (fun l => decide (l.1 < t) || l.1 == 0) with
  | some l => l.2
  | none => initialLoading

/-- A due beat passes (R270, R276): four before it without an own packet end lock and reset the loading. -/
def State.beaconPassDue (s : State) (id : Nat) (t : Instant) : State :=
  match s.audioLeg id with
  | none => s
  | some x =>
    let d := x.beacon.due
    let silent := decide (4 ≤ d.length) && (d.take 4).all (· == 0)
    let s1 := if !silent then s
      else if x.beacon.locked then s.beaconUnlock id 0 t
      else s.setLegA id { x with beacon := x.beacon.resetLoading t }
    s1.modLegA id (fun y => { y with beacon := { y.beacon with due := 0 :: y.beacon.due.take 3 } })

/-- TX_DEFERRED: a packet is deferred (R269, R278). -/
def State.beaconDefer (s : State) (id cause : Nat) (t : Instant) : State :=
  match s.audioLeg id with
  | none => s
  | some x =>
    let b := x.beacon
    let (fire, lim) := b.txEvent.hit t (sec 1)
    let s1 := s.setLegA id { x with beacon := { b with deferred := b.deferred + 1, txEvent := lim } }
    match fire with
    | some n => s1.beaconEvent t id 0x0005 (dBits 56 32 n + dCode 48 8 cause)
    | none => s1

/-- BEACON_PACKET_DUE: a packet falls due at the beat t of index i (R269). -/
def State.beaconDue (s0 : State) (id : Nat) (t : Instant) (i : Nat) : State :=
  match s0.audioLeg id with
  | none => s0
  | some x0 =>
    let c := x0.beacon.cfg
    if !(c.txEnable && i % max 1 c.period == c.phase) then s0
    else
      let s := s0.beaconPassDue id t
      match s.audioLeg id with
      | none => s
      | some x =>
        let n := x.beacon.loadingAt t
        let nsym := symbolsFor c.appData.length (loadBits n)
        if c.maxSymbols < nsym ∨ loadBits n = 0 then s.beaconDefer id 1 t
        else if x.cfg.bandwidth ≠ 4 then s.beaconDefer id 2 t
        else
          let bits := payloadBits (payloadBytes c.tag x.beacon.seq i c.appData) nsym (loadBits n)
          let tx := packetSamples (amplitude c.level) (packetSymbols n nsym c.subHi bits)
          s.setLegA id { x with beacon := { x.beacon with seq := x.beacon.seq + 1, sent := x.beacon.sent + 1, txSamples := tx } }

/-- The modulator adds the next 120 samples of the packet in transmission (R262). -/
def Beacon.modulate (b : Beacon) (x : List Int) : List Int × Beacon :=
  (((List.range x.length).zip x).map (fun p => satSample (p.2 + nth b.txSamples p.1 0)), { b with txSamples := b.txSamples.drop 120 })

/- Reception (R271 to R277). -/

/-- The instant of sample n, counted 120 to a beat from the grid's index 0 (R272). -/
def sampleStamp (n : Nat) : Instant := Grid.audio.beatAt (n / 120) + ns (n % 120 * 62500 / 3)

/-- RX_ERRORS (R278): one of its counts rises. `k` is 0 superseded, 1 collisions, 2 header_fail, 3 payload_fail. -/
def State.rxError (s : State) (id k : Nat) (t : Instant) : State :=
  match s.audioLeg id with
  | none => s
  | some x =>
    let b := x.beacon
    let b1 := { b with
      superseded := if k = 0 then b.superseded + 1 else b.superseded, collisions := if k = 1 then b.collisions + 1 else b.collisions,
      headerFail := if k = 2 then b.headerFail + 1 else b.headerFail, payloadFail := if k = 3 then b.payloadFail + 1 else b.payloadFail,
      rxSup := if k = 0 then b.rxSup + 1 else b.rxSup, rxCol := if k = 1 then b.rxCol + 1 else b.rxCol,
      rxHdr := if k = 2 then b.rxHdr + 1 else b.rxHdr, rxPay := if k = 3 then b.rxPay + 1 else b.rxPay }
    let (fire, lim) := b.rxEvent.hit t (sec 1)
    match fire with
    | some _ =>
      (s.setLegA id { x with beacon := { b1 with rxEvent := lim, rxSup := 0, rxCol := 0, rxHdr := 0, rxPay := 0 } }).beaconEvent t id 0x0004
        (dBits 72 16 b1.rxSup + dBits 56 16 b1.rxCol + dBits 40 16 b1.rxHdr + dBits 24 16 b1.rxPay)
    | none => s.setLegA id { x with beacon := { b1 with rxEvent := lim } }

/-- Thresholds thr(b) of R270, Q8.8 dB. -/
def snrThreshold (b : Nat) : Int := match b with | 1 => 2304 | 2 => 3072 | 3 => 4608 | _ => 5120

/-- The loading that smoothed values give (R270). -/
def loadingOf (S : Tab Int) (margin : Nat) : List Nat :=
  let raw := fun g => match S.find g with
    | some v => maxN (([1, 2, 3, 4] : List Nat).filter (fun b => decide (snrThreshold b + (margin : Int) ≤ v)))
    | none => 0
  let b := fun g => ((List.range (g + 1)).map raw).foldl min 4
  [1, 2, 3, 4].map (fun k => ((List.range 10).filter (fun g => decide (k ≤ b g))).length)

/-- Measurements of an own packet are smoothed (R270): pairs up to sub_hi. -/
def smoothSnr (S : Tab Int) (subHi : Nat) (snr : List Int) : Tab Int :=
  (((List.range 10).filter (fun g => decide (97 + 2 * g ≤ subHi))).filterMap (fun g => (snr[g]?).map (fun v => (g, v)))).foldl
    (fun t p => match t.find p.1 with
      | some o => t.put p.1 (o + floorDiv (p.2 - o) 4)
      | none => t.put p.1 p.2) S

/-- A steering update (R237): δ becomes `v`, clamped, at the first beat with i mod 8 = 0 at or after t. -/
def State.steerTo (s : State) (id : Nat) (v : Int) (t : Instant) : State :=
  match s.audioLeg id with
  | none => s
  | some x =>
    let c := clampI (-2000000) 2000000 v
    if c = v then s.setLegA id { x with deltaNext := x.deltaNext ++ [(t, c)] }
    else
      let (fire, lim) := x.driftEvent.hit t (sec 1)
      let s1 := s.setLegA id { x with deltaNext := x.deltaNext ++ [(t, c)], driftEvent := lim }
      match fire with
      | some n => s1.audioEvent t id 0x0002 (dInt 56 32 v + dBits 24 32 n)
      | none => s1

/-- δ with every update made so far (R237: updates act on the same δ). -/
def AudioLeg.latestDelta (x : AudioLeg) : Int := match x.deltaNext.getLast? with | some p => p.2 | none => x.delta

/-- An own packet is good (R270, R275, R276). -/
def State.ownPacket (s : State) (id : Nat) (cur : BeaconCur) (snr : List Int) (eps : Int) (t : Instant) : State :=
  match s.audioLeg id with
  | none => s
  | some x =>
    let b := x.beacon
    let S := smoothSnr b.snr cur.cfg.subHi snr
    let due := match b.due with | n :: r => (n + 1) :: r | [] => []
    let locks := !b.locked && b.cfg.txEnable && decide (3 ≤ sumN (due.take 4))
    let b1 := { b with snr := S, loading := (t, loadingOf S cur.cfg.loadMargin) :: b.loading.take 3, due := due, epsilon := eps, ownStrength := cur.strength, ownPackets := b.ownPackets + 1, lastOwn := sampleStamp cur.start, ownGood := b.ownGood + 1, locked := b.locked || locks }
    let s1 := s.setLegA id { x with beacon := b1, lockNext := if locks then x.lockNext ++ [(t, true)] else x.lockNext }
    let s2 := if locks then s1.beaconEvent t id 0x0001 (dCode 80 8 1) else s1
    if b.locked then s2.steerTo id (x.latestDelta + floorDiv ((x.kb : Int) * eps + 128) 256) t else s2

/-- The beat index nearest a stamp whose low 32 bits are `low` (R277). -/
def nearestBeat (t : Instant) (low : Nat) : Nat :=
  let i := Grid.audio.indexAtOrBefore t
  let base := i / 2 ^ 32 * 2 ^ 32 + low
  let cands := [base - 2 ^ 32, base, base + 2 ^ 32].filter (fun k => k % 2 ^ 32 == low)
  cands.foldl (fun best k =>
    let dist := fun j => let u := Grid.audio.beatAt j; if u < t then t - u else u - t
    if dist k < dist best then k else best) base

/-- A good packet with a foreign tag updates the heard table (R277). -/
def State.foreignPacket (s : State) (id : Nat) (cur : BeaconCur) (tag seq txBeat : Nat) (t : Instant) : State :=
  match s.audioLeg id with
  | none => s
  | some x =>
    let b := x.beacon
    let rcv := sampleStamp cur.start
    let delay : Int := (nsOf rcv : Int) - (nsOf (Grid.audio.beatAt (nearestBeat rcv txBeat)) : Int)
    let e : Heard := { tag := tag, strength := cur.strength, seq := seq, delay := delay, at_ := rcv }
    let b1 := { b with foreignGood := b.foreignGood + 1 }
    if b.heard.any (fun h => h.tag == tag) then
      let hs := b.heard.map (fun h => if h.tag = tag then { e with packets := h.packets + 1 } else h)
      s.setLegA id { x with beacon := { b1 with heard := hs } }
    else
      let heardData := dCode 56 32 tag + dInt 40 16 cur.strength
      if b.heard.length < 16 then
        (s.setLegA id { x with beacon := { b1 with heard := b.heard ++ [e] } }).beaconEvent t id 0x0002 heardData
      else
        let oldest := b.heard.foldl (fun o h => match o with | none => some h | some p => if h.at_ < p.at_ then some h else some p) (none : Option Heard)
        let otag := match oldest with | some h => h.tag | none => 0
        let hs := b.heard.filter (fun h => h.tag != otag) ++ [e]
        ((s.setLegA id { x with beacon := { b1 with heard := hs } }).beaconEvent t id 0x0003 (dCode 56 32 otag + dCode 48 8 1)).beaconEvent
          t id 0x0002 heardData

/-- The receiver leaves a packet: it returns to search and the gain is free again. -/
def Beacon.release (b : Beacon) : Beacon := { b with current := none, gainFrozen := false }

/-- A preamble is detected at sample n: its packet becomes current with gain `gain` and the samples `got` since its start, or is an echo,
supersedes the packet that is current, or is lost (R273, R274). -/
def State.beaconDetect (s : State) (id n : Nat) (strength : Int) (gain : Nat) (got : List Int) : State :=
  match s.audioLeg id with
  | none => s
  | some x =>
    let b := x.beacon
    let start := n - 592
    let t := sampleStamp n
    let cur : BeaconCur := { start := start, strength := strength, samples := got, cfg := b.cfg }
    let take := { b with current := some cur, gain := gain, gainFrozen := true, detected := b.detected + 1 }
    match b.current with
    | none => s.setLegA id { x with beacon := take }
    | some a =>
      if start < a.start + 288 ∧ strength ≤ a.strength then s
      else if a.strength + 1536 ≤ strength then (s.setLegA id { x with beacon := take }).rxError id 0 t
      else (s.setLegA id { x with beacon := { b with detected := b.detected + 1 } }).rxError id 1 t

/-- The end of H of the current packet at sample n, whose 30 bits read as h (R273). -/
def State.beaconHeader (s : State) (id n h : Nat) : State :=
  match s.audioLeg id with
  | none => s
  | some x =>
    match x.beacon.current with
    | none => s
    | some a =>
      if headerValid h then s.setLegA id { x with beacon := { x.beacon with current := some { a with header := some h } } }
      else (s.setLegA id { x with beacon := x.beacon.release }).rxError id 2 (sampleStamp n)

/-- The end of the current packet's last symbol at sample n: `bits` of its payload, its SNR by pair, and its ε (R273 to R277). -/
def State.beaconPayload (s : State) (id n : Nat) (bits : List Bool) (snr : List Int) (eps : Int) : State :=
  match s.audioLeg id with
  | none => s
  | some x =>
    match x.beacon.current with
    | none => s
    | some a =>
      let t := sampleStamp n
      let s1 := s.setLegA id { x with beacon := x.beacon.release }
      match readPayload bits with
      | none => s1.rxError id 3 t
      | some (tag, seq, tb) => if tag = a.cfg.tag then s1.ownPacket id a snr eps t else s1.foreignPacket id a tag seq tb t

/- Demodulation (R265 to R267, R270, R275). -/

/-- The value of b bits whose point lies nearest a received value; the lowest on a tie. -/
def nearest (b : Nat) (r : Int × Int) : Nat :=
  let dist := fun u => let p := point b u; (r.1 - p.1) ^ 2 + (r.2 - p.2) ^ 2
  (List.range (2 ^ b)).foldl (fun best u => if dist u < dist best then u else best) 0

/-- The received value of a packet's subcarrier k in symbol n. -/
def BeaconCur.cell (a : BeaconCur) (gain n k : Nat) : Int × Int :=
  Config.receivedCell gain (a.samples.drop (a.samples.length - 288 * (n + 1))) n k

/-- The header's 30 bits, as decided (R265). -/
def BeaconCur.headerBits (a : BeaconCur) (gain : Nat) : Nat :=
  natOfBits (((List.range 10).map (fun k => bitsMsb 3 (nearest 3 (a.cell gain 2 (96 + k))))).flatten)

/-- Bits that subcarrier k carries in a payload symbol. -/
def cellBits (counts : List Nat) (k : Nat) : Nat := pairBits counts ((k - 96) / 2)

/-- Symbols of a packet's payload, numbered from its start. -/
def payloadSyms (h : Nat) : List Nat := (List.range (headerSyms h)).map (3 + ·)

/-- The payload's bits, as decided (R266). -/
def BeaconCur.payloadBits (a : BeaconCur) (gain h : Nat) : List Bool :=
  ((payloadSyms h).map (fun n => ((List.range 20).map (fun k =>
    let b := cellBits (headerCounts h) (96 + k)
    if b = 0 then [] else bitsMsb b (nearest b (a.cell gain n (96 + k))))).flatten)).flatten

/-- The known or decided point of a cell (R270, R275). -/
def BeaconCur.pointAt (a : BeaconCur) (gain h n k : Nat) : Int × Int :=
  if n < 2 then point 1 (b2n (Nat.testBit 0x2CB (105 - k)))
  else
    let b := if n = 2 then 3 else cellBits (headerCounts h) k
    if b = 0 then point 1 0 else point b (nearest b (a.cell gain n k))

def normSq (p : Int × Int) : Nat := (p.1 ^ 2 + p.2 ^ 2).toNat

/-- snr_g of the pairs up to sub_hi (R270): mean power of the points over the mean squared distance from them. -/
def BeaconCur.snr (a : BeaconCur) (gain h : Nat) : List Int :=
  ((List.range 10).filter (fun g => decide (97 + 2 * g ≤ a.cfg.subHi))).map (fun g =>
    let cells := ([96 + 2 * g, 97 + 2 * g].map (fun k => (payloadSyms h).map (fun n => (n, k)))).flatten
    let p := fun (c : Nat × Nat) => a.pointAt gain h c.1 c.2
    let d := fun (c : Nat × Nat) => let r := a.cell gain c.1 c.2; normSq (r.1 - (p c).1, r.2 - (p c).2)
    Config.decibels (sumN (cells.map (fun c => normSq (p c)))) (sumN (cells.map d)))

/-- Angles are held in turns with 48 fraction bits. -/
def angleBits : Nat := 48

/-- A complex value scaled to about 200 bits. -/
def scaleTo (z : Int × Int) : Int × Int :=
  let l := Nat.log2 (max z.1.natAbs z.2.natAbs)
  if 200 < l then (floorDiv z.1 (2 ^ (l - 200)), floorDiv z.2 (2 ^ (l - 200))) else (z.1 * 2 ^ (200 - l), z.2 * 2 ^ (200 - l))

/-- The binary digits of an angle: a value in the lower half plane has passed half a turn, and squaring it doubles its angle. -/
def angleDigits : Nat → Int × Int → Nat → Nat
  | 0, _, a => a
  | f + 1, z, a =>
    let w := scaleTo z
    let b := if w.2 < 0 ∨ (w.2 = 0 ∧ w.1 < 0) then 1 else 0
    angleDigits f (w.1 * w.1 - w.2 * w.2, 2 * w.1 * w.2) (2 * a + b)

/-- φ(k, n) = arg(r × conj p) (R275). -/
def phaseOf (r p : Int × Int) : Int := angleDigits angleBits (r.1 * p.1 + r.2 * p.2, r.2 * p.1 - r.1 * p.2) 0

/-- Phases unwrapped along the symbols: each lies within half a turn of the one before. -/
def unwrap : Int → List Int → List Int
  | _, [] => []
  | last, v :: vs =>
    let u := last + ((v - last + 2 ^ (angleBits - 1)) % 2 ^ angleBits - 2 ^ (angleBits - 1))
    u :: unwrap u vs

/-- Least-squares slope of values over their symbols. -/
def slopeOf (c : List (Nat × Int)) : Rat :=
  let n : Int := c.length
  let sx := sumI (c.map (fun p => (p.1 : Int)))
  let sy := sumI (c.map (·.2))
  let sxy := sumI (c.map (fun p => p.1 * p.2))
  let sxx := sumI (c.map (fun p => (p.1 * p.1 : Int)))
  ((n * sxy - sx * sy : Int) : Rat) / ((n * sxx - sx * sx : Int) : Rat)

/-- The linear value of a power in Q8.8 dB, with 40 fraction bits. -/
def linearPower (q : Int) : Nat :=
  if q < 0 then root5120 (2 ^ (40 * 5120)) (10 ^ (-(2 * q)).toNat) 41 0 else root5120 (2 ^ (40 * 5120) * 10 ^ (2 * q).toNat) 1 140 0

/-- θ_k in 2^-48 turns per symbol: over P1 to Dnsym on the base block, over the payload above it. -/
def BeaconCur.theta (a : BeaconCur) (gain h k : Nat) : Rat :=
  let ns := if k < 106 then [0, 1, 2] ++ payloadSyms h else payloadSyms h
  slopeOf (ns.zip (unwrap 0 (ns.map (fun n => phaseOf (a.cell gain n k) (a.pointAt gain h n k)))))

/-- The residual carrier offset ε of an own packet, in ppb (R275): f_k is k × 187.5 Hz and a symbol lasts 6 ms. -/
def BeaconCur.epsilon (a : BeaconCur) (gain h : Nat) (snr : List Int) : Int :=
  let ks := ((List.range 20).map (96 + ·)).filter (fun k => decide (k ≤ a.cfg.subHi))
  let w := fun k => ((linearPower (nth snr ((k - 96) / 2) 0) * k : Nat) : Rat)
  let top := (ks.map (fun k => w k * a.theta gain h k)).foldl (· + ·) 0
  let bottom := (ks.map (fun k => w k * (k : Rat))).foldl (· + ·) 0
  let e := -((8 * 10 ^ 9 : Nat) : Rat) * top / (((9 * 2 ^ angleBits : Nat) : Rat) * bottom)
  roundDivAway e.num e.den

/- The receiver, sample by sample (R271 to R274). -/

/-- The gain that a base-block power asks for (R271). -/
def gainFor (p : Int) : Nat := (clampI 0 15360 (-5120 - p)).toNat

/-- A preamble's peak lay 16 samples ago (R272): the ratio reaches det_threshold, and no sample within 16 of it, and none before it
among them as well, has so large a correlation. -/
def Beacon.peaks (b : Beacon) : Bool :=
  let at_ := fun k => Config.correlation b.gain ((b.store.drop k).take 576)
  decide (608 ≤ b.store.length) && decide ((b.cfg.detThreshold : Int) ≤ Config.correlationRatio b.gain ((b.store.drop 16).take 576)) &&
  (List.range 16).all (fun k => decide (at_ k ≤ at_ 16)) && (List.range 16).all (fun k => decide (at_ (17 + k) < at_ 16))

/-- What ends at sample n of the packet that is current: its header, or its payload (R273). -/
def State.beaconCheck (s : State) (id n : Nat) : State :=
  match s.audioLeg id with
  | none => s
  | some x =>
    match x.beacon.current with
    | none => s
    | some a =>
      let g := x.beacon.gain
      match a.header with
      | none => if n = a.start + 864 then s.beaconHeader id n (a.headerBits g) else s
      | some h =>
        if n = a.start + (3 + headerSyms h) * 288 then
          let snr := a.snr g h
          s.beaconPayload id n (a.payloadBits g h) snr (a.epsilon g h snr)
        else s

/-- The correlator and the gain at sample n, from the samples before it (R271, R272). -/
def State.beaconSearch (s : State) (id n : Nat) : State :=
  match s.audioLeg id with
  | none => s
  | some x =>
    let b := x.beacon
    if b.peaks then
      let pre := (b.store.drop 16).take 576
      s.beaconDetect id n (Config.preamblePower b.gain pre - (b.gain : Int)) (gainFor (Config.basePower (pre.take 256))) (b.store.take 592)
    else if n % 32 = 0 ∧ b.gainFrozen = false then
      s.setLegA id { x with beacon := { b with gain := gainFor (Config.basePower (b.store.take 256)) } }
    else s

/-- The receiver takes in a sample. -/
def Beacon.hear (b : Beacon) (v : Int) : Beacon :=
  { b with store := (v :: b.store).take 640, current := b.current.map (fun a => { a with samples := v :: a.samples }) }

/-- Sample n of the converter's output reaches the receiver: what has ended is checked before a new preamble is looked for. -/
def State.beaconSample (s : State) (id n : Nat) (v : Int) : State :=
  ((s.beaconCheck id n).beaconSearch id n).modLegA id (fun x => { x with beacon := x.beacon.hear v })

/-- The receiver of a leg reads samples of the converter's output, from sample n on (R262, R272). -/
def State.beaconListen (s : State) (id n : Nat) (v : List Int) : State :=
  match s.audioLeg id with
  | none => s
  | some x => if x.beacon.cfg.rxEnable then ((List.range v.length).zip v).foldl (fun t p => t.beaconSample id (n + p.1) p.2) s else s

/-- BEACON_LOST by timeout (R277): entries not heard for heard_timeout seconds are removed. -/
def execBeaconLost (dt leg : Nat) (s0 : State) : Out :=
  let s := s0.advance dt
  if !s.serving then .next s
  else match s.audioLeg leg with
    | none => .next s
    | some x =>
      let old := fun (h : Heard) => decide (h.at_ + sec x.beacon.cfg.heardTimeout ≤ s.now)
      let gone := x.beacon.heard.filter old
      let s1 := s.setLegA leg { x with beacon := { x.beacon with heard := x.beacon.heard.filter (fun h => !old h) } }
      .next (gone.foldl (fun t h => t.beaconEvent (h.at_ + sec x.beacon.cfg.heardTimeout) leg 0x0003 (dCode 56 32 h.tag)) s1)

/- Commands of the range 0x0Axx. -/

def beaconCfgOf (e : Env) : BeaconCfg :=
  { txEnable := e.at 1 == 1, rxEnable := e.at 2 == 1, subHi := e.at 3, maxSymbols := e.at 4, tag := e.at 5, period := e.at 6, phase := e.at 7, level := signed 16 (e.at 8), detThreshold := e.at 9, loadMargin := e.at 10, heardTimeout := e.at 11, appData := e.tail }

def beaconSetDef : CmdDef where
  opcode := 0x0A01
  fields := [fN 4, fN 1, fN 1, fD 1 115, fD 1 16, fN 4, fD 2 200, fD 2 0, fD 2 (65536 - 9216), fD 2 2048, fD 2 768, fD 2 10, fD 1 0, fRD 3]
  tail := some (fun v => fv v 12)
  checks := fun e =>
    let c := beaconCfgOf e
    let opus := match e.vw.audioLeg (e.at 0) with | some x => x.cfg.codec == 5 | none => false
    [ needsSt (e.vw.audio.legs.has (e.at 0)) .notFound 0,
      range (e.at 1) 0 1 4,
      range (e.at 2) 0 1 5,
      needsSt (c.subHi % 2 == 1 && decide (105 ≤ c.subHi ∧ c.subHi ≤ 115)) .badSubcarrier 6,
      range c.maxSymbols 1 63 7,
      needs (c.tag != 0) 8,
      range c.period 16 4000 12,
      needs (decide (c.phase < c.period)) 14,
      needs (decide (-15360 ≤ c.level ∧ c.level ≤ -5120)) 16,
      range c.detThreshold 1024 5120 18,
      range c.loadMargin 0 2560 20,
      range c.heardTimeout 1 600 22,
      range (e.at 12) 0 64 24,
      needsSt (decide (symbolsFor (e.at 12) 10 ≤ c.maxSymbols)) .payloadTooLong 24,
      needs (decide ((3 + c.maxSymbols) * 288 + 16 ≤ c.period * 120)) 12,
      needs (!c.txEnable || opus) 4 ]
  effect := fun e => { stage := [(.audioTask (e.at 0), .audio (.beacon (e.at 0) (beaconCfgOf e)))] }

/-- CMD_BEACON_SET (R263, R279, R280). -/
def execCmdBeaconSet (r : CmdRef) (b : List Byte) (s : State) : Out := runCmd beaconSetDef r b s

/-- The beacon of the leg that a reading command names. -/
def beaconOf (e : Env) : Beacon := match e.s.audioLeg (e.at 0) with | some x => x.beacon | none => {}

def beaconReadChecks (e : Env) : List (Bool × Err) :=
  let c := (beaconOf e).cfg
  [ needsSt (e.s.audio.legs.has (e.at 0)) .notFound 0, needsSt (c.txEnable || c.rxEnable) .beaconDisabled 0 ]

/-- The loading in force. -/
def Beacon.loadingNow (b : Beacon) : List Nat := match b.loading with | l :: _ => l.2 | [] => initialLoading

def beaconStatusDef : CmdDef where
  opcode := 0x0A02
  reads := true
  fields := [fN 4]
  checks := beaconReadChecks
  effect := fun e =>
    let b := beaconOf e
    let n := b.loadingNow
    { result := beBytes 1 (b2n b.locked) ++ beBytes 1 (b2n b.current.isSome) ++
        beBytes 2 (nth n 0 0 * 4096 + nth n 1 0 * 256 + nth n 2 0 * 16 + nth n 3 0) ++ beInt 4 b.epsilon ++ beInt 2 b.ownStrength ++
        beBytes 1 b.heard.length ++ zeros 1 ++
        (([b.sent, b.deferred, b.detected, b.ownGood, b.foreignGood, b.headerFail, b.payloadFail, b.superseded, b.collisions].map
          (fun c => beBytes 8 c.toNat)).flatten) ++ timeBytes b.lastOwn }

/-- CMD_BEACON_STATUS (Table 12.8). -/
def execCmdBeaconStatus (r : CmdRef) (b : List Byte) (s : State) : Out := runCmd beaconStatusDef r b s

def beaconHeardDef : CmdDef where
  opcode := 0x0A03
  reads := true
  fields := [fN 4, fD 2 0, fRD 2]
  checks := beaconReadChecks
  effect := fun e =>
    let l := (beaconOf e).heard
    let p := page l (e.at 1) 16
    { result := beBytes 2 p.length ++ beBytes 2 (pageRest l (e.at 1) 16) ++
        (p.map (fun h => beBytes 4 h.tag ++ beBytes 4 (sat 32 h.packets) ++ beInt 2 h.strength ++ beBytes 2 h.seq ++ beInt 4 (satI 32 h.delay) ++ timeBytes h.at_)).flatten }

/-- CMD_BEACON_HEARD (Table 12.9). -/
def execCmdBeaconHeard (r : CmdRef) (b : List Byte) (s : State) : Out := runCmd beaconHeardDef r b s

def beaconLoadingDef : CmdDef where
  opcode := 0x0A04
  reads := true
  fields := [fN 4]
  checks := beaconReadChecks
  effect := fun e =>
    let b := beaconOf e
    { result := beBytes 4 (sat 32 b.ownPackets) ++
        ((List.range 10).map (fun g => beInt 2 (b.snr.getD g (-32768)) ++ beBytes 1 (pairBits b.loadingNow g) ++ zeros 1)).flatten }

/-- CMD_BEACON_LOADING (R270). -/
def execCmdBeaconLoading (r : CmdRef) (b : List Byte) (s : State) : Out := runCmd beaconLoadingDef r b s

def beaconTableDef : CmdDef where
  opcode := 0x0A05
  reads := true
  fields := [fN 2, fN 2]
  checks := fun e => [ range (e.at 0) 0 94 0, range (e.at 1) 1 95 2, needs (decide (e.at 0 + e.at 1 ≤ 95)) 2 ]
  effect := fun e =>
    { result := beBytes 2 (e.at 1) ++ zeros 2 ++ ((List.range (e.at 1)).map (fun k => beInt 4 (Config.bandLimiterCoef (e.at 0 + k)))).flatten }

/-- CMD_BEACON_TABLE_READ (R262). -/
def execCmdBeaconTableRead (r : CmdRef) (b : List Byte) (s : State) : Out := runCmd beaconTableDef r b s

end Sys2Proof.Machine
end

