-- ==== Sys2Proof/Machine/JitterOps.lean ====
section
/-! DEFINITION. The jitter buffer of an audio leg: placement, anchoring, the drift estimate, frame starts (R229 to R232, R236).
Corners of the audio path: DEDUCED (log entry 34). -/

namespace Sys2Proof.Machine

/-- Slots of a jitter buffer, and the bytes of one. -/
def jbSlotBytes : Nat := 1536

/-- The time-stamp of the next frame to start, t_next (R230). -/
def AudioLeg.nextTs (x : AudioLeg) (a : Anchor) : W32 := a.ts + BitVec.ofNat 32 (x.nextFrame * codecTs x.cfg.codec)

/-- The jitter-buffer estimate of two successive valid blocks (R236), in ppb. -/
def jitterDelta (m0 m1 : Int) : Int := floorDiv ((m0 - m1) * 1000 + 640) 1280

/-- A block of the drift estimate ends once none of its frames is to start (R236): a valid one after a valid one gives δ_j, which steers
when the beacon is not locked (R237). -/
def State.closeBlock (s : State) (id : Nat) : State :=
  match s.audioLeg id with
  | none => s
  | some x =>
    let no := x.nextFrame / 64 - 1
    match x.blocks.find no with
    | none => s
    | some (m, n) =>
      let s0 := s.setLegA id { x with blocks := x.blocks.del no }
      if n < 16 then s0
      else
        let s1 := s.setLegA id { x with blocks := x.blocks.del no, lastMin := some (no, m) }
        match x.lastMin with
        | none => s1
        | some (p, m0) =>
          if p + 1 ≠ no ∨ x.beacon.locked then s1
          else s1.steerTo id (x.latestDelta + floorDiv ((x.kj : Int) * (jitterDelta m0 m - x.latestDelta) + 128) 256) s.now

/-- An accepted packet of frame `frame` enters the drift estimate (R236). -/
def State.driftPacket (s : State) (id frame : Nat) (a : Anchor) (arrival : Instant) : State :=
  match s.audioLeg id with
  | none => s
  | some x =>
    let m : Int := floorDiv ((arrival : Int) - (a.arrival : Int)) 65536 - (frame * 20000000 : Nat)
    let b := match x.blocks.find (frame / 64) with
      | some (m0, n) => (min m0 m, n + 1)
      | none => (m, 1)
    s.setLegA id { x with blocks := x.blocks.put (frame / 64) b }

/-- A packet anchors a leg (R230): frame 0 starts at the first beat at or after its arrival plus jb_target; the decoder and the
converter restart, δ is 0, and the beacon unlocks (R235, R237, R276). A run of concealed or silent frames goes on until a packet ends it
(R232). -/
def State.anchorLeg (s : State) (id : Nat) (p : JbPacket) (cause : Nat) : State :=
  match s.audioLeg id with
  | none => s
  | some x =>
    let a : Anchor := { ts := p.ts, arrival := p.arrival, start := Grid.audio.firstAtOrAfter (p.arrival + ns x.cfg.jbTarget) }
    let y := { x with anchor := some a, everAnchored := true, cause := 0, jb := [p], nextFrame := 0, slice := 0, fifo := [], history := [], p := 0, completions := 0, started := false, delta := 0, deltaNext := [], blocks := [], lastMin := none, noPacketRun := 0, ctrs := { x.ctrs with reanchors := if cause = 0 then x.ctrs.reanchors else x.ctrs.reanchors + 1 } }
    let s1 := (s.setLegA id y).beaconUnlock id 1 s.now
    let s2 := if cause = 0 then s1 else s1.audioEvent s.now id 0x0001 (dCode 80 8 cause)
    s2.driftPacket id 0 a p.arrival

/-- A delivered packet reaches the jitter buffer with its ingress arrival stamp (R99, R229, R230). -/
def State.jbPlace (s : State) (id : Nat) (q : Delivered) (arrival : Instant) : State :=
  match s.audioLeg id with
  | none => s
  | some x0 =>
    let x := { x0 with ctrs := { x0.ctrs with packets := x0.ctrs.packets + 1 } }
    let c := x.ctrs
    let p : JbPacket := { ts := q.ts, seq := q.seq, arrival := arrival, fecNext := q.fecNext, data := q.data }
    let bytes := q.data.length
    let ok := q.twentyMs && (x.cfg.codec == 5 || bytes == 160)
    if jbSlotBytes < bytes then s.setLegA id { x with ctrs := { c with oversize := c.oversize + 1 } }
    else if !ok then s.setLegA id { x with ctrs := { c with badDuration := c.badDuration + 1 } }
    else match x.anchor with
      | none => (s.setLegA id x).anchorLeg id p x.cause
      | some a =>
        let step := codecTs x.cfg.codec
        let d := (p.ts - x.nextTs a).toNat
        if d % step = 0 ∧ d / step ≤ 31 then
          if x.jb.any (fun q => q.ts == p.ts) then s.setLegA id { x with ctrs := { c with duplicate := c.duplicate + 1 } }
          else (s.setLegA id { x with jb := x.jb ++ [p] }).driftPacket id (x.nextFrame + d / step) a p.arrival
        else if 2 ^ 31 ≤ d then s.setLegA id { x with ctrs := { c with late := c.late + 1 } }
        else (s.setLegA id x).anchorLeg id p (if d % step = 0 then 3 else 2)

/-- What the decode stage makes of a frame that starts: kind 0 packet, 1 FEC, 2 concealment, 3 silence. -/
def AudioLeg.startFrame (x : AudioLeg) (beat : Instant) : AudioLeg :=
  let c := x.ctrs
  let begin_ := { x with slice := 0, sliceData := [], decoder := if x.anchor.isSome && x.nextFrame == 0 then Coder.fresh else x.decoder }
  match x.anchor with
  | none => { begin_ with sliceKind := 3 }
  | some a =>
    let t := x.nextTs a
    let mine := x.jb.filter (fun q => q.ts == t)
    let rest := x.jb.filter (fun q => q.ts != t)
    let late := mine.filter (fun q => decide (beat < q.arrival))
    let c1 := { c with late := c.late + BitVec.ofNat 64 late.length }
    let y := { begin_ with jb := rest, nextFrame := x.nextFrame + 1, ctrs := c1 }
    match mine.find? (fun q => decide (q.arrival ≤ beat)) with
    | some q =>
      -- a run that a packet next in sequence ends was discontinuous transmission (R232)
      let dtx := decide (0 < x.runConcealed + x.runSilence) && x.lastSeq == some (q.seq - 1)
      let c2 := if dtx then { c1 with concealed := c1.concealed - BitVec.ofNat 64 x.runConcealed, silence := c1.silence - BitVec.ofNat 64 x.runSilence, dtx := c1.dtx + BitVec.ofNat 64 (x.runConcealed + x.runSilence) } else c1
      { y with sliceKind := 0, sliceData := q.data, lastSeq := some q.seq, runConcealed := 0, runSilence := 0, noPacketRun := 0, jbDelay := sat 32 (nsOf (beat - q.arrival)), ctrs := c2 }
    | none =>
      let next := t + BitVec.ofNat 32 (codecTs x.cfg.codec)
      let fec := rest.find? (fun q => x.cfg.codec == 5 && q.ts == next && q.fecNext && decide (q.arrival ≤ beat))
      if fec.isSome then
        { y with sliceKind := 1, sliceData := (fec.map (·.data)).getD [], frameFec := true, runConcealed := 0, runSilence := 0, noPacketRun := 0, ctrs := { c1 with fecRecovered := c1.fecRecovered + 1 } }
      else
        let gone := decide (25 ≤ x.noPacketRun + 1)
        let conceal := decide (x.runConcealed < 5)
        let c2 := if conceal then { c1 with concealed := c1.concealed + 1 } else { c1 with silence := c1.silence + 1 }
        { y with sliceKind := if conceal then 2 else 3, runConcealed := if conceal then x.runConcealed + 1 else x.runConcealed, runSilence := if conceal then x.runSilence else x.runSilence + 1, noPacketRun := x.noPacketRun + 1, frameConcealed := x.frameConcealed || conceal, frameSilence := x.frameSilence || !conceal, anchor := if gone then none else some a, jb := if gone then [] else rest, cause := if gone then 1 else x.cause, ctrs := c2 }

/-- One slice of the decode stage (R227): the first of a frame is its frame start; the eighth ends it and puts its samples into the
converter's FIFO. The converter starts at the second completion (R235). -/
def AudioLeg.runSlice (x : AudioLeg) (beat : Instant) : AudioLeg :=
  let y := if x.slice = 0 then x.startFrame beat else x
  if y.slice = 7 then
    let (v, c) := y.decoder.decode y.cfg.codec y.sliceKind y.sliceData
    { y with slice := 0, sliceData := [], decoder := c, fifo := y.fifo ++ v, completions := y.completions + 1, started := y.started || decide (2 ≤ y.completions + 1) }
  else { y with slice := y.slice + 1 }

end Sys2Proof.Machine
end

