-- ==== Sys2Proof/Machine/Egress.lean ====
section
/-! DEFINITION. Egress scheduling, shaping, policing and timed launch (06_scheduling_policing.md).
Corners of egress: DEDUCED (log entry 28). -/

namespace Sys2Proof.Machine

/- Commands of the range 0x04xx. -/

/-- The egress MTU of a port's interfaces. -/
def State.mtu (s : State) (p : Nat) : Nat := (s.port p).cfg.mtu

/-- The leg's max_frame: Table 6.4's default is the egress MTU; 2^16 stands for an omitted field. -/
def legFrame (s : State) (port v : Nat) : Nat := if v = 0x10000 then s.mtu port else v

/-- A timed leg's longest frame does not fit an empty window (R148). -/
def exceedsWindow (s : State) (port iface maxFrame length : Nat) : Bool :=
  let x := s.egress.iface (ifNo port iface)
  decide (((length * (s.port port).rateIf : Nat) : Int) < ((maxFrame : Int) + x.overhead) * 8)

def legCfgOf (e : Env) : LegCfg :=
  { port := e.at 1, iface := e.at 2, cls := e.at 3, timed := e.at 4 == 1, rate := e.at 5, burst := e.at 6,
    maxDepth := e.at 7, maxFrame := legFrame e.vw (e.at 1) (e.at 8), weight := e.at 9, timer := e.at 10 }

/-- The identifier that CMD_LEG_SET names, or the lowest free one of the port's package (R136, R403). -/
def legTarget (e : Env) : Nat :=
  if e.at 0 = 0xFFFFFFFF then
    lowestFree (e.used (fun s => s.egress.legs.keys)) (e.at 1 * 2 ^ 18)
  else e.at 0

def legSetDef : CmdDef where
  opcode := 0x0401
  fields := [fN 4, fN 1, fN 1, fN 1, fFD 1 1 0, fD 4 0xFFFFFFFF, fD 4 65536, fD 4 262144, fD 2 0x10000, fD 1 1, fRD 1,
             fD 4 0xFFFFFFFF]
  checks := fun e =>
    let c := legCfgOf e
    let old := e.vw.egress.legs.find (e.at 0)
    let rif := (e.vw.port c.port).rateIf
    let mtu := e.vw.mtu c.port
    let timer := e.vw.egress.timers.find c.timer
    [ needsSt (e.at 0 == 0xFFFFFFFF || old.isSome) .notFound 0,
      needsSt (!c.timed || timer.isSome) .notFound 24,
      range c.port 0 1 4,
      needs ((e.vw.port c.port).hasIface c.iface) 5,
      needs (match old with | some l => l.cfg.port == c.port && l.cfg.iface == c.iface | none => true) 4,
      range c.cls 0 7 6,
      needsSt (c.rate == noRate || decide (c.rate ≤ rif * 1000000)) .rateUnreachable 8,
      needs (c.rate == noRate || decide (8 ≤ c.rate)) 8,
      range c.burst mtu 16777216 12,
      range c.maxDepth 2048 8388608 16,
      range c.maxFrame 64 mtu 20,
      range c.weight 1 255 22,
      needs (c.timed || c.timer == 0xFFFFFFFF) 24,
      needs (!c.timed || (match timer with | some t => t.cfg.port == c.port && t.cfg.iface == c.iface | none => false)) 24,
      needsSt (decide (legTarget e < (c.port + 1) * 2 ^ 18)) .queueFull 0,
      (c.timed && (match timer with | some t => exceedsWindow e.vw c.port c.iface c.maxFrame t.cfg.length | none => false),
        badAt .frameExceedsWindow 20) ]
  effect := fun e =>
    { result := beBytes 4 (legTarget e), stage := [(.instant, .egress (.legSet (legTarget e) (legCfgOf e)))] }

/-- CMD_LEG_SET (R136, R148, R150, R151, Table 6.4). -/
def execCmdLegSet (r : CmdRef) (b : List Byte) (s : State) : Out := runCmd legSetDef r b s

/-- A target names the leg (R150). Die-sourced contexts and exports name none: Tables 4.8 and 5.8 have no leg field. -/
def legNamed (s : State) (id : Nat) : Bool :=
  s.fwd.streams.any (fun p => p.2.targets.any (fun t => t.2.cfg.leg == id))

def legDeleteDef : CmdDef where
  opcode := 0x0402
  fields := [fN 4]
  checks := fun e =>
    [ needsSt (e.vw.egress.legs.has (e.at 0) && decide (e.at 0 < 2 ^ 19)) .notFound 0,
      needs (!legNamed e.vw (e.at 0)) 0 ]
  effect := fun e => { stage := [(.instant, .egress (.legDelete (e.at 0)))] }

/-- CMD_LEG_DELETE (R150). -/
def execCmdLegDelete (r : CmdRef) (b : List Byte) (s : State) : Out := runCmd legDeleteDef r b s

def classSetDef : CmdDef where
  opcode := 0x0403
  fields := [fN 1, fN 1, fD 1 4, fD 1 20] ++ List.replicate 8 (fD 1 1) ++ List.replicate 8 (fD 4 0xFFFFFFFF) ++ [fD 4 65536]
  checks := fun e =>
    let rif := (e.vw.port (e.at 0)).rateIf
    [ range (e.at 0) 0 1 0,
      needs ((e.vw.port (e.at 0)).hasIface (e.at 1)) 1,
      range (e.at 2) 0 8 2,
      needs (decide (-32 ≤ signed 8 (e.at 3) ∧ signed 8 (e.at 3) ≤ 63)) 3 ] ++
    (List.range 8).map (fun k => range (e.at (4 + k)) 1 255 (4 + k)) ++
    ((List.range 8).map (fun k =>
      let r := e.at (12 + k)
      [ needsSt (r == noRate || decide (r ≤ rif * 1000000)) .rateUnreachable (12 + 4 * k),
        needs (r == noRate || decide (8 ≤ r)) (12 + 4 * k) ])).flatten ++
    [ range (e.at 20) (e.vw.mtu (e.at 0)) 16777216 44 ]
  effect := fun e =>
    { stage := [(.instant, .egress (.classSet (ifNo (e.at 0) (e.at 1)) (e.at 2) (signed 8 (e.at 3))
        ((List.range 8).map (fun k => e.at (4 + k))) ((List.range 8).map (fun k => e.at (12 + k))) (e.at 20)))] }

/-- CMD_CLASS_SET (R141, R150, Table 6.5). -/
def execCmdClassSet (r : CmdRef) (b : List Byte) (s : State) : Out := runCmd classSetDef r b s

def policerCfgOf (e : Env) : PolicerCfg :=
  { mode := e.at 2, yellowDrop := e.at 3 == 1, cir := e.at 4, cbs := e.at 5, pir := e.at 6, ebsOrPbs := e.at 7 }

/-- The parameters are inconsistent (R150). -/
def PolicerCfg.inconsistent (c : PolicerCfg) : Bool :=
  if c.mode < 2 then decide (c.cbs + c.ebsOrPbs < 1600) || c.pir != 0
  else decide (c.pir < c.cir) || decide (c.cbs < 1600) || decide (c.ebsOrPbs < 1600)

/-- Policer identifiers are package[19] and index[18:0]; index 0 is never assigned (R142). -/
def policerTarget (e : Env) : Nat :=
  if e.at 0 = 0xFFFFFFFF then
    lowestFree (e.used (fun s => s.egress.policers.keys)) (e.at 1 * 2 ^ 19 + 1)
  else e.at 0

def policerSetDef : CmdDef where
  opcode := 0x0404
  fields := [fN 4, fN 1, fN 1, fD 1 0, fRD 1, fN 4, fN 4, fN 4, fN 4]
  checks := fun e =>
    let c := policerCfgOf e
    [ needsSt (e.at 0 == 0xFFFFFFFF || e.vw.egress.policers.has (e.at 0)) .notFound 0,
      range (e.at 1) 0 1 4,
      needs (e.at 0 == 0xFFFFFFFF || e.at 0 / 2 ^ 19 == e.at 1) 4,
      range c.mode 0 3 5,
      range (e.at 3) 0 1 6,
      range c.cir 8 800000000 8,
      range c.cbs 0 16777216 12,
      range c.ebsOrPbs 0 16777216 20,
      (c.inconsistent, badAt .badPolicer 0xFFFF),
      -- no status of Table 2.9 says that no policer is free: DESIGN CHOICE, log entry 61
      needs (decide (policerTarget e < (e.at 1 + 1) * 2 ^ 19)) 0 ]
  effect := fun e =>
    { result := beBytes 4 (policerTarget e),
      stage := [(.instant, .egress (.policerSet (policerTarget e) (policerCfgOf e)))] }

/-- CMD_POLICER_SET (R142, R143, R150, Table 6.6). -/
def execCmdPolicerSet (r : CmdRef) (b : List Byte) (s : State) : Out := runCmd policerSetDef r b s

def policerNamed (s : State) (id : Nat) : Bool := s.fwd.streams.any (fun p => p.2.cfg.policer == id)

def policerDeleteDef : CmdDef where
  opcode := 0x0405
  fields := [fN 4]
  checks := fun e =>
    [ needsSt (e.vw.egress.policers.has (e.at 0)) .notFound 0, needs (!policerNamed e.vw (e.at 0)) 0 ]
  effect := fun e => { stage := [(.instant, .egress (.policerDelete (e.at 0)))] }

/-- CMD_POLICER_DELETE (R150). -/
def execCmdPolicerDelete (r : CmdRef) (b : List Byte) (s : State) : Out := runCmd policerDeleteDef r b s

def policerStatusDef : CmdDef where
  opcode := 0x0406
  reads := true
  fields := [fN 4]
  checks := fun e => [ needsSt (e.s.egress.policers.has (e.at 0)) .notFound 0 ]
  effect := fun e =>
    let p := (e.s.egress.policers.getD (e.at 0) {}).at e.s.now
    { result := beBytes 8 p.green.toNat ++ beBytes 8 p.yellow.toNat ++ beBytes 8 p.red.toNat ++ beInt 8 p.c ++ beInt 8 p.e }

/-- CMD_POLICER_STATUS: the buckets are read at the instant of the command. -/
def execCmdPolicerStatus (r : CmdRef) (b : List Byte) (s : State) : Out := runCmd policerStatusDef r b s

/-- The colour of DSCP d in the map field (bits [127 − 2d : 126 − 2d]). -/
def colourOf (m d : Nat) : Nat := m / 2 ^ (126 - 2 * d) % 4

def dscpColourDef : CmdDef where
  opcode := 0x0407
  fields := [fN 1, fR 3, fN 16]
  checks := fun e =>
    [ range (e.at 0) 0 1 0, needs ((List.range 64).all (fun d => colourOf (e.at 1) d != 3)) 4 ]
  effect := fun e =>
    { stage := [(.instant, .egress (.colours (e.at 0) ((List.range 64).map (colourOf (e.at 1)))))] }

/-- CMD_DSCP_COLOUR (R143, R151). -/
def execCmdDscpColour (r : CmdRef) (b : List Byte) (s : State) : Out := runCmd dscpColourDef r b s

/-- The block of CMD_LAUNCH_TIMER (Table 6.7). `length` has no default, but actions 1 and 2 use only the timer field. -/
def timerFields (len : Fld) : List Fld :=
  [fN 4, fN 1, fD 1 0, fD 1 0, fFD 1 1 1, fD 1 0, fD 1 0, fD 1 1, fD 1 0, fD 4 0, len]

def timerCfgOf (e : Env) : TimerCfg :=
  { grid := gridOf (e.at 2) (e.at 3), guard := e.at 4 == 1, port := e.at 5, iface := e.at 6, period := e.at 7,
    phase := e.at 8, offset := e.at 9, length := e.at 10 }

/-- The guarded timer of the same interface whose windows overlap (R147): the lowest identifier. A timer whose freeing is staged is still held
now (R55). -/
def overlapping (e : Env) (id : Nat) (c : TimerCfg) : Option Nat :=
  let held := e.vw.egress.timers ++ e.s.egress.timers.filter (fun p => !e.vw.egress.timers.has p.1)
  if !c.guard then none
  else
    let hit := (held.filter (fun p => p.1 != id && p.2.cfg.guard && p.2.cfg.port == c.port && p.2.cfg.iface == c.iface && p.2.cfg.overlaps c)).map (·.1)
    if hit.isEmpty then none else some (hit.foldl min (hit.headD 0))

def timerRanges (e : Env) : List (Bool × Err) :=
  let c := timerCfgOf e
  [ range (e.at 2) 0 1 5,
    needs (e.at 2 == 0 || decide (1 ≤ e.at 3 ∧ e.at 3 ≤ 120)) 6,
    needs (c.port == e.at 0 / 512 % 2) 8,
    needs ((e.vw.port c.port).hasIface c.iface) 9,
    range c.period 1 255 10,
    needs (decide (c.phase < c.period)) 11,
    needs (decide (10 ≤ c.length ∧ c.offset + c.length ≤ minInterval c.grid)) 16 ]

def timerAudioZero (v : List Nat) : List (Bool × Nat) := [(fv v 2 == 0 && fv v 3 != 0, 6)]

def timerSetDef : CmdDef where
  opcode := 0x0408
  fields := timerFields (fN 4)
  zero := fun v _ => timerAudioZero v
  mine := selects 4 0 4
  checks := fun e =>
    let c := timerCfgOf e
    [ needsSt (decide (e.at 0 < 1024)) .notFound 0,
      ((e.s.vcp.holder (.launchTimer (e.at 0))).isSome, heldBy e.s (.launchTimer (e.at 0)) 0),
      needs (e.at 1 == 0) 4 ] ++ timerRanges e ++
    (match overlapping e (e.at 0) c with
     | some o => [(true, heldBy e.s (.launchTimer o) 0xFFFF)]
     | none => [])
  effect := fun e =>
    { result := zeros 24, claims := [(timerSite (e.at 0), .launchTimer (e.at 0))],
      stage := [(.instant, .egress (.timerSet (e.at 0) (timerCfgOf e) true))] }

/-- CMD_LAUNCH_TIMER action 0 (R145 to R147): takes the timer's claim and sets it. -/
def execCmdLaunchTimerSet (r : CmdRef) (b : List Byte) (s : State) : Out := runCmd timerSetDef r b s

/-- A timed leg names the timer. -/
def timerNamed (s : State) (id : Nat) : Bool := s.egress.legs.any (fun p => p.2.cfg.timed && p.2.cfg.timer == id)

/-- Actions 1 and 2 use only the timer field: their other fields are zero, and none may be left out, since length has no default (R50, Table 6.7). -/
def timerOnlyFields : List Fld :=
  [fN 4, fN 1, fR 1, fR 1, fR 1, fR 1, fR 1, fR 1, fR 1, fR 4, fR 4]

def timerFreeDef : CmdDef where
  opcode := 0x0408
  fields := timerOnlyFields
  mine := selects 4 1 4
  checks := fun e =>
    [ needsSt (e.vw.egress.timers.has (e.at 0)) .notFound 0, needs (e.at 1 == 1) 4, needs (!timerNamed e.vw (e.at 0)) 0 ]
  effect := fun e => { result := zeros 24, stage := (.instant, .egress (.timerFree (e.at 0))) :: e.vw.vcp.release (.launchTimer (e.at 0)) }

/-- CMD_LAUNCH_TIMER action 1 (R145): frees the timer. -/
def execCmdLaunchTimerFree (r : CmdRef) (b : List Byte) (s : State) : Out := runCmd timerFreeDef r b s

def timerReadDef : CmdDef where
  opcode := 0x0408
  reads := true
  fields := timerOnlyFields
  mine := selects 4 2 4
  checks := fun e => [ needsSt (e.s.egress.timers.has (e.at 0)) .notFound 0, needs (e.at 1 == 2) 4 ]
  effect := fun e =>
    let t := e.s.egress.timers.getD (e.at 0) {}
    { result := beBytes 8 t.windows.toNat ++ beBytes 8 t.misses.toNat ++ beBytes 8 t.frames.toNat }

/-- CMD_LAUNCH_TIMER action 2: reads the timer's counters. -/
def execCmdLaunchTimerRead (r : CmdRef) (b : List Byte) (s : State) : Out := runCmd timerReadDef r b s

def timerChangeDef : CmdDef where
  opcode := 0x0408
  fields := timerFields (fN 4)
  zero := fun v _ => timerAudioZero v
  mine := selects 4 3 4
  checks := fun e =>
    let c := timerCfgOf e
    let legs := e.vw.egress.legs.filter (fun p => p.2.cfg.timed && p.2.cfg.timer == e.at 0)
    [ needsSt (e.vw.egress.timers.has (e.at 0)) .notFound 0, needs (e.at 1 == 3) 4 ] ++ timerRanges e ++
    [ needs (legs.all (fun p => p.2.cfg.port == c.port && p.2.cfg.iface == c.iface)) 9 ] ++
    (match overlapping e (e.at 0) c with
     | some o => [(true, heldBy e.s (.launchTimer o) 0xFFFF)]
     | none => []) ++
    [ (legs.any (fun p => exceedsWindow e.vw c.port c.iface p.2.cfg.maxFrame c.length), badAt .frameExceedsWindow 16) ]
  effect := fun e => { result := zeros 24, stage := [(.instant, .egress (.timerSet (e.at 0) (timerCfgOf e) false))] }

/-- CMD_LAUNCH_TIMER action 3 (R145, R147, R148): changes a held timer and leaves its claim as it is. -/
def execCmdLaunchTimerChange (r : CmdRef) (b : List Byte) (s : State) : Out := runCmd timerChangeDef r b s

/-- Age of the head copy in ns, saturating; 0 when empty (Table 6.3). -/
def Leg.holAge (l : Leg) (t : Instant) : Nat :=
  match l.queue with
  | [] => 0
  | c :: _ => sat 32 (nsOf (t - c.enq))

def queueStatusDef : CmdDef where
  opcode := 0x0409
  reads := true
  fields := [fN 4]
  checks := fun e => [ needsSt (e.s.egress.legs.has (e.at 0) && decide (e.at 0 < 2 ^ 19)) .notFound 0 ]
  effect := fun e =>
    let l := e.s.egress.leg (e.at 0)
    { result := beBytes 4 l.depth ++ beBytes 4 l.queue.length ++ beInt 8 (l.bucketAt e.s.now).level ++
        beBytes 4 (l.holAge e.s.now) ++ zeros 4 ++ beBytes 8 l.enqueued.toNat ++ beBytes 8 l.sent.toNat ++
        beBytes 8 l.depthDrops.toNat ++ beBytes 8 l.bufferDrops.toNat ++ beBytes 8 l.windowRefused.toNat ++
        beBytes 8 l.windowMisses.toNat }

/-- CMD_QUEUE_STATUS (Table 6.8). -/
def execCmdQueueStatus (r : CmdRef) (b : List Byte) (s : State) : Out := runCmd queueStatusDef r b s

def EgressState.sampling (e : EgressState) (p : Nat) : Sampling := if p = 0 then e.sampling0 else e.sampling1

/-- The legs that a sampling command lists. -/
def listedLegs (tl : List Byte) : List Nat := (chunks 4 256 tl).map beNat

def queueSamplingDef : CmdDef where
  opcode := 0x040A
  fields := [fN 1, fN 1, fR 2, fN 4, fN 2, fR 2]
  tail := some (fun v => 4 * fv v 3)
  checks := fun e =>
    let legs := listedLegs e.tail
    let iv := e.at 2
    let total := if e.at 1 = 1 then (e.vw.egress.sampling (e.at 0)).legs.length + legs.length else legs.length
    [ needsSt (legs.all (fun l => e.vw.egress.legs.has l)) .notFound 12,
      range (e.at 0) 0 1 0,
      range (e.at 1) 0 1 1,
      needsSt (iv == 0 || (decide (100 ≤ iv ∧ iv ≤ 1000000) && 1000000 % iv == 0)) .badInterval 4,
      range (e.at 3) 1 256 8,
      needs (legs.all (fun l => legPkg l == e.at 0)) 12,
      needs (decide (total ≤ 4096)) 8 ]
  effect := fun e =>
    { stage := [(.instant, .egress (.sampling (e.at 0) (e.at 2) (listedLegs e.tail) (e.at 1 == 1)))] }

/-- CMD_QUEUE_SAMPLING (R149). -/
def execCmdQueueSampling (r : CmdRef) (b : List Byte) (s : State) : Out := runCmd queueSamplingDef r b s

/- Selection (R137, R140, R141, R146, R147). -/

/-- A frame of length len that is not of timer `own` would run into a guarded window of the interface (R147), or into
a cut-through copy that is committed (R138). -/
def guardBlocks (s : State) (port iface len : Nat) (own : Option Nat) (t : Instant) : Bool :=
  let starts := macCycleAtOrAfter t
  let ends := starts + wireTime (s.port port).rateIf len
  (s.egress.iface (ifNo port iface)).cuts.any (fun c => decide (c.start < ends ∧ starts < c.until_)) ||
  (s.egress.guarded port iface own starts).any (fun w => decide (w.1 < ends ∧ starts < w.2))

/-- A leg is eligible (R137). An express store-and-forward copy at its head waits for its tag verdict (R105). -/
def legEligible (s : State) (port iface : Nat) (p : Nat × Leg) : Bool :=
  match p.2.queue with
  | [] => false
  | c :: _ =>
    let x := s.egress.iface (ifNo port iface)
    if c.hold.isSome then false
    else if p.2.cfg.timed then
      match s.egress.timers.find p.2.cfg.timer with
      | none => false
      | some t => fits t (s.port port).rateIf c.len x.overhead s.now s.now &&
                  !guardBlocks s port iface c.len (some p.2.cfg.timer) s.now
    else decide (0 ≤ (p.2.bucketAt s.now).level) && !guardBlocks s port iface c.len none s.now

/-- The internal leg of the interface is eligible: it has a frame and no guarded window holds it. -/
def internalEligible (s : State) (port iface : Nat) : Bool :=
  match (s.egress.iface (ifNo port iface)).internal with
  | [] => false
  | c :: _ => !guardBlocks s port iface c.len none s.now

def classEligible (s : State) (port iface k : Nat) : Bool :=
  (s.egress.legsOf port iface k).any (legEligible s port iface) || (k == 7 && internalEligible s port iface)

def classOpen (s : State) (port iface k : Nat) : Bool :=
  decide (0 ≤ (s.egress.classBucketAt port iface k s.now).level)

/-- The internal leg's number among the legs of class 7 in a round. -/
def internalNo : Nat := 2 ^ 40

/-- Head length of a leg of a round. -/
def headLen (s : State) (n id : Nat) : Nat :=
  let q := if id = internalNo then (s.egress.iface n).internal else (s.egress.leg id).queue
  match q with | [] => 0 | c :: _ => c.len

/-- The deficit recorded for a number. -/
def deficitOf (ds : List (Nat × Int)) (id : Nat) : Int :=
  match ds.find? (fun d => d.1 == id) with
  | some d => d.2
  | none => 0

def setDeficit (ds : List (Nat × Int)) (id : Nat) (v : Int) : List (Nat × Int) :=
  ds.map (fun d => if d.1 = id then (id, v) else d)

/-- Deficit round robin (R137 steps 2 and 3) over numbers in a fixed order: the number served and the deficits. A visit
that begins adds the quantum; the number is served while its deficit covers the head frame. On fuel. -/
def drr (order : List Nat) (len quantum : Nat → Nat) : Nat → Nat → List (Nat × Int) → Bool → Option Nat × List (Nat × Int)
  | 0, _, ds, _ => (none, ds)
  | f + 1, pos, ds, fresh =>
    match order[pos]? with
    | none => if order.isEmpty then (none, ds) else drr order len quantum f 0 ds true
    | some id =>
      let d := if fresh then deficitOf ds id + quantum id else deficitOf ds id
      if (len id : Int) ≤ d then (some id, setDeficit ds id (d - len id))
      else drr order len quantum f (pos + 1) (setDeficit ds id d) true

/-- The rotation of a rising list that starts at the first element at or after `from_`. -/
def rotate (l : List Nat) (from_ : Nat) : List Nat := l.filter (fun x => decide (from_ ≤ x)) ++ l.filter (fun x => decide (x < from_))

/-- Rounds that a deficit round robin may need: enough for the longest frame at the smallest quantum. -/
def drrFuel (n : Nat) : Nat := 64 * (n + 1)

/-- The eligible legs of a class, by number; the internal leg comes last in class 7. -/
def roundOf (s : State) (port iface k : Nat) : List Nat :=
  ((s.egress.legsOf port iface k).filter (legEligible s port iface)).map (·.1) ++
  (if k = 7 && internalEligible s port iface then [internalNo] else [])

/-- The leg chosen within a class, and the deficits after the choice. The internal leg counts as a leg of weight 1. -/
def chooseLeg (s : State) (port iface k : Nat) : Option Nat × List (Nat × Int) :=
  let n := ifNo port iface
  let x := s.egress.iface n
  let last := x.rrLeg.getD k 0
  let order := rotate (roundOf s port iface k) last
  let deficit := fun id => if id = internalNo then (x.cls 8).deficit else (s.egress.leg id).deficit
  let quantum := fun id => if id = internalNo then 256 else (s.egress.leg id).cfg.weight * 256
  drr order (headLen s n) quantum (drrFuel order.length) 0 (order.map (fun id => (id, deficit id))) (order.head? != some last)

/-- The class chosen and the deficits of the weighted classes after the choice. -/
def chooseClass (s : State) (port iface : Nat) : Option Nat × List (Nat × Int) :=
  let x := s.egress.iface (ifNo port iface)
  let ready := (List.range 8).filter (fun k => classEligible s port iface k && classOpen s port iface k)
  let strict := ready.filter (fun k => decide (8 - x.strictCount ≤ k))
  match strict.getLast? with
  | some k => (some k, [])
  | none =>
    let order := rotate (ready.filter (fun k => decide (k < 8 - x.strictCount))) x.rrClass
    let len := fun k => match chooseLeg s port iface k with
      | (some id, _) => headLen s (ifNo port iface) id
      | (none, _) => 0
    drr order len (fun k => (x.cls k).weight * 256) (drrFuel order.length) 0 (order.map (fun k => (k, (x.cls k).deficit)))
      (order.head? != some x.rrClass)

/-- The residence of a copy (R98): what its element held on arrival plus the whole nanoseconds from the ingress to the egress
time-stamp point, rounded up, saturated. -/
def residenceOf (base : Nat) (arrival out : Instant) : Nat := min (base + ceilDiv (out - arrival) 65536) 0xFFFFFF

/-- A copy as committed to transmission at t: the residence and the IPv4 identification are written (R98, Table 4.3). -/
def Copy.committed (c : Copy) (t : Instant) (ipId : W16) : Copy :=
  match c.payload with
  | .media h =>
    { c with payload := .media { h with
        residence := h.rt.map (fun r => residenceOf r.2 c.arrival t),
        net := { h.net with ident := if h.net.family = 4 then ipId.toNat else 0 } } }
  | _ => c

/-- The frame is an IPv4 packet: PTP frames over Ethernet carry no address. -/
def Copy.isIpv4 (c : Copy) : Bool := c.dstAddr != 0 && decide (c.dstAddr < 2 ^ 32)

def FwdState.ipId (f : FwdState) (port : Nat) : W16 := if port = 0 then f.ipIdA else f.ipIdB
def FwdState.bumpIpId (f : FwdState) (port : Nat) : FwdState :=
  if port = 0 then { f with ipIdA := f.ipIdA + 1 } else { f with ipIdB := f.ipIdB + 1 }

/-- Start a frame: take it off its queue, debit the buckets, and hand it to the MAC, which discards it when it is longer
than the MTU or its interface is not up (R331); a discarded frame counts as sent and frees its cells at once. -/
def State.startFrame (s : State) (port iface k id : Nat) (classDef legDef : List (Nat × Int)) : State :=
  let n := ifNo port iface
  let x := s.egress.iface n
  let internal := id == internalNo
  let l := s.egress.leg id
  match (if internal then x.internal else l.queue) with
  | [] => s
  | c0 :: rest =>
    let up := (s.port port).ifaceUp iface
    let tooLong := decide (s.mtu port < c0.len)
    let sentNow := !up || tooLong
    let first := macCycleAtOrAfter s.now
    let (s, c) := if sentNow then (s, c0) else s.commitPtp port first (c0.committed first (s.fwd.ipId port))
    -- buckets are brought to now before the debit
    let cb := (s.egress.classBucketAt port iface k s.now).debit c.len x.overhead
    let classes0 := classDef.foldl (fun t d => t.put d.1 { EgIface.cls { x with classes := t } d.1 with deficit := d.2 }) x.classes
    let xc : EgIface := { x with classes := classes0 }
    let classes2 := match legDef.find? (fun d => d.1 == internalNo) with
      | some d => classes0.put 8 { xc.cls 8 with deficit := d.2 }
      | none => classes0
    let xc : EgIface := { xc with classes := classes2 }
    let classes1 := if (xc.cls k).rate == noRate then xc.classes else xc.classes.put k { xc.cls k with bucket := cb }
    let tx : InTx := { leg := if internal then none else some id, cls := k, copy := c, start := first,
                       until_ := first + wireTime (s.port port).rateIf c.len }
    let rrL := x.rrLeg.put k id
    let x1 : EgIface := { x with classes := classes1, rrClass := if classDef.isEmpty then x.rrClass else k, rrLeg := rrL, internal := if internal then rest else x.internal,
                                 tx := if sentNow then x.tx else some tx }
    let legs0 := legDef.foldl (fun t d => t.modify d.1 (fun y => { y with deficit := d.2 })) s.egress.legs
    let legs1 := if internal then legs0 else
      let b := if l.shaped then (l.bucketAt s.now).debit c.len x.overhead else l.bucket
      let l1 := { (legs0.getD id l) with queue := rest, bucket := b, sent := l.sent + 1, lastSojourn := sat 32 (nsOf (s.now - c.enq)) }
      if rest.isEmpty && decide (2 ^ 32 ≤ id) then legs0.del id else legs0.put id l1
    let e1 := { s.egress with ifaces := s.egress.ifaces.put n x1, legs := legs1 }
    let e2 := if sentNow then (e1.setCells port (e1.cells port - cellsOf c.len)).admitWaiting port s.now 64 else e1
    let e3 := if l.cfg.timed && !internal then
        { e2 with timers := e2.timers.modify l.cfg.timer (fun t => { t with frames := t.frames + 1 }) } else e2
    let s1 := { s with egress := e3, fwd := if c.isIpv4 then s.fwd.bumpIpId port else s.fwd }
    if !sentNow then s1
    else if tooLong then s1.modIface port iface (fun i => { i with txOversize := i.txOversize + 1 })
    else s1.modIface port iface (fun i => { i with txDown := i.txDown + 1 })

/-- EGRESS_SELECT (R137): an interface that transmits nothing selects a frame and starts it. -/
def execEgressSelect (dt port iface : Nat) (s0 : State) : Out :=
  let s := s0.advance dt
  if !(s.live && decide (port ≤ 1) && (s.port port).hasIface iface && s.pkgUp port) then .next s
  else if (s.egress.iface (ifNo port iface)).tx.isSome then .next s
  else
    let s1 := s.noteMisses port iface
    match chooseClass s1 port iface with
    | (none, _) => .next s1
    | (some k, cds) =>
      match chooseLeg s1 port iface k with
      | (none, _) => .next s1
      | (some id, lds) => .next ((s1.startFrame port iface k id cds lds).noteMisses port iface)

/-- Count the end of n frames of an interface. A frame whose interface has gone down was lost (R334) and is not counted. -/
def State.countSent (s : State) (port iface n : Nat) : State :=
  if (s.port port).ifaceUp iface then
    s.modIface port iface (fun i => { i with txFrames := i.txFrames + BitVec.ofNat 64 n })
  else s

/-- TRANSMIT_COMPLETE (R139, R331): frames in transmission that have ended leave the interface; the cells of a queued copy
are freed. -/
def execTransmitComplete (dt port iface : Nat) (s0 : State) : Out :=
  let s := s0.advance dt
  let n := ifNo port iface
  let x := s.egress.iface n
  let cutsDone := x.cuts.filter (fun f => decide (f.until_ ≤ s.now))
  let cutsLeft := x.cuts.filter (fun f => decide (s.now < f.until_))
  let x1 := { x with cuts := cutsLeft }
  match x.tx with
  | some f =>
    if f.until_ ≤ s.now then
      let e := ({ s.egress with ifaces := s.egress.ifaces.put n { x1 with tx := none } }).setCells port (s.egress.cells port - cellsOf f.copy.len)
      .next (({ s with egress := e.admitWaiting port s.now 64 }).countSent port iface (cutsDone.length + 1))
    else if cutsDone.isEmpty then .next s
    else .next ((s.setEgIface n x1).countSent port iface cutsDone.length)
  | none => if cutsDone.isEmpty then .next s else .next ((s.setEgIface n x1).countSent port iface cutsDone.length)

/-- LAUNCH_WINDOW_OPEN (R146): a held timer's window opens; WINDOW_MISS is noted where a head copy does not fit it. -/
def execLaunchWindowOpen (dt timer : Nat) (s0 : State) : Out :=
  let s := s0.advance dt
  match s.egress.timers.find timer with
  | none => .next s
  | some t =>
    let o := (t.window s.now).1
    let isOpen := decide (o ≤ s.now)
    if s.live && isOpen && t.open_ != some o then
      let t1 := { t with windows := t.windows + 1, open_ := some o }
      let s1 := { s with egress := { s.egress with timers := s.egress.timers.put timer t1 } }
      .next (s1.noteMisses t.cfg.port t.cfg.iface)
    else .next s

/-- One queue sample (Table 6.3). -/
def sampleOf (s : State) (id : Nat) : List Nat :=
  let l := s.egress.leg id
  [id, l.depth, sat 16 l.queue.length, l.holAge s.now, l.lastSojourn]

/-- QUEUE_SAMPLE (R149, R360): at an instant whose nanosecond field is a multiple of the interval, every listed queue is
read in list order, and the samples wait for each subscriber that takes them; samples still unsent are dropped and
counted. -/
def execQueueSample (dt pkg : Nat) (s0 : State) : Out :=
  let s := s0.advance dt
  let c := s.egress.sampling pkg
  if !(s.serving && decide (pkg ≤ 1) && s.pkgUp pkg && c.intervalUs != 0 && s.now % 65536 == 0 &&
       nsOf s.now % 1000000000 % (c.intervalUs * 1000) == 0) then .next s
  else
    let recs := c.legs.map (sampleOf s)
    let subs := (s.events.subs.filter (fun p => p.2.samples)).map (·.1)
    let old := s.egress.samplesWaiting.filter (fun w => w.pkg == pkg)
    let lost := sumN (old.map (fun w => w.recs.length))
    let kept := s.egress.samplesWaiting.filter (fun w => w.pkg != pkg)
    let new := if recs.isEmpty then [] else subs.map (fun i => ({ sub := i, pkg := pkg, instant := s.now, recs := recs } : SampleSet))
    .next { s with egress := { s.egress with samplesWaiting := kept ++ new },
                   events := { s.events with samplesLost := s.events.samplesLost + BitVec.ofNat 64 lost } }

end Sys2Proof.Machine
end

