-- ==== Sys2Proof/Machine/VideoDecode.lean ====
section
/-! DEFINITION. Decode streams: assembly of access units, decode tasks, and the commands of the range 0x05xx (07_video_decode.md).
Corners of decoding: DEDUCED (log entries 5, 25, 29). -/

namespace Sys2Proof.Machine

/- Shared by the commands that change tables. -/


/-- Step 6 of R68 for a command's changes (R67). -/
def Env.tables (e : Env) (stage : List (Scope × Change)) : List (Bool × Err) :=
  compileChecks e.vw (e.after stage) (dedup ((stage.map (fun c => c.2.clusters e.vw)).flatten))

/-- A check that gives a status with a detail. -/
def needsD (ok : Bool) (st : Status) (detail : Nat) : Bool × Err := (!ok, badDetail st detail)

/- Assembly (R159 to R162). -/

/-- The end packet of an access unit, once received. -/
def Au.endSeq (a : Au) : Option W16 := (a.packets.find? (·.m)).map (·.seq)

/-- The lowest sequence number received, in RTP sequence order. -/
def Au.lowest (a : Au) : Option W16 :=
  a.packets.foldl (fun m p => match m with | none => some p.seq | some q => if seqAfter q p.seq then some p.seq else m) none

/-- The access unit before `ts` among those in assembly, refused or abandoned: none, or whether it is in assembly. -/
def DecodeStream.before (x : DecodeStream) (ts : W32) : Option (Option Au) :=
  let held := x.held.filter (fun a => tsNewer ts a.ts)
  let away := (x.refused ++ x.gone).filter (fun t => tsNewer ts t)
  match held.getLast? with
  | none => if away.isEmpty then none else some none
  | some a => if away.any (fun t => tsNewer t a.ts) then some none else some (some a)

/-- The start packet of an access unit (Table 7.3). -/
def DecodeStream.startSeq (x : DecodeStream) (a : Au) : Option W16 :=
  if x.cfg.codec = 3 ∨ x.cfg.codec = 4 then
    let after := match x.before a.ts with
      | none => x.endSeq
      | some none => none
      | some (some p) => p.endSeq
    match after with
    | some q => some (q + 1)
    | none => a.lowest
  else (a.packets.find? (·.start)).map (·.seq)

/-- From packet q on, the received packets run contiguously to one with M = 1 (R159). -/
def Au.runs (a : Au) : Nat → W16 → Bool
  | 0, _ => false
  | f + 1, q =>
    match a.packets.find? (fun p => p.seq == q) with
    | none => false
    | some p => p.m || Au.runs a f (q + 1)

/-- The access unit is complete (R159). -/
def DecodeStream.isComplete (x : DecodeStream) (a : Au) : Bool :=
  match x.startSeq a with
  | none => false
  | some q => a.runs a.packets.length q

/-- Completion is tested again at the instant t, where the packet that an access unit starts with has changed (Table 7.3). -/
def DecodeStream.retest (x : DecodeStream) (t : Instant) : DecodeStream :=
  { x with held := x.held.map (fun b => if !b.complete && x.isComplete b then { b with complete := true, completedAt := t } else b) }

/-- The payloads of an access unit in sequence, from packet q on (on fuel). -/
def Au.payloads (a : Au) : Nat → W16 → List (List Byte)
  | 0, _ => []
  | f + 1, q =>
    match a.packets.find? (fun p => p.seq == q) with
    | none => []
    | some p => p.data :: (if p.m then [] else Au.payloads a f (q + 1))

/-- Insert an access unit in time-stamp order. -/
def insertAu (a : Au) : List Au → List Au
  | [] => [a]
  | b :: bs => if tsNewer b.ts a.ts then a :: b :: bs else b :: insertAu a bs

/-- The assembler's latest access unit is done with: released, abandoned or refused. -/
def DecodeStream.passed (x : DecodeStream) (ts : W32) (endSeq : Option W16) : DecodeStream :=
  { x with lastTs := some ts, endSeq := endSeq, refused := x.refused.filter (fun t => tsNewer t ts), gone := x.gone.filter (fun t => tsNewer t ts) }

/-- When the head is due to be abandoned (R161). -/
def DecodeStream.abandonAt (x : DecodeStream) : Option Instant :=
  match x.held with
  | [] => none
  | h :: t =>
    if h.complete then none
    else (earliest ((t.filter (·.complete)).map (·.completedAt))).map (· + ns x.cfg.reorderWait)

/-- Release complete access units from the head on (R160), each with its notice, stamped no earlier than `from_`. -/
def State.releaseAus (id : Nat) (from_ : Instant) : Nat → State → State
  | 0, s => s
  | f + 1, s =>
    match s.decode id with
    | none => s
    | some x =>
      match x.held with
      | [] => s
      | h :: t =>
        if !h.complete then s
        else
          let stamp := max from_ h.completedAt
          let r : ReleasedAu := { ts := h.ts, gap := x.gapNext, bytes := h.bytes, arrival := h.arrival, content := h.content, number := x.auNumber,
                                  data := h.payloads h.packets.length ((x.startSeq h).getD 0) }
          let y := ({ x with held := t, backlog := x.backlog ++ [r], gapNext := false, auNumber := x.auNumber + 1, ctrs := { x.ctrs with released := x.ctrs.released + 1 } }).passed h.ts h.endSeq
          let s1 := s.setDecode id y
          let n := clusterNo x.cfg.unit
          let s2 := match s1.entryOf n (.decode id) with
            | some e => s1.notice n e stamp
            | none => s1
          State.releaseAus id stamp f s2

/-- Abandon the head at the instant t, and release what has waited behind it (R161). -/
def State.abandonHead (s : State) (id : Nat) (t : Instant) : State :=
  match s.decode id with
  | none => s
  | some x =>
    match x.held with
    | [] => s
    | h :: rest =>
      let (fire, lim) := x.abandonEvent.hit t (sec 1)
      let y := (({ x with held := rest, gapNext := true, abandonEvent := lim, ctrs := { x.ctrs with abandoned := x.ctrs.abandoned + 1 } }).passed h.ts none).retest t
      let s1 := s.setDecode id y
      let s2 := match fire with
        | some n => s1.decodeEvent t id 0x0002 h.ts (dBits 24 32 n + dBits 8 16 h.packets.length)
        | none => s1
      s2.releaseAus id t (rest.length + 1)

/-- Abandon every head whose instant lies before `now`, or at it when `at_` is set (R75: an arrival at the instant itself comes
first). -/
def State.lapseAus (id : Nat) (now : Instant) (at_ : Bool) : Nat → State → State
  | 0, s => s
  | f + 1, s =>
    match (s.decode id).bind DecodeStream.abandonAt with
    | none => s
    | some t => if t < now ∨ (at_ ∧ t = now) then State.lapseAus id now at_ f (s.abandonHead id t) else s

/-- BUFFER_FULL of a refused access unit (R162, R172). -/
def State.bufferFull (s : State) (id : Nat) (ts : W32) (fresh : Bool) (arrival : Instant) : State :=
  match s.decode id with
  | none => s
  | some x =>
    let x1 := { x with ctrs := { x.ctrs with bufferFull := x.ctrs.bufferFull + 1 } }
    if !fresh then s.setDecode id x1
    else
      let (fire, lim) := x.fullEvent.hit s.now (sec 1)
      let x2 := { x1 with refused := x1.refused ++ [ts], gapNext := true, fullEvent := lim }.retest arrival
      let s1 := s.setDecode id x2
      let s2 := match fire with
        | some n => s1.decodeEvent s.now id 0x0004 ts (dBits 24 32 n)
        | none => s1
      s2.releaseAus id arrival (x2.held.length + 1)

/-- The access unit of a packet takes it; a packet of a sequence number that it has is passed over. -/
def Au.take (a : Au) (p : Delivered) (arrival : Instant) : Au :=
  if a.packets.any (fun q => q.seq == p.seq) then a
  else
    { a with packets := a.packets ++ [{ seq := p.seq, start := p.start, m := p.m, arrival := arrival, data := p.data }],
             bytes := a.bytes + p.data.length, content := p.au.getD a.content, arrival := if a.complete then a.arrival else arrival }

/-- A payload reaches the stream buffer of a decode stream, with its ingress arrival stamp (R99, R159 to R162). -/
def State.auPacket (s0 : State) (id : Nat) (p : Delivered) (arrival : Instant) : State :=
  let s := State.lapseAus id arrival false (((s0.decode id).map (fun x => x.held.length)).getD 0 + 1) s0
  match s.decode id with
  | none => s
  | some x =>
    let ts := p.ts
    if x.gone.contains ts || (match x.lastTs with | some t => !tsNewer ts t | none => false) then
      s.setDecode id { x with ctrs := { x.ctrs with late := x.ctrs.late + 1 } }
    else if x.refused.contains ts then s.bufferFull id ts false arrival
    else
      let old := x.held.find? (fun a => a.ts == ts)
      if old.isNone && decide (x.cfg.auSlots ≤ x.held.length + x.backlog.length + b2n x.current.isSome) then s.bufferFull id ts true arrival
      else
        let a := (old.getD { ts := ts, arrival := arrival }).take p arrival
        let others := x.held.filter (fun b => b.ts != ts)
        if x.cfg.auMax < a.bytes then
          let x1 := { x with held := others, gapNext := true, ctrs := { x.ctrs with oversize := x.ctrs.oversize + 1 } }
          let wasHead := !others.any (fun b => tsNewer ts b.ts)
          let x2 := (if wasHead then x1.passed ts none else { x1 with gone := x1.gone ++ [ts] }).retest arrival
          (s.setDecode id x2).releaseAus id arrival (others.length + 1)
        else
          let x1 := { x with held := insertAu a others }.retest arrival
          (s.setDecode id x1).releaseAus id arrival (x1.held.length + 1)

/-- AU_ABANDON (R161): the timer of a head that has stayed incomplete. -/
def execAuAbandon (dt stream : Nat) (s0 : State) : Out :=
  let s := s0.advance dt
  if !s.serving then .next s
  else .next (State.lapseAus stream s.now true (((s.decode stream).map (fun x => x.held.length)).getD 0 + 1) s)

/- Decode tasks (R163 to R171). -/

/-- The oldest access unit may be discarded unread (R164): every picture in it is non-reference. -/
def AuContent.discardable (c : AuContent) (codec : Nat) : Bool :=
  if codec = 3 ∨ codec = 4 then c.nonReference else c.frames.all (fun f => f.refresh.isEmpty)

/-- A decode instance starts (R163, R164): it may discard one access unit, and takes the oldest one left. -/
def State.decodeStart (s : State) (id : Nat) : State :=
  match s.decode id with
  | none => s
  | some x =>
    let n := clusterNo x.cfg.unit
    let drop := decide (x.cfg.backlogLimit < x.backlog.length) && (match x.backlog.head? with | some a => a.content.discardable x.cfg.codec | none => false)
    let after := if drop then x.backlog.drop 1 else x.backlog
    let last := drop && (x.backlog.head?.map (·.ts)) == x.lastTs
    let c := if drop then { x.ctrs with discarded := x.ctrs.discarded + 1 } else x.ctrs
    let y := { x with backlog := after.drop 1, current := after.head?, discardedOne := drop, endSeq := if last then none else x.endSeq, ctrs := c }
    let s1 := s.setDecode id (if last then y.retest s.now else y)
    let s2 := if drop then
        match s1.entryOf n (.decode id) with
        | some e => s1.uncarry n e 1
        | none => s1
      else s1
    if last then s2.releaseAus id s.now (x.held.length + 1) else s2

/-- The reason of R170 for which an access unit is broken, 0 when it is not. -/
def DecodeStream.breaks (x : DecodeStream) (c : AuContent) : Nat :=
  if c.error = 1 then 1
  else if c.error = 2 ∨ x.cfg.bitDepth < c.bitDepth then 2
  else if c.frames.any (fun f =>
      let m := if f.spatialId < x.cfg.spatialLayers then x.cfg.layerSize f.spatialId else (0, 0)
      decide (m.1 < f.w ∨ m.2 < f.h)) then 3
  else if c.error = 4 ∧ (x.cfg.codec = 3 ∨ x.cfg.codec = 4) then 4
  else 0

def DecodeStream.slot (x : DecodeStream) (k : Nat) : RefSlot := x.slots.getD k {}

/-- Invalidate slots. -/
def DecodeStream.invalidate (x : DecodeStream) (f : Nat → Bool) : DecodeStream :=
  { x with slots := x.slots.mapVals (fun k r => if f k then { r with valid := false } else r) }

/- References (R168, R169). -/

/-- The slot that a reference of a frame is read from; none where the reference was never received (Table 7.4). -/
def DecodeStream.reference (x : DecodeStream) (c : AuContent) (f : FrameContent) (r : RefNeed) : Option RefSlot :=
  if x.cfg.codec = 3 ∨ x.cfg.codec = 4 then (x.slots.map (·.2)).find? (fun k => k.valid && k.number == r.pic)
  else if c.numbered then
    if x.frameNos.contains ((f.number + c.numberMod - r.diff % c.numberMod) % c.numberMod) then some (x.slot r.pic) else none
  else if (x.slot r.pic).valid then some (x.slot r.pic) else none

/-- A picture of one value. -/
def greyPicture (w h depth : Nat) : Picture :=
  let v := 2 ^ (depth - 1)
  let c := List.replicate (ceilDiv w 2 * ceilDiv h 2) v
  { w := w, h := h, depth := depth, y := List.replicate (w * h) v, cb := c, cr := c }

/-- The standing picture of a size: the last decoded one whose concealed flag is clear, else mid-grey (R169). -/
def DecodeStream.standIn (x : DecodeStream) (w h : Nat) : Picture :=
  match x.standing.find? (fun p => p.1 == (w, h)) with
  | some p => p.2
  | none => greyPicture w h x.cfg.bitDepth

/-- The pictures that a frame predicts from, and whether one of them was substituted or comes from a concealed slot. -/
def DecodeStream.references (x : DecodeStream) (c : AuContent) (f : FrameContent) : List Picture × Bool :=
  let l := f.needs.map (fun r => match x.reference c f r with
    | some k => (k.pic, k.concealed)
    | none => (x.standIn r.w r.h, true))
  (l.map (·.1), l.any (·.2))

/- Pictures (R155). -/

/-- One plane that the codec's decoding process puts out for frame k of an access unit, of what it decodes and what it predicts from. -/
def decodedPlane (cfg : DecodeCfg) (context : Nat) (data : List (List Byte)) (refs : List Picture) (k plane count : Nat) : List Nat :=
  (List.range count).map (fun i => Config.decodedSample cfg.codec context data (refs.map Picture.samples) (3 * k + plane) i % 2 ^ cfg.bitDepth)

/-- The picture of frame k (R155): monochrome pictures have grey chroma. -/
def decodedPicture (cfg : DecodeCfg) (context : Nat) (a : ReleasedAu) (refs : List Picture) (k : Nat) (f : FrameContent) : Picture :=
  let n := ceilDiv f.w 2 * ceilDiv f.h 2
  let plane := decodedPlane cfg context a.data refs k
  let grey := List.replicate n (2 ^ (cfg.bitDepth - 1))
  { w := f.w, h := f.h, depth := cfg.bitDepth, y := plane 0 (f.w * f.h), cb := if a.content.mono then grey else plane 1 n,
    cr := if a.content.mono then grey else plane 2 n }

/- Operating points (R153, R174). -/

/-- operating_point_idc of an operating point; which one stands for a point that the sequence does not list is left open. -/
def AuContent.idc (c : AuContent) (point : Nat) : Nat :=
  if c.points.isEmpty then 0 else if point < c.points.length then nth c.points point 0 else Config.operatingIdc point

/-- A frame belongs to the operating point: an idc of 0 takes every layer. -/
def inPoint (idc : Nat) (f : FrameContent) : Bool := idc == 0 || (idc.testBit f.temporalId && idc.testBit (8 + f.spatialId))

/-- The frames of an access unit that a stream decodes, by their place in it. -/
def DecodeStream.framesOf (x : DecodeStream) (c : AuContent) : List (Nat × FrameContent) :=
  let l := (List.range c.frames.length).zip c.frames
  if x.cfg.codec = 1 then l.filter (fun p => inPoint (c.idc x.cfg.operatingPoint) p.2) else l

/-- A pair takes a picture: it becomes the current surface, and the current one the other (R167, R192). -/
def State.writePair (s : State) (h : Nat) (p : PairPic) : State :=
  let write := fun (l : List PairPic) => p :: l.take 1
  ({ s with video := { s.video with pairs := s.video.pairs.modify h write } }).modGone h p.beat
    (fun o => match o with | .pair w ps => .pair w (write ps) | o => o)

/-- What an access unit has come to: the stream, the pictures to put out by spatial layer, and whether one of its frames is concealed. -/
structure Decoding where
  stream : DecodeStream
  out : List (Nat × PairPic) := []
  concealed : Bool := false
deriving DecidableEq, Repr, Inhabited

/-- One frame is decoded (R155, R168, R169): its references, its picture, the slots that it refreshes, the picture that may stand in. -/
def Decoding.frame (a : ReleasedAu) (beat t : Instant) (d : Decoding) (p : Nat × FrameContent) : Decoding :=
  let x := d.stream
  let f := p.2
  let (refs, conc) := x.references a.content f
  let pic := decodedPicture x.cfg x.context a refs p.1 f
  let slot : RefSlot := { valid := true, concealed := conc, number := f.number, pic := pic }
  let slots := (f.refresh.filter (fun k => decide (k < x.cfg.refSlots))).foldl (fun t k => t.put k slot) x.slots
  let standing := if conc then x.standing else ((f.w, f.h), pic) :: x.standing.filter (fun q => q.1 != (f.w, f.h))
  { stream := { x with slots := slots, standing := standing, frameNos := if a.content.numbered then (f.number :: x.frameNos).take 64 else x.frameNos }
    out := if f.shown then d.out ++ [(f.spatialId, { pic := pic, beat := beat, completed := t, concealed := conc, number := a.number })] else d.out
    concealed := d.concealed || conc }

/-- Size of the top layer decoded. -/
def DecodeStream.topOf (x : DecodeStream) (c : AuContent) : Nat × Nat :=
  match (x.framesOf c).getLast? with | some p => (p.2.w, p.2.h) | none => (0, 0)

/-- The operating point and output layers for an access unit: what waits for a random-access one is taken with it (R174). -/
def DecodeStream.select (x : DecodeStream) (c : AuContent) : DecodeStream :=
  match x.opPending with
  | some (op, out) => if c.randomAccess then { x with cfg := { x.cfg with operatingPoint := op, outLayers := out }, opPending := none } else x
  | none => x

/-- The pictures that an access unit puts out into output pairs: those of the selected layers that have a pair. -/
def DecodeStream.putsOut (x : DecodeStream) (out : List (Nat × PairPic)) : List (Nat × PairPic) :=
  out.filter (fun p => (selectedLayers x.cfg.spatialLayers x.cfg.outLayers).contains p.1 && nth x.outs p.1 0 != 0)

/-- Data of a completion record after its first 48 bytes (Table 7.6). -/
def decodeRest (id : Nat) (x : DecodeStream) (a : Option ReleasedAu) (flags reason : Nat) : List Nat :=
  match a with
  | none => [id, 0, flags, reason, min 255 x.backlog.length, 0, 0, 0, 0, 0, 0, 0]
  | some a =>
    let top := x.topOf a.content
    let n := (dedup ((x.framesOf a.content).map (·.2.spatialId))).length
    [id, a.ts.toNat, flags, reason, min 255 x.backlog.length, top.1, top.2, a.bytes, if reason = 0 then n else 0,
     maxN (a.content.frames.map (·.temporalId)), 0, timeRaw a.arrival]

/-- An access unit breaks (R170). -/
def State.decodeBroken (s : State) (id : Nat) (x : DecodeStream) (a : ReleasedAu) (reason : Nat) : State :=
  let all := !a.content.listParsed
  let y := { x.invalidate (fun k => all || a.content.refresh.contains k) with gapAfterBreak := true, current := none, ctrs := { x.ctrs with broken := x.ctrs.broken + 1 } }
  (s.setDecode id y).decodeEvent s.now id 0x0003 a.ts (dCode 48 8 reason)

/-- An access unit is decoded, frame after frame, at the instant t (R155, R167 to R169): after a random-access one every slot that it did not
refresh is invalid. -/
def DecodeStream.run (x0 : DecodeStream) (a : ReleasedAu) (beat t : Instant) : Decoding :=
  let c := a.content
  let x := x0.select c
  let d := (x.framesOf c).foldl (Decoding.frame a beat t) { stream := x }
  let y := d.stream
  let done := ((y.framesOf c).map (·.2.refresh)).flatten
  { d with stream := { (if c.randomAccess then y.invalidate (fun k => !done.contains k) else y) with
      context := Config.decoderContext x.cfg.codec (if c.randomAccess then 0 else x.context) a.data } }

/-- An access unit has been decoded: output pairs, counters and events (R167, R169, R174). -/
def State.decodeGood (s : State) (id : Nat) (d : Decoding) (a : ReleasedAu) : State :=
  let c := a.content
  let x := d.stream
  let conc := d.concealed
  let top := x.topOf c
  let begins := conc && !x.lastConcealed
  let ends := c.randomAccess && (x.concealing || begins)
  let ctrs := { x.ctrs with decoded := x.ctrs.decoded + 1, concealed := if conc then x.ctrs.concealed + 1 else x.ctrs.concealed }
  let y := { x with lastConcealed := conc, concealing := (x.concealing || begins) && !ends, lastRandomAccess := if c.randomAccess then s.now else x.lastRandomAccess, lastWidth := top.1, lastHeight := top.2, gapAfterBreak := false, current := none, ctrs := ctrs }
  let s1 := s.setDecode id y
  let s2 := (x.putsOut d.out).foldl (fun t p => t.writePair (nth x.outs p.1 0) p.2) s1
  let s3 := if begins then s2.decodeEvent s.now id 0x0001 a.ts 0 else s2
  if ends then s3.decodeEvent s.now id 0x0005 a.ts 0 else s3

/-- A decode task ends: what it did to the stream, and the bytes of its record after the first 48. -/
def State.decodeDone (s : State) (id : Nat) (beat : Instant) : State × List Nat :=
  match s.decode id with
  | none => (s, [id, 0, 0, 0, 0, 0, 0, 0, 0, 0, 0, 0])
  | some x0 =>
    let one := 32 * b2n x0.discardedOne
    match x0.current with
    | none => (s.setDecode id { x0 with discardedOne := false }, decodeRest id x0 none one 0)
    | some a =>
      let c := a.content
      let gap := a.gap || x0.gapAfterBreak
      let x1 := { x0 with discardedOne := false }
      let x := if gap && (x1.cfg.codec == 1 || x1.cfg.codec == 2) && !c.numbered then x1.invalidate (fun _ => true) else x1
      let reason := x.breaks c
      if reason ≠ 0 then (s.decodeBroken id x a reason, decodeRest id x (some a) (4 * b2n gap + 8 + one) reason)
      else
        let d := x.run a beat s.now
        let y := d.stream
        let top := y.topOf c
        let size := x.lastWidth != 0 && (x.lastWidth != top.1 || x.lastHeight != top.2)
        (s.decodeGood id d a,
         decodeRest id y (some a) (b2n (!(y.putsOut d.out).isEmpty) + 2 * b2n d.concealed + 4 * b2n gap + 16 * b2n c.randomAccess + one + 64 * b2n size) 0)

/-- DECODE_TASK (R163 to R171): a decode task completes. -/
def execDecodeTask (dt die inst : Nat) (haps : List Hap) (s0 : State) : Out :=
  let s := s0.advance dt
  if !s.dieUp die then .next s
  else match s.inService die inst with
    | none => .next s
    | some i =>
      match i.desc.op with
      | .decode id =>
        let (s1, rest) := (s.haps haps).onDecode id i.beat (fun t => t.decodeDone id i.beat)
        .next (s1.complete die i rest)
      | _ => .next s

/- Commands. -/

/-- Codec and profile pairs of Table 7.1. -/
def decodeProfile (codec profile : Nat) : Bool :=
  match codec with
  | 4 => profile == 66 || profile == 77 || profile == 100
  | 3 => profile == 1 || profile == 2
  | 2 => profile == 0 || profile == 2
  | 1 => profile == 0
  | _ => false

/-- Profiles that may carry 10-bit samples (Table 7.1). -/
def decodeTenBit (codec profile : Nat) : Bool := (codec == 3 && profile == 2) || (codec == 2 && profile == 2) || codec == 1

/-- Largest picture of a codec (Table 7.1). -/
def decodeLargest (codec : Nat) : Nat := if codec = 4 then 9437184 else 8912896

/-- Decode streams of a unit, and of a die. -/
def unitDecodes (s : State) (u : Nat) : List (Nat × DecodeStream) := s.video.decodes.filter (fun p => p.2.cfg.unit == u)
def dieDecodes (s : State) (d : Nat) : List (Nat × DecodeStream) := s.video.decodes.filter (fun p => objDie p.1 == d)

/-- Pixels per second that streams commit (R157). -/
def decodeCharge (l : List (Nat × DecodeStream)) : Nat := sumN (l.map (fun p => charged p.2.cfg * p.2.cfg.frameRate))

/-- The configuration that CMD_DECODE_CREATE asks for (Table 7.8). -/
def decodeCfgOf (e : Env) : DecodeCfg :=
  { unit := e.at 0, codec := e.at 1, profile := e.at 2, level := e.at 3, bitDepth := e.at 4, maxWidth := e.at 5, maxHeight := e.at 6,
    frameRate := e.at 7, spatialLayers := e.at 8, operatingPoint := e.at 9, outLayers := e.at 10, refSlots := e.at 11, auSlots := e.at 12,
    backlogLimit := e.at 13, auMax := e.at 14, reorderWait := e.at 15, deadlineOffset := e.at 16 }

/-- The grid slots that a cluster's tables bind. -/
def boundGrids (s : State) (n : Nat) : List Grid := dedup ((clusterRaws s n).map (·.grid))

/-- The rate of the grid slot that firmware takes for a stream: a bound one of suitable rate, else a new one; none where no slot is
free (R163). -/
def decodeGrid (s : State) (n frameRate : Nat) : Option Nat :=
  let gs := boundGrids s n
  match gs.findSome? (fun g => match g with | .video f => if f % frameRate = 0 then some f else none | .audio => none) with
  | some f => some f
  | none => if gs.length < 8 then some frameRate else none

/-- The phase that carries the fewest of the unit's streams of the same rate and period (R163). -/
def decodePhaseOf (s : State) (u gridRate period : Nat) : Nat :=
  let load := fun k => ((unitDecodes s u).filter (fun p => p.2.gridRate == gridRate && gridRate / max 1 p.2.cfg.frameRate == period && p.2.phase == k)).length
  (List.range period).foldl (fun best k => if load k < load best then k else best) 0

/-- The stream's identifier: the lowest free one of its die (R156, R403). -/
def decodeId (e : Env) : Nat :=
  let d := siteDie (e.at 0)
  lowestFree (e.used (fun s => s.video.decodes.keys)) (d * 2 ^ 11)

/-- Handles of the output pairs of the selected layers, from the next free index on; 0 where a layer is not written. -/
def newPairs (m : MemState) (die layers : Nat) (sel : List Nat) : List Nat :=
  (List.range 4).map (fun k =>
    match sel.findIdx? (· == k) with
    | some i => if k < layers then m.nextHandle 0x02 die i else 0
    | none => 0)

def newDecode (e : Env) : DecodeStream :=
  let cfg := decodeCfgOf e
  let die := siteDie cfg.unit
  let g := (decodeGrid e.vw (clusterNo cfg.unit) cfg.frameRate).getD cfg.frameRate
  { cfg := cfg, gridRate := g, phase := decodePhaseOf e.vw cfg.unit g (g / max 1 cfg.frameRate), streamBuffer := e.all.mem.nextHandle 0x01 die,
    refHandle := e.all.mem.nextHandle 0x03 die, params := e.all.mem.nextHandle 0x0B die, outs := newPairs e.all.mem die cfg.spatialLayers (selectedLayers cfg.spatialLayers cfg.outLayers) }

/-- Allocation of the output pairs among `outs`. -/
def allocPairs (cfg : DecodeCfg) (outs : List Nat) : List (Scope × Change) :=
  ((List.range 4).filter (fun k => nth outs k 0 != 0)).map (fun k => (.instant, .mem (.alloc (nth outs k 0) (cfg.pairBytes k) 0)))

def decodeCreateStage (e : Env) : List (Scope × Change) :=
  let x := newDecode e
  [ (.instant, .video (.decodeCreate (decodeId e) x)), (.instant, .mem (.alloc x.streamBuffer x.cfg.bufferBytes 0)),
    (.instant, .mem (.alloc x.refHandle x.cfg.refBytes 0)) ] ++ allocParams x.params 1 ++ allocPairs x.cfg x.outs

/-- The result of Table 7.9. -/
def decodeResult (id : Nat) (buffer : Nat) (outs : List Nat) : List Byte :=
  beBytes 4 id ++ beBytes 4 buffer ++ ((List.range 4).map (fun k => beBytes 4 (nth outs k 0))).flatten

def decodeCreateDef : CmdDef where
  opcode := 0x0501
  fields := [fN 4, fN 1, fN 1, fN 1, fD 1 8, fN 2, fN 2, fN 1, fD 1 1, fD 1 0, fD 1 0, fD 1 8, fD 1 8, fD 1 2, fRD 1, fD 4 262144,
             fD 4 2000000, fD 4 100000]
  zero := fun v _ => [(fv v 1 != 1 && fv v 9 != 0, 14)]
  checks := fun e =>
    let c := decodeCfgOf e
    let d := siteDie c.unit
    let rate := charged c * c.frameRate
    e.vw.siteChecks c.unit (isDec c.unit) 0 ++
    [ needsSt (decide (1 ≤ c.codec ∧ c.codec ≤ 4)) .profileUnsupported 4,
      needsSt (decide (c.level ≤ 51)) .levelExceeded 6,
      needs (decide (10 ≤ c.level)) 6,
      needs (c.bitDepth == 8 || c.bitDepth == 10) 7,
      range c.maxWidth 16 4096 8,
      range c.maxHeight 16 2304 10,
      range c.frameRate 1 120 12,
      range c.spatialLayers 1 (if c.codec = 1 then 4 else 1) 13,
      range c.operatingPoint 0 31 14,
      needs (decide (c.outLayers < 2 ^ c.spatialLayers)) 15,
      needs (decide (1 ≤ c.refSlots ∧ c.refSlots ≤ 16) && (decide (2 < c.codec) || c.refSlots == 8)) 16,
      range c.auSlots 2 64 17,
      range c.backlogLimit 1 c.auSlots 18,
      range c.auMax 4096 4194304 20,
      range c.reorderWait 0 100000000 24,
      range c.deadlineOffset 1 1000000 28,
      needsSt (decodeProfile c.codec c.profile) .profileUnsupported 5,
      needsSt (c.bitDepth == 8 || decodeTenBit c.codec c.profile) .profileUnsupported 7,
      needsSt (decide (c.maxWidth * c.maxHeight ≤ decodeLargest c.codec)) .levelExceeded 8,
      needsD (decide (rate ≤ 400000000 ∧ rate + decodeCharge (unitDecodes e.vw c.unit) ≤ 400000000)) .decodeCapacity 1,
      needsD (decide ((unitDecodes e.vw c.unit).length < 64)) .decodeCapacity 2,
      needsD (decide ((dieDecodes e.vw d).length < 2048 ∧ decodeId e < (d + 1) * 2 ^ 11)) .decodeCapacity 5,
      needsD (decodeGrid e.vw (clusterNo c.unit) c.frameRate).isSome .decodeCapacity 4,
      needsSt (decide (c.refBytes + sumN ((selectedLayers c.spatialLayers c.outLayers).map c.pairBytes) ≤ e.vw.mem.room .surfaces d 0)) .refSlotsFull 0xFFFF,
      needsD (decide (c.bufferBytes ≤ e.vw.mem.room .streams d 0)) .decodeCapacity 3 ] ++
    e.tables (decodeCreateStage e)
  effect := fun e =>
    let x := newDecode e
    { result := decodeResult (decodeId e) x.streamBuffer x.outs, stage := decodeCreateStage e }

/-- CMD_DECODE_CREATE (R156 to R158, R166, R173). -/
def execCmdDecodeCreate (r : CmdRef) (b : List Byte) (s : State) : Out := runCmd decodeCreateDef r b s

/-- A compose layer names a handle as its source or placeholder. -/
def layerNames (s : State) (h : Nat) : Bool :=
  h != 0 && s.video.outputs.any (fun o => o.2.layers.any (fun l => l.2.cfg.source == h || l.2.cfg.placeholder == h))

/-- A stream context names a buffer. -/
def streamNames (s : State) (h : Nat) : Bool := h != 0 && s.fwd.streams.any (fun p => p.2.cfg.bufferHandle == h)

def vwDecode (e : Env) : DecodeStream := (e.vw.decode (e.at 0)).getD {}

def decodeDeleteStage (e : Env) : List (Scope × Change) :=
  let x := vwDecode e
  (.instant, .video (.decodeDelete (e.at 0))) ::
    ((x.streamBuffer :: x.refHandle :: x.params :: x.outs.filter (· != 0)).map (fun h => (.instant, .mem (.free h))))

def decodeDeleteDef : CmdDef where
  opcode := 0x0502
  fields := [fN 4]
  checks := fun e =>
    let x := vwDecode e
    [ needsSt (e.vw.video.decodes.has (e.at 0)) .notFound 0,
      needs (!streamNames e.vw x.streamBuffer) 0,
      needs (!x.outs.any (layerNames e.vw)) 0 ] ++ e.tables (decodeDeleteStage e)
  effect := fun e => { stage := decodeDeleteStage e }

/-- CMD_DECODE_DELETE (R173, R403). -/
def execCmdDecodeDelete (r : CmdRef) (b : List Byte) (s : State) : Out := runCmd decodeDeleteDef r b s

/-- The output pairs after CMD_DECODE_SELECT: kept, new, or 0 (R174). -/
def selectOuts (e : Env) : List Nat :=
  let x := vwDecode e
  let sel := selectedLayers x.cfg.spatialLayers (e.at 2)
  let fresh := sel.filter (fun k => nth x.outs k 0 == 0)
  (List.range 4).map (fun k =>
    if !sel.contains k then 0
    else match fresh.findIdx? (· == k) with
      | some i => e.all.mem.nextHandle 0x02 (objDie (e.at 0)) i
      | none => nth x.outs k 0)

def decodeSelectStage (e : Env) : List (Scope × Change) :=
  let x := vwDecode e
  let outs := selectOuts e
  let gone := x.outs.filter (fun h => h != 0 && !outs.contains h)
  let new := outs.map (fun h => if x.outs.contains h then 0 else h)
  [(.instant, .video (.decodeSelect (e.at 0) (e.at 1) (e.at 2) outs))] ++ allocPairs x.cfg new ++
    gone.map (fun h => (.instant, .mem (.free h)))

def decodeSelectDef : CmdDef where
  opcode := 0x0503
  fields := [fN 4, fN 1, fN 1, fR 2]
  checks := fun e =>
    let x := vwDecode e
    let outs := selectOuts e
    let new := (List.range 4).filter (fun k => nth outs k 0 != 0 && nth x.outs k 0 == 0)
    [ needsSt (e.vw.video.decodes.has (e.at 0)) .notFound 0,
      needsSt (x.cfg.codec == 1 || e.at 1 == 0) .reservedNonzero 4,
      range (e.at 1) 0 31 4,
      needs (decide (e.at 2 < 2 ^ x.cfg.spatialLayers)) 5,
      needs (!(x.outs.filter (fun h => !outs.contains h)).any (layerNames e.vw)) 5,
      needsSt (decide (sumN (new.map x.cfg.pairBytes) ≤ e.vw.mem.room .surfaces (objDie (e.at 0)) 0)) .refSlotsFull 0xFFFF ] ++
    e.tables (decodeSelectStage e)
  effect := fun e => { result := decodeResult (e.at 0) (vwDecode e).streamBuffer (selectOuts e), stage := decodeSelectStage e }

/-- CMD_DECODE_SELECT (R174). -/
def execCmdDecodeSelect (r : CmdRef) (b : List Byte) (s : State) : Out := runCmd decodeSelectDef r b s

def decodeResyncDef : CmdDef where
  opcode := 0x0504
  fields := [fN 4]
  checks := fun e => [ needsSt (e.vw.video.decodes.has (e.at 0)) .notFound 0 ]
  effect := fun e => { stage := [(.instant, .video (.decodeResync (e.at 0)))] }

/-- CMD_DECODE_RESYNC (R175). -/
def execCmdDecodeResync (r : CmdRef) (b : List Byte) (s : State) : Out := runCmd decodeResyncDef r b s

/-- The result of Table 7.10. -/
def decodeStatus (x : DecodeStream) : List Byte :=
  let c := x.ctrs
  beBytes 1 (min 255 (x.backlog.length + b2n x.current.isSome)) ++ beBytes 1 (min 255 (x.held.filter (·.complete)).length) ++
  beBytes 1 (b2n x.concealing) ++ zeros 5 ++
  (([c.released, c.decoded, c.abandoned, c.broken, c.bufferFull, c.oversize, c.late, c.discarded, c.concealed, c.expired].map
    (fun k => beBytes 8 k.toNat)).flatten) ++ timeBytes x.lastRandomAccess

def decodeStatusDef : CmdDef where
  opcode := 0x0505
  reads := true
  fields := [fN 4]
  checks := fun e => [ needsSt (e.vw.video.decodes.has (e.at 0)) .notFound 0 ]
  effect := fun e => { result := decodeStatus ((e.s.decode (e.at 0)).getD (vwDecode e)) }

/-- CMD_DECODE_STATUS (Table 7.10). -/
def execCmdDecodeStatus (r : CmdRef) (b : List Byte) (s : State) : Out := runCmd decodeStatusDef r b s

def decodeLoadDef : CmdDef where
  opcode := 0x0506
  reads := true
  fields := [fN 4]
  checks := fun e => e.vw.siteChecks (e.at 0) (isDec (e.at 0) || isMediaDie (e.at 0)) 0
  effect := fun e =>
    let d := siteDie (e.at 0)
    let l := if isDec (e.at 0) then unitDecodes e.vw (e.at 0) else dieDecodes e.vw d
    let free := fun k => if isDec (e.at 0) then 0 else e.vw.mem.room k d 0
    { result := beBytes 8 (decodeCharge l) ++ beBytes 2 l.length ++ zeros 2 ++ beBytes 8 (free .surfaces) ++ beBytes 8 (free .streams) }

/-- CMD_DECODE_LOAD (R157). -/
def execCmdDecodeLoad (r : CmdRef) (b : List Byte) (s : State) : Out := runCmd decodeLoadDef r b s

end Sys2Proof.Machine
end

