-- ==== Sys2Proof/Machine/PacketOps.lean ====
section
/-! DEFINITION. How a packet is judged, delivered, rewritten and copied to targets, and how a bitstream is packetised (04 to 06).
Corners of forwarding: DEDUCED, the 90 kHz clock PRESUMED (log entry 26). -/

namespace Sys2Proof.Machine

/-- Source of a package's forwarding events (R111). -/
def fwdSource (pkg : Nat) : Nat := 64 + pkg

/-- Data of the events that name a context and a sequence (Table 4.13). -/
def ctxSeqData (ctx : Nat) (seq : W16) : Nat := dCode 100 20 ctx + dCode 84 16 seq.toNat

/- Layer information (Table 4.2, R91, R93). -/

/-- The descriptor of a packet of context x, and a structure that it carries. -/
def depOf (r : RtpPkt) (x : Stream) : Option (DepDesc × Option TemplateStruct) :=
  if x.cfg.ddExtId = 0 then none
  else (r.element x.cfg.ddExtId).map (fun v => ddOf v ((x.structure_.map (·.targets)).getD 0))

/-- What a format's own headers say of a packet in clear (Table 4.2). -/
def formatLayers (r : RtpPkt) (x : Stream) : Layers :=
  let newTs := x.prevTs != some r.ts
  match x.cfg.payloadFormat with
  | 2 =>
    let v := vp9Of r.body
    { spatial := if v.l then v.sid else 0, temporal := if v.l then v.tid else 0, frameStart := v.b, frameEnd := v.e, switchS := !v.p, switchT := v.u }
  | 3 =>
    let h := hevcOf r.body
    let irap := decide (16 ≤ h.type ∧ h.type ≤ 21)
    { spatial := h.layerId, temporal := h.tidPlus1 - 1, frameStart := newTs, frameEnd := r.m, switchS := irap, switchT := irap || decide (2 ≤ h.type ∧ h.type ≤ 5) }
  | _ => { byTime := true, frameStart := newTs }

/-- What the layer selector finds in a packet of context x. A descriptor gives every format its decode target indications, and AV1 its layers
and its frames; a context with dd_ext_id 0 reads none. AV1 without one, and any format of a context with a dd_ext_id whose packet has none,
has its descriptor missing (R91). -/
def rtpLayers (r : RtpPkt) (x : Stream) : Layers :=
  let base := formatLayers r x
  match depOf r x with
  | none => { base with unknown := if x.cfg.payloadFormat = 1 ∨ x.cfg.ddExtId ≠ 0 then 1 else 0 }
  | some (d, carried) =>
    let st := match carried with | some t => some t | none => x.structure_
    let found := st.bind (fun t => t.templates.find? (fun q => q.id == d.template))
    let own := if x.cfg.payloadFormat = 1 then { base with byTime := false, frameStart := d.frameStart, frameEnd := d.frameEnd } else base
    match found with
    | none => { own with unknown := 2, template := d.template, newStruct := carried.isSome }
    | some q =>
      let l := { own with dti := some (d.dti.getD q.dti), newStruct := carried.isSome, template := d.template }
      if x.cfg.payloadFormat = 1 then { l with spatial := q.spatial, temporal := q.temporal } else l

/-- A structure that a packet of context x carries (R91). -/
def rtpStruct (r : RtpPkt) (x : Stream) : Option TemplateStruct := (depOf r x).bind (·.2)

/-- AV1 with a dependency descriptor. -/
def rtpIsDep (r : RtpPkt) (x : Stream) : Bool := x.cfg.payloadFormat == 1 && (depOf r x).isSome

/-- What of a packet the rewriter needs for its copies: the packet in clear, and what the selector found. -/
structure FwdPkt where
  rtp : RtpPkt
  arrival : Instant
  layers : Layers := {}
  av1 : Bool := false
deriving DecidableEq, Repr, Inhabited

def FwdPkt.seq (p : FwdPkt) : W16 := p.rtp.seq

/-- The forwarding facts of a packet in clear of context x. -/
def rtpFwd (r : RtpPkt) (x : Stream) (arrival : Instant) : FwdPkt :=
  { rtp := r, arrival := arrival, layers := rtpLayers r x, av1 := rtpIsDep r x }

/-- Bytes that a key context adds to a packet: MKI and tag. -/
def State.protectLen (s : State) (key : Nat) : Nat :=
  match s.key key with
  | some k => k.growth
  | none => 0

/- One target (R91 to R98). -/

/-- M of a copy (R94): with marker_fixup, 1 on the end of the frame of the highest spatial layer that the selection admits; on the other
packets as received, but never 1 on a packet below that layer. -/
def markerOf (c : TargetCfg) (st : Option TemplateStruct) (l : Layers) (m : Bool) : Bool :=
  if !c.markerFixup then m
  else match c.sel.top st with
    | none => m
    | some top => if l.frameEnd && l.spatial == top then true else m && l.spatial == top

/-- A copy for a target: what the rewriter writes (Table 4.3), its length, and whether rt_skipped counts. -/
def State.makeCopy (s : State) (ctx num : Nat) (x : Stream) (t : Target) (p : FwdPkt) : Copy × Bool :=
  let c := t.cfg
  let out := t.outSeq p.seq
  let r := { p.rtp with seq := out, ts := p.rtp.ts + c.tsOffset, m := markerOf c x.structure_ p.layers p.rtp.m, ssrc := c.ssrcOut,
                        pt := if c.ptOut = 0xFF then p.rtp.pt else c.ptOut }
  let base := frameOverhead c.family + r.header.length + r.body.length + s.protectLen c.keyCtx
  let ingress := if x.cfg.rtExtIdIn = 0 then none else (r.element x.cfg.rtExtIdIn).map beNat
  let (grow, rt, skipped) := rtElement x.cfg.rtExtIdIn c r.form r.extPad ingress base (s.mtu c.port)
  let index := (rtpIndex t.outHigh out.toNat).getD out.toNat
  ({ len := base + grow, enq := s.now, arrival := p.arrival, dstUdp := c.dstUdpPort, dstAddr := c.dstAddress, srcUdp := c.srcUdpPort,
     srcAddr := s.routable c.port c.family, dscp := c.dscp,
     payload := .media { ctx := ctx, target := num, rtp := r, keyCtx := c.keyCtx, prot := s.key c.keyCtx, srtpIndex := index, rt := rt,
                         rtOld := x.cfg.rtExtIdIn,
                         net := s.netHdr c.port c.family (s.routable c.port c.family) c.dstAddress c.srcUdpPort c.dstUdpPort c.dscp 0 } },
   skipped)

def State.modTarget (s : State) (ctx num : Nat) (f : Target → Target) : State := s.modStream ctx (fun x => x.modTarget num f)

/-- The copy is sent: the SRTP index advances. -/
def Target.sentIndex (t : Target) (i : Nat) : Target := { t with outHigh := some (match t.outHigh with | some h => max h i | none => i) }

def copyIndex (c : Copy) : Nat := match c.payload with | .media h => h.srtpIndex | _ => 0

/-- A copy that is dropped for a target is counted in D (R96). -/
def State.dropFor (s : State) (ctx num : Nat) (seq : W16) : State := s.modTarget ctx num (fun t => t.pass seq true)

/-- What the layer selector decides for a target (R91 to R93): the state with the target's selection settled, and whether the packet is
forwarded to it. LAYER_ABSENT is raised once for each structure. -/
def State.selectFor (s : State) (ctx num : Nat) (p : FwdPkt) : State × Bool :=
  match s.stream ctx with
  | none => (s, false)
  | some x =>
    match x.targets.find num with
    | none => (s, false)
    | some t0 =>
      let t := (t0.begin_ p.seq).settle p.layers p.av1 x.structure_
      let (fw, absent) := t.cfg.sel.forwards p.layers x.cfg.missingLayerAction x.structure_
      let tell := absent && !t.absentRaised
      let s1 := s.modTarget ctx num (fun _ => { t with absentRaised := t.absentRaised || absent })
      let s2 := s1.raiseIf tell (fwdSource (ctxPkg ctx)) 0x0006
        (dCode 100 20 ctx + dCode 84 16 num + dCode 76 8 t.cfg.sel.decodeTarget) (ctxPkg ctx)
      if fw then (s2, true)
      else ((s2.dropFor ctx num p.seq).countStream ctx (fun c => { c with layerDrops := c.layerDrops + 1 }), false)

/-- An egress key use (R116): plain targets need none. -/
def State.grantOut (s : State) (key : Nat) : State × Bool := if key = 0 then (s, true) else s.grant key false

/-- A copy that left or was queued: its sequence and its SRTP index are taken (R96), and it is counted. -/
def State.sentFor (s : State) (ctx num : Nat) (seq : W16) (c : Copy) : State :=
  (s.modTarget ctx num (fun t => (t.pass seq false).sentIndex (copyIndex c))).countStream ctx (fun c => { c with copies := c.copies + 1 })

/-- The packet cluster that serves a context (R82): by the hash of its lookup key, or by its index where a unit of the module feeds it. -/
def clusterOfStream (ctx : Nat) (c : StreamCfg) : Nat :=
  if c.sourceKind = 0 then clusterOf c.port c.family c.dstAddress c.dstUdpPort c.ssrc else ctx % 8

/-- The class of a context's messages: urgent where its payload_format is 5 to 8 (R126). -/
def StreamCfg.work (c : StreamCfg) : WorkKind := if 5 ≤ c.payloadFormat ∧ c.payloadFormat ≤ 8 then .urgent else .packet

/-- A message of a context becomes ready at a standard unit of its cluster (R112, R126). -/
def State.streamWork (s : State) (ctx : Nat) (c : StreamCfg) (m : CryptoMsg) : State :=
  s.standardWork (ctxPkg ctx) (clusterOfStream ctx c) { m with work := c.work }

/-- The message that protects a copy: its payload under the header as it stands when the copy is made. -/
def Copy.message (c : Copy) : Option CryptoMsg :=
  match c.payload with
  | .media h => h.prot.map (fun k => k.srtpMsg h.srtpIndex h.rtp.header h.rtp.body false)
  | _ => none

/-- The message of a copy becomes ready. -/
def State.copyWork (s : State) (ctx : Nat) (c : StreamCfg) (copy : Copy) : State :=
  match copy.message with
  | some m => s.streamWork ctx c m
  | none => s

/-- The copy of a target for a packet, and the state after its residence-time element was settled (R98). -/
def State.copyFor (s : State) (ctx num : Nat) (x : Stream) (t : Target) (p : FwdPkt) : State × Copy :=
  let (copy, skipped) := s.makeCopy ctx num x t p
  (if skipped then s.countStream ctx (fun c => { c with rtSkipped := c.rtSkipped + 1 }) else s, copy)

/-- A copy's key use is granted, and it enters its leg queue, where `hold` keeps it until a tag verdict (R105, R116, R139). A copy to the other
package's port crosses the link (R342). -/
def State.queueFor (s : State) (ctx num : Nat) (p : FwdPkt) (hold : Option Nat) : State × Bool :=
  match s.stream ctx with
  | none => (s, false)
  | some x =>
    match x.targets.find num with
    | none => (s, false)
    | some t =>
      if !s.linked (ctxPkg ctx) t.cfg.port then (s, false)
      else
      let (s1, ok) := s.grantOut t.cfg.keyCtx
      if !ok then ((s1.dropFor ctx num p.seq).countStream ctx (fun c => { c with keySpent := c.keySpent + 1 }), false)
      else
        let (s2, copy) := s1.copyFor ctx num x t p
        let (s3, queued) := (s2.copyWork ctx x.cfg copy).enqueue t.cfg.leg { copy with hold := hold }
        if queued then (s3.sentFor ctx num p.seq copy, true) else (s3.dropFor ctx num p.seq, false)

/-- One target of a packet on the standard path. -/
def State.forwardOne (p : FwdPkt) (ctx : Nat) (s0 : State) (num : Nat) : State :=
  let (s, fw) := s0.selectFor ctx num p
  if fw then (s.queueFor ctx num p none).1 else s

/-- Copies to every target, in ascending target number. A context that only delivers makes none (Table 4.8). -/
def State.forward (s : State) (ctx : Nat) (p : FwdPkt) : State :=
  match s.stream ctx with
  | none => s
  | some x =>
    if x.cfg.sourceKind = 0 ∧ x.cfg.delivery = 1 then s else x.targets.keys.foldl (State.forwardOne p ctx) s

/- Ingress checks (R102, R116, R122, R142 to R144). -/

/-- Arrival of a packet of a context is counted (Table 4.11). -/
def State.countArrival (s : State) (ctx len : Nat) : State :=
  s.countStream ctx (fun c => { c with packetsIn := c.packetsIn + 1, bytesIn := c.bytesIn + BitVec.ofNat 64 len, lastArrival := s.now })

/-- The meter of R143: colour 0 green, 1 yellow, 2 red, and the policer after it. -/
def Policer.meter (p : Policer) (pre len : Nat) (t : Instant) : Nat × Policer :=
  let q := p.at t
  let b := ubit len
  let pre := if p.cfg.mode % 2 = 0 then 0 else pre
  if p.cfg.mode < 2 then
    if b ≤ q.c ∧ pre = 0 then (0, { q with c := q.c - b, green := q.green + 1 })
    else if b ≤ q.e ∧ pre ≠ 2 then (1, { q with e := q.e - b, yellow := q.yellow + 1 })
    else (2, { q with red := q.red + 1 })
  else
    if pre = 2 ∨ q.e < b then (2, { q with red := q.red + 1 })
    else if pre = 1 ∨ q.c < b then (1, { q with e := q.e - b, yellow := q.yellow + 1 })
    else (0, { q with e := q.e - b, c := q.c - b, green := q.green + 1 })

/-- POLICER_RED of a policer (R152). -/
def State.policerRed (s : State) (id pkg : Nat) : State :=
  match s.egress.policers.find id with
  | none => s
  | some q =>
    let (fire, lim) := q.redEvent.hit s.now (sec 1)
    let s1 := { s with egress := { s.egress with policers := s.egress.policers.put id { q with redEvent := lim } } }
    match fire with
    | some n => s1.raise (76 + pkg) 0x0004 (dCode 88 32 id + dBits 56 32 n) pkg
    | none => s1

/-- Policing of a packet (R142 to R144): the state, and whether the packet is dropped. -/
def State.police (s : State) (ctx : Nat) (x : Stream) (ipLen dscp : Nat) : State × Bool :=
  match s.egress.policers.find x.cfg.policer with
  | none => (s, false)
  | some q =>
    let colours := if ctxPkg ctx = 0 then s.egress.colour0 else s.egress.colour1
    let (col, q1) := q.meter (colours.getD dscp 0) ipLen s.now
    let s1 := { s with egress := { s.egress with policers := s.egress.policers.put x.cfg.policer q1 } }
    let drop := col == 2 || (col == 1 && q.cfg.yellowDrop)
    let s2 := if col = 2 then s1.policerRed x.cfg.policer (ctxPkg ctx) else s1
    if drop then (s2.countStream ctx (fun c => { c with policed := c.policed + 1 }), true) else (s2, false)

/-- The MKI that a packet carries when it is protected under k: `body` is what follows its RTP header. -/
def mkiIn (body : List Byte) (k : KeyCtx) : Nat := beNat (k.srtpCut body).2.1

/-- The key context that a packet's MKI names (R122): the current one where it has no MKI. -/
def State.namedKey (s : State) (x : Stream) (body : List Byte) : Option Nat :=
  match s.key x.cfg.keyCtx with
  | none => some x.cfg.keyCtx
  | some cur =>
    if cur.mkiLength = 0 then some x.cfg.keyCtx
    else
      let hit := fun id => id != 0 && (match s.key id with | some k => k.mkiLength != 0 && mkiIn body k == k.mki | none => false)
      ([x.cfg.keyCtx, cur.nextCtx, x.prevKey]).find? hit

/-- The MKI of a packet as the current key context places it, for MKI_UNKNOWN. -/
def State.mkiOf (s : State) (x : Stream) (body : List Byte) : Nat := match s.key x.cfg.keyCtx with | some k => mkiIn body k | none => 0

/-- The link that a current key context rolls along. -/
def State.nextKey (s : State) (x : Stream) : Nat := match s.key x.cfg.keyCtx with | some k => k.nextCtx | none => 0

/-- A packet's MKI matches none of the three contexts (R122): n is added to auth_fail. -/
def State.mkiUnknown (s : State) (ctx key mki n : Nat) : State :=
  match s.stream ctx with
  | none => s
  | some x =>
    let (fire, lim) := x.mkiEvent.hit s.now (sec 1)
    let s1 := (s.modStream ctx (fun y => { y with mkiEvent := lim })).countStream ctx (fun c => { c with authFail := c.authFail + BitVec.ofNat 64 n })
    match fire with
    | some _ => s1.raise 75 0x0003 (dCode 88 32 key + dCode 68 20 ctx + dCode 36 32 mki) (ctxPkg ctx)
    | none => s1

/-- The tag of a packet verifies under a key context, at an index (R101, R102). -/
def State.verifies (s : State) (key i : Nat) (header body : List Byte) : Bool :=
  match s.key key with
  | some k => k.srtpVerifies i header body
  | none => false

/-- AUTH_FAIL (R101): counted by n, reported at most once a second with the copies discarded. -/
def State.authFailed (s : State) (ctx : Nat) (seq : W16) (n copies : Nat) : State :=
  match s.stream ctx with
  | none => s
  | some x =>
    let (fire, lim) := x.authEvent.hit s.now (sec 1)
    let s1 := (s.modStream ctx (fun y => { y with authEvent := lim })).countStream ctx (fun c => { c with authFail := c.authFail + BitVec.ofNat 64 n })
    match fire with
    | some _ => s1.raise (fwdSource (ctxPkg ctx)) 0x0002 (ctxSeqData ctx seq + dBits 72 8 copies) (ctxPkg ctx)
    | none => s1

/-- Header-time checks of a packet (R102, R144): replay and policing. Answers the packet's index when it passes; its mark is then
provisional. -/
def State.letIn (s : State) (ctx : Nat) (seq : W16) (ipLen dscp : Nat) : State × Option Nat :=
  match s.stream ctx with
  | none => (s, none)
  | some x =>
    match rtpIndex x.highIndex seq.toNat with
    | none => (s.countStream ctx (fun c => { c with replay := c.replay + 1 }), none)
    | some i =>
      if x.replayed i then (s.countStream ctx (fun c => { c with replay := c.replay + 1 }), none)
      else
        let (s1, dropped) := (s.modStream ctx (fun y => y.mark i)).police ctx x ipLen dscp
        if dropped then (s1.modStream ctx (fun y => y.unmark i), none) else (s1, some i)

/-- A context has seen a packet that passed its ingress checks: highest sequence, stored structure, time-stamp; what the layer selector
could not place is counted and an unknown template reported (R91, R96). -/
def State.seenPacket (s : State) (ctx : Nat) (seq : W16) (ts : W32) (struct : Option TemplateStruct) (l : Layers) : State :=
  let s1 := s.modStream ctx (fun x =>
    let hs := match x.highSeq with | some h => if seqAfter seq h then seq else h | none => seq
    let ts' := x.targets.mapVals (fun _ t => if struct.isSome then { t with absentRaised := false } else t)
    { x with highSeq := some hs, prevTs := some ts, structure_ := (match struct with | some t => some t | none => x.structure_), targets := ts' })
  let s2 := if l.unknown ≠ 0 then s1.countStream ctx (fun c => { c with missingLayer := c.missingLayer + 1 }) else s1
  s2.raiseIf (l.unknown == 2) (fwdSource (ctxPkg ctx)) 0x0005 (ctxSeqData ctx seq + dCode 78 6 l.template) (ctxPkg ctx)

/-- A payload is delivered to its media die with its ingress arrival stamp (R99). A delivery to a fenced die is dropped and counted as
buffer_full (R371). -/
def State.deliver (s : State) (x : StreamCfg) (p : Delivered) (arrival : Instant) : State :=
  if x.delivery = 0 ∨ x.sourceKind ≠ 0 ∨ s.linked x.port (pkgOfDie x.die) = false then s
  else
    let h := x.bufferHandle
    match s.video.decodes.find? (fun q => q.2.streamBuffer == h) with
    | some (id, _) =>
      if !s.dieUp x.die then
        { s with video := { s.video with decodes := s.video.decodes.modify id (fun y => { y with ctrs := { y.ctrs with bufferFull := y.ctrs.bufferFull + 1 } }) } }
      else s.auPacket id p arrival
    | none =>
      match s.audio.legs.find? (fun q => q.2.jitterBuffer == h) with
      | some (id, _) => if !s.dieUp x.die then s else s.jbPlace id p arrival
      | none => s

/- Die-sourced contexts (R82, R100). -/

/-- RTP header bytes of a packet that the module makes. -/
def rtpHeader : Nat := 12

/-- Number a list's items, with a mark on the first and on the last. -/
def markEnds {α : Type} (l : List α) : List (α × Bool × Bool) :=
  ((List.range l.length).zip l).map (fun p => (p.2, p.1 == 0, p.1 + 1 == l.length))

/-- Payloads of an H.264 NAL unit (RFC 6184): itself, or FU-A units of at most n bytes. -/
def h264Packets (n : Nat) (u : List Byte) : List (List Byte) :=
  if u.length ≤ n then [u]
  else
    let h := fieldAt u 0 1
    (markEnds (chunks (n - 2) u.length u.tail)).map (fun p => beBytes 1 (h / 32 * 32 + 28) ++ beBytes 1 (128 * b2n p.2.1 + 64 * b2n p.2.2 + h % 32) ++ p.1)

/-- Payloads of an HEVC NAL unit (RFC 7798): itself, or fragmentation units of at most n bytes. -/
def hevcPackets (n : Nat) (u : List Byte) : List (List Byte) :=
  if u.length ≤ n then [u]
  else
    let h := fieldAt u 0 2
    let type := h / 512 % 64
    (markEnds (chunks (n - 3) u.length (u.drop 2))).map (fun p =>
      beBytes 2 (h / 2 ^ 15 * 2 ^ 15 + 49 * 512 + h % 512) ++ beBytes 1 (128 * b2n p.2.1 + 64 * b2n p.2.2 + type) ++ p.1)

/-- Payloads of an AV1 OBU: one element a packet under an aggregation header with W = 1, of at most n bytes; `fresh` sets N on the first packet of a
coded video sequence. -/
def av1Packets (n : Nat) (fresh : Bool) (u : List Byte) : List (List Byte) :=
  (markEnds (chunks (n - 1) u.length u)).map (fun p =>
    beBytes 1 (128 * b2n (!p.2.1) + 64 * b2n (!p.2.2) + 16 + 8 * b2n (fresh && p.2.1)) ++ p.1)

/-- The payloads of a video frame under a payload format (R100), each at most n bytes: `units` are its OBUs or NAL units. -/
def videoPackets (format n : Nat) (key : Bool) (units : List (List Byte)) : List (List Byte) :=
  match format with
  | 1 => (((List.range units.length).zip units).map (fun p => av1Packets n (key && p.1 == 0) p.2)).flatten
  | 3 => (units.map (hevcPackets n)).flatten
  | 4 => (units.map (h264Packets n)).flatten
  | _ => (units.map (fun u => chunks n u.length u)).flatten

/-- One packet of a die-sourced context: sequence, header and copies. `key` marks a frame of the unit's own that is a random-access point. -/
def State.emitPacket (ctx : Nat) (ts : W32) (key : Bool) (s : State) (p : List Byte × Bool) : State :=
  match s.stream ctx with
  | none => s
  | some x =>
    if !s.linked (pkgOfDie x.cfg.die) (ctxPkg ctx) then s
    else
    let seq := x.nextSeq
    let r : RtpPkt := { m := p.2, pt := x.cfg.pt, seq := seq, ts := ts, ssrc := x.cfg.ssrc, body := p.1 }
    let f0 := rtpFwd r x s.now
    let l := { f0.layers with switchS := f0.layers.switchS || key, switchT := f0.layers.switchT || key }
    let s1 := (s.modStream ctx (fun y => { y with nextSeq := seq + 1, sentAny := true, dtxGap := false })).countArrival ctx (frameOverhead 4 + rtpHeader + p.1.length)
    (s1.seenPacket ctx seq ts none l).forward ctx { f0 with layers := l }

/-- The die-sourced contexts that carry a bitstream buffer, in ascending order. -/
def State.contextsOf (s : State) (buffer : Nat) : List (Nat × Stream) :=
  s.fwd.streams.filter (fun p => p.2.cfg.sourceKind == 1 && p.2.cfg.bufferHandle == buffer)

/-- A video frame is packetised (R100): no payload is longer than max_payload, and M = 1 on the last packet. -/
def State.sendVideo (s : State) (buffer : Nat) (units : List (List Byte)) (key : Bool) (ts : W32) : State :=
  (s.contextsOf buffer).foldl (fun t p =>
    let c := p.2.cfg
    let l := videoPackets c.payloadFormat c.maxPayload key units
    ((markEnds l).map (fun q => (q.1, q.2.2))).foldl (State.emitPacket p.1 ts key) t) s

/-- An audio frame is packetised as one packet (R100, R238): M = 1 on the first packet and on the first after a gap. -/
def State.sendAudio (s : State) (buffer : Nat) (data : List Byte) (ts : W32) : State :=
  (s.contextsOf buffer).foldl (fun t p => State.emitPacket p.1 ts false t (data.take p.2.cfg.maxPayload, !p.2.sentAny || p.2.dtxGap)) s

/-- A frame is not sent: discontinuous transmission (R238). -/
def State.skipAudio (s : State) (buffer : Nat) : State :=
  (s.contextsOf buffer).foldl (fun t p => t.modStream p.1 (fun x => { x with dtxGap := true })) s

end Sys2Proof.Machine
end

