-- ==== Sys2Proof/Machine/VideoCompose.lean ====
section
/-! DEFINITION. Composition: scaling, blending, guarded regions, and the commands of the range 0x06xx (08_composition.md).
Corners of composition: DEDUCED (log entry 32). -/

namespace Sys2Proof.Machine

/- Sources (R178, R184). -/

/-- What a layer reads: size, depth, and the samples of planes 0 (luma) to 2. -/
structure Src where
  w : Nat
  h : Nat
  depth : Nat := 8
  sample : Nat → Nat → Nat → Nat

def Picture.src (p : Picture) : Src := { w := p.w, h := p.h, depth := p.depth, sample := p.sample }

/-- Component k (0 A, 1 Y, 2 Cb, 3 Cr) of pixel (x, y) of a graphic buffer. -/
def pixelOf (g : Graphic) (buf : Tab Byte) (x y k : Nat) : Nat := (buf.getD (4 * (y * g.w + x) + k) 0).toNat

/-- The rounded mean of component k over the 2 × 2 pixels of chroma sample (x, y) (R184). -/
def chromaOf (g : Graphic) (buf : Tab Byte) (x y k : Nat) : Nat :=
  (pixelOf g buf (2 * x) (2 * y) k + pixelOf g buf (2 * x + 1) (2 * y) k + pixelOf g buf (2 * x) (2 * y + 1) k +
    pixelOf g buf (2 * x + 1) (2 * y + 1) k + 2) / 4

/-- Sample of a plane of a graphic buffer, its chroma reduced. -/
def graphicSample (g : Graphic) (buf : Tab Byte) (plane x y : Nat) : Nat :=
  if plane = 0 then pixelOf g buf x y 1 else chromaOf g buf x y (plane + 1)

/-- Alpha of a plane's sample of a graphic buffer. -/
def graphicAlpha (g : Graphic) (buf : Tab Byte) (plane x y : Nat) : Nat :=
  if plane = 0 then pixelOf g buf x y 0 else chromaOf g buf x y 0

def graphicSrc (g : Graphic) (buf : Tab Byte) : Src := { w := g.w, h := g.h, sample := graphicSample g buf }

/- Scaling (R185 to R188). -/

/-- A phase of filter set 0: bilinear (R186). -/
def bilinear (p : Nat) : FilterPhase :=
  { h := [0, 0, 0, 256 - 4 * p, 4 * p, 0, 0, 0], v := [0, 0, 256 - 4 * p, 4 * p, 0, 0] }

/-- Phase p of a set of a die. -/
def State.filterPhase (s : State) (die set p : Nat) : FilterPhase :=
  if set = 0 then bilinear p else s.video.filters.getD ((die * 16 + set) * 64 + p) { h := [], v := [] }

/-- One axis of a scaling: crop start and length, destination length, and the last coordinate that may be read. -/
structure Axis where
  start : Nat
  len : Nat
  dst : Nat
  last : Nat
deriving DecidableEq, Repr, Inhabited

def Axis.step (a : Axis) : Nat := a.len * 65536 / a.dst
/-- The axis bypasses its filter (R185). -/
def Axis.bypass (a : Axis) : Bool := a.step == 65536
def Axis.pos (a : Axis) (n : Nat) : Int := (a.start * 65536 + n * a.step + a.step / 2 : Nat) - (32768 : Int)
def Axis.ipos (a : Axis) (n : Nat) : Int := a.pos n / 65536
def Axis.phase (a : Axis) (n : Nat) : Nat := (a.pos n / 1024 % 64).toNat
/-- A tap outside the crop reads the nearest sample inside it. -/
def Axis.tap (a : Axis) (i : Int) : Nat := (clampI a.start a.last i).toNat

/-- The horizontal pass at destination column n and source row r, in units of 1/16 of an 8-bit step (R187). -/
def hPass (s : Src) (f : Nat → FilterPhase) (a : Axis) (plane n r : Nat) : Int :=
  if a.bypass then (s.sample plane (a.tap (a.start + n : Nat)) r : Int) * (if s.depth = 8 then 16 else 4)
  else
    let c := (f (a.phase n)).h
    let sum := sumI ((List.range 8).map (fun i => nth c i 0 * (s.sample plane (a.tap (a.ipos n + i - 3)) r : Int)))
    satI 16 (if s.depth = 8 then (sum + 8) / 16 else (sum + 32) / 64)

/-- One scaled sample (R187). -/
def scaleSample (s : Src) (f : Nat → FilterPhase) (ax ay : Axis) (plane n m : Nat) : Nat :=
  let out := if ay.bypass then (hPass s f ax plane n (ay.start + m) + 8) / 16
    else
      let c := (f (ay.phase m)).v
      (sumI ((List.range 6).map (fun j => nth c j 0 * hPass s f ax plane n (ay.tap (ay.ipos m + j - 2)))) + 2048) / 4096
  (clampI 0 255 out).toNat

/-- The scaler's line buffer holds 4,096 luma samples (R188). -/
def lineBuffer : Nat := 4096

/-- The axes of a plane of a layer's scaling: luma coordinates, halved for chroma (R185). A crop wider than the line buffer that is
scaled vertically is read up to its 4,096th column (R188). -/
def cropAxes (cropX cropY cropW cropH dstW dstH plane : Nat) : Axis × Axis :=
  let k := if plane = 0 then 1 else 2
  let wide := if lineBuffer < cropW ∧ cropH ≠ dstH then lineBuffer else cropW
  ({ start := cropX / k, len := cropW / k, dst := dstW / k, last := cropX / k + wide / k - 1 },
   { start := cropY / k, len := cropH / k, dst := dstH / k, last := cropY / k + cropH / k - 1 })

/- Blending (R183). -/

/-- Blend src over dst with an 8-bit alpha. -/
def blend (a8 src dst : Nat) : Nat :=
  let a := a8 + a8 / 128
  (a * src + (256 - a) * dst + 128) / 256

/-- What a layer draws at a composition (R181). -/
inductive Drawn where
  | picture (p : PairPic)
  | graphic (h : Nat)
  | placeholder
deriving DecidableEq, Repr, Inhabited

/-- The composer's tools for one frame: the state, the die of its filter sets, the beat, and source words taken as zero (R322). -/
structure Ctx where
  s : State
  die : Nat
  beat : Instant
  /-- Layer, plane and sample index of each poisoned word. -/
  poison : List (Nat × Nat × Nat) := []
deriving Inhabited

/-- A source with its poisoned words as zero. -/
def Ctx.guard (c : Ctx) (layer : Nat) (x : Src) : Src :=
  { x with sample := fun p i j =>
      let w := if p = 0 then x.w else ceilDiv x.w 2
      if c.poison.contains (layer, p, j * w + i) then 0 else x.sample p i j }

/-- A sample's place within a rectangle of a plane: none outside it. -/
def inRect (x y rx ry rw rh plane : Nat) : Option (Nat × Nat) :=
  let k := if plane = 0 then 1 else 2
  if rx / k ≤ x ∧ x < rx / k + rw / k ∧ ry / k ≤ y ∧ y < ry / k + rh / k then some (x - rx / k, y - ry / k) else none

/-- The colour of a plane. -/
def colour (y cb cr plane : Nat) : Nat := match plane with | 0 => y | 1 => cb | _ => cr

/-- What a layer puts at sample (x, y) of a plane: its alpha and its sample; none outside its destination (R181, R183, R184). -/
def layerAt (c : Ctx) (n : Nat) (l : LayerCfg) (d : Drawn) (plane x y : Nat) : Option (Nat × Nat) :=
  let dw := if l.kind = 1 then l.cropW else l.dstW
  let dh := if l.kind = 1 then l.cropH else l.dstH
  match inRect x y l.dstX l.dstY dw dh plane with
  | none => none
  | some (i, j) =>
    let k := if plane = 0 then 1 else 2
    match d with
    | .picture p =>
      let ax := cropAxes l.cropX l.cropY l.cropW l.cropH l.dstW l.dstH plane
      some (l.alpha, scaleSample (c.guard n p.pic.src) (c.s.filterPhase c.die l.filterSet) ax.1 ax.2 plane i j)
    | .graphic h =>
      let g := (c.s.graphicAt h c.beat).getD {}
      let buf := g.frontAt c.beat
      if l.kind = 1 then
        let a := graphicAlpha g buf plane (l.cropX / k + i) (l.cropY / k + j)
        some ((l.alpha * a + 255) / 256, (c.guard n (graphicSrc g buf)).sample plane (l.cropX / k + i) (l.cropY / k + j))
      else
        let ax := cropAxes l.cropX l.cropY l.cropW l.cropH l.dstW l.dstH plane
        some (l.alpha, scaleSample (c.guard n (graphicSrc g buf)) (c.s.filterPhase c.die l.filterSet) ax.1 ax.2 plane i j)
    | .placeholder =>
      let fill := colour l.phY l.phCb l.phCr plane
      match c.s.graphicAt l.placeholder c.beat with
      | none => some (l.alpha, fill)
      | some g => some (l.alpha, if i < g.w / k ∧ j < g.h / k then graphicSample g (g.frontAt c.beat) plane i j else fill)

/-- One sample of the output: the background with the layers blended in ascending z (R183). -/
def composeSample (c : Ctx) (bg : Nat) (ls : List (Nat × LayerCfg × Drawn)) (plane x y : Nat) : Nat :=
  ls.foldl (fun v l => match layerAt c l.1 l.2.1 l.2.2 plane x y with | some (a, src) => blend a src v | none => v) bg

/-- The composed picture (R183). -/
def composePicture (c : Ctx) (o : OutputCfg) (ls : List (Nat × LayerCfg × Drawn)) : Picture :=
  let p := fun plane w h => raster w h (composeSample c (colour o.bgY o.bgCb o.bgCr plane) ls plane)
  { w := o.width, h := o.height, y := p 0 o.width o.height, cb := p 1 (o.width / 2) (o.height / 2), cr := p 2 (o.width / 2) (o.height / 2) }

/-- A picture of one colour. -/
def flatPicture (w h y cb cr : Nat) : Picture :=
  let n := w / 2 * (h / 2)
  { w := w, h := h, y := List.replicate (w * h) y, cb := List.replicate n cb, cr := List.replicate n cr }

/- Latching (R179 to R182). -/

/-- The writer beat before the latest one at or before c (R181). -/
def Writer.bRef (w : Writer) (c : Instant) : Instant :=
  let g := Grid.video w.rate
  let i := g.indexAtOrBefore c
  let p := max 1 w.period
  let last := i - (i + p - w.phase) % p
  g.beatAt (last - p)

/-- The newest picture of a pair that was complete at the beat c (R179). -/
def latch (s : State) (h : Nat) (c : Instant) : Option PairPic :=
  (s.pairAt h c).find? (fun p => decide (p.completed ≤ c))

/-- A surface of a stack can be read from a die: the stack is its package's, or the link carries the read (R342). -/
def State.readable (s : State) (h die : Nat) : Bool := s.linked (stackPkg (handleStack h)) (pkgOfDie die)

/-- What a layer of an output of a die shows at the beat c: drawn picture, ready, shows its placeholder, and its stale count after (R181, R182). -/
def Layer.judge (l : Layer) (s : State) (die : Nat) (c : Instant) : Drawn × Bool × Bool × Nat :=
  if handleKind l.cfg.source == 0x05 then (.graphic l.cfg.source, true, false, 0)
  else match (if s.readable l.cfg.source die then latch s l.cfg.source c else none) with
    | none => (.placeholder, false, true, 255)
    | some p =>
      let fresh := match s.writerAt l.cfg.source c with | some w => decide (w.bRef c ≤ p.beat) | none => false
      if fresh && !(l.cfg.concealAsStale && p.concealed) then (.picture p, true, false, 0)
      else
        let n := min 255 (l.stale + 1)
        if n ≤ l.cfg.staleLimit then (.picture p, false, false, n) else (.placeholder, false, true, n)

/- A composition. -/

/-- Source and data of a compose event (R194). -/
def State.composeEvent (s : State) (id code data : Nat) : State :=
  s.raise (128 + 8 * objDie id + 2) code (dCode 88 32 id + data) (pkgOfDie (objDie id))

/-- The enabled layers in ascending z. -/
def insertByZ (x : Nat × Layer) : List (Nat × Layer) → List (Nat × Layer)
  | [] => [x]
  | y :: ys => if x.2.cfg.z < y.2.cfg.z then x :: y :: ys else y :: insertByZ x ys

def Output.drawn (o : Output) : List (Nat × Layer) :=
  (o.layers.filter (fun p => p.2.cfg.enabled)).foldl (fun a p => insertByZ p a) []

/-- A bit mask of numbers. -/
def maskOf (l : List Nat) : Nat := l.foldl (fun a k => a ||| 2 ^ k) 0

/-- A layer after a frame, and the event that it causes. -/
def layerAfter (s : State) (id n : Nat) (l : Layer) (ready ph : Bool) (stale : Nat) : State × Layer :=
  if ph then
    let l1 := { l with stale := stale, placeholder := true, placeholderFrames := l.placeholderFrames + 1 }
    (if l.placeholder then s else s.composeEvent id 0x0001 (dCode 80 8 n + dBits 72 8 stale), l1)
  else if ready && l.placeholder then
    (s.composeEvent id 0x0002 (dCode 80 8 n + dBits 48 32 l.placeholderFrames), { l with stale := stale, placeholder := false, placeholderFrames := 0 })
  else (s, { l with stale := stale })

/-- The samples of a region in the order of R189. -/
def regionSamples (p : Picture) (r : RegionCfg) : List Nat :=
  let rect := fun plane k => ((List.range (r.h / k)).map (fun j => (List.range (r.w / k)).map (fun i => p.sample plane (r.x / k + i) (r.y / k + j)))).flatten
  rect 0 1 ++ rect 1 2 ++ rect 2 2

/-- A region after a frame (R189 to R191): the region, whether it matched, and its event. -/
def regionAfter (s : State) (id n : Nat) (r : Region) (p : Picture) : State × Region × Bool :=
  let crc := crc32 (regionSamples p r.cfg)
  if r.capturing then
    (s.composeEvent id 0x0004 (dCode 80 8 n + dCode 40 32 crc),
     { r with cfg := { r.cfg with expected := crc }, capturing := false, crc := crc, matched := true }, true)
  else if crc = r.cfg.expected then (s, { r with crc := crc, matched := true }, true)
  else
    let (fire, lim) := if r.matched then (some (r.event.pending + 1), { r.event with last := some s.now, pending := 0 }) else r.event.hit s.now (sec 1)
    let r1 := { r with crc := crc, matched := false, event := lim }
    match fire with
    | some k => (s.composeEvent id 0x0003 (dCode 80 8 n + dCode 72 8 (b2n r.cfg.withhold) + dCode 40 32 crc + dBits 8 32 k), r1, false)
    | none => (s, r1, false)

/-- Layers of an output that the scaler cannot hold (R188). -/
def clampedLayers (o : Output) : List (Nat × Layer) :=
  o.drawn.filter (fun p => p.2.cfg.kind == 0 && decide (lineBuffer < p.2.cfg.cropW) && p.2.cfg.cropH != p.2.cfg.dstH)

/-- LINEBUF_CLAMPED of a frame (R188), at most once a second per output. -/
def State.clampEvent (s : State) (id : Nat) (o : Output) : State × Output :=
  match clampedLayers o with
  | [] => (s, o)
  | (n, l) :: _ =>
    let (fire, lim) := o.clampEvent.hit s.now (sec 1)
    (if fire.isSome then s.composeEvent id 0x0005 (dCode 80 8 n + dBits 64 16 l.cfg.cropW) else s, { o with clampEvent := lim })

/-- A composition of beat c completes (R179 to R193): what it leaves, and the bytes of its record after the first 48. -/
def State.composeDone (s0 : State) (id : Nat) (c : Instant) (poison : List (Nat × Nat × Nat)) : State × List Nat :=
  let s := s0.takeScoped (.composition id) c
  match s.output id with
  | none => (s, [])
  | some o =>
    let judged := o.drawn.map (fun p => (p.1, p.2, p.2.judge s (objDie id) c))
    let ctx : Ctx := { s := s, die := objDie id, beat := c, poison := poison }
    let pic := composePicture ctx o.cfg (judged.map (fun j => (j.1, j.2.1.cfg, j.2.2.1)))
    let (s1, layers) := judged.foldl (fun a j =>
      let (t, l) := layerAfter a.1 id j.1 j.2.1 j.2.2.2.1 j.2.2.2.2.1 j.2.2.2.2.2
      (t, a.2.put j.1 l)) (s, o.layers)
    let (s2, regions, bad) := o.regions.foldl (fun (a : State × Tab Region × List Nat) r =>
      let (t, x, ok) := regionAfter a.1 id r.1 r.2 pic
      (t, a.2.1.put r.1 x, if ok then a.2.2 else a.2.2 ++ [r.1])) (s1, o.regions, [])
    let held := bad.filter (fun n => (o.regions.getD n {}).cfg.withhold)
    let good := held.isEmpty
    let none_ := !good && o.verified.isNone
    let new : PairPic := { pic := pic, beat := c, completed := s.now }
    let back : PairPic := { new with pic := flatPicture o.cfg.width o.cfg.height o.cfg.bgY o.cfg.bgCb o.cfg.bgCr }
    let sent := if good then new else o.verified.getD back
    let phs := (judged.filter (fun j => j.2.2.2.2.1)).map (·.1)
    let (s3, o1) := s2.clampEvent id { o with layers := layers, regions := regions, withholding := !good, latest := some sent, verified := if good then some new else o.verified, frames := o.frames + 1, withheld := if good then o.withheld else o.withheld + 1, mismatches := o.mismatches + BitVec.ofNat 64 bad.length, placeholderFrames := if phs.isEmpty then o.placeholderFrames else o.placeholderFrames + 1, lastVerified := if good then c else o.lastVerified }
    let s4 := s3.setOutput id o1
    let s5 := if o.memoryPair ≠ 0 ∧ (good ∨ none_) then s4.writePair o.memoryPair sent else s4
    let notReady := (judged.filter (fun j => !j.2.2.2.1)).map (·.1)
    (s5, [id, b2n (!good) + 2 * b2n none_ + 4 * b2n (!(clampedLayers o).isEmpty), maskOf bad, maskOf held, 0, maskOf notReady, maskOf phs] ++
      (List.range 8).map (fun n => match regions.find n with | some r => r.crc | none => 0))

/-- COMPOSE_TASK (R179 to R193): a composition completes. `poison` lists source words that are taken as zero (R322). -/
def execComposeTask (dt die inst : Nat) (haps : List Hap) (poison : List (Nat × Nat × Nat)) (s0 : State) : Out :=
  let s := s0.advance dt
  if !s.dieUp die then .next s
  else match s.inService die inst with
    | none => .next s
    | some i =>
      match i.desc.op with
      | .compose id =>
        let (s1, rest) := (s.haps haps).onOutput id i.beat (fun t => t.composeDone id i.beat poison)
        .next (s1.complete die i rest)
      | _ => .next s

/-- A composition that still draws a surface's old front: one of a beat before the flip, issued or held back by a stall (R196). Its layers are those
that it has when it takes its staged changes. -/
def drawsOld (s : State) (h : Nat) (t : Instant) : Bool :=
  s.pools.any (fun p => p.2.insts.any (fun i => decide (i.beat < t) && (match i.desc.op with
    | .compose o => (match (s.takeScoped (.composition o) i.beat).outputAt o i.beat with
      | some x => x.layers.any (fun l => l.2.cfg.source == h || l.2.cfg.placeholder == h)
      | none => false)
    | _ => false))) ||
  s.escs.any (fun e => !e.2.stalled.isEmpty && decide (e.2.stallBeat < t))

/-- GRAPHIC_COPY (R196): the new front is copied into the new back once every composition of the old front has completed. -/
def execGraphicCopy (dt surface : Nat) (s0 : State) : Out :=
  let s := s0.advance dt
  if !s.serving then .next s
  else match s.video.graphics.find surface with
    | none => .next s
    | some g =>
      match g.copyPending with
      | none => .next s
      | some t => if s.now < t ∨ drawsOld s surface t then .next s else .next (s.setGraphic surface (g.copied s.now))

/- Commands. -/

def geometry (ok : Bool) (detail off : Nat) : Bool × Err := (!ok, { status := .badGeometry, off := off, detail := detail })

/-- An even coordinate or size (R195). -/
def evenAt (v off : Nat) : Bool × Err := geometry (v % 2 == 0) 4 off

/-- Outputs of a composer, and the pixels per second that they commit (R177). -/
def unitOutputs (s : State) (u : Nat) : List (Nat × Output) := s.video.outputs.filter (fun p => p.2.cfg.unit == u)
def composerCharge (s : State) (u : Nat) : Nat := sumN ((unitOutputs s u).map (fun p => composeCharge p.2))

def outputCfgOf (e : Env) : OutputCfg :=
  { unit := e.at 0, frameRate := e.at 1, encoder := e.at 2, memory := e.at 3 == 1, width := e.at 4, height := e.at 5, bgY := e.at 6,
    bgCb := e.at 7, bgCr := e.at 8 }

def newOutputId (e : Env) : Nat :=
  lowestFree (e.used (fun s => s.video.outputs.keys)) (siteDie (e.at 0) * 2 ^ 11)

/-- Bytes of a memory pair (R192). -/
def memoryPairBytes (c : OutputCfg) : Nat := 2 * surfaceBytes c.width c.height 8

def newMemoryPair (e : Env) : Nat := if e.at 3 = 1 then e.all.mem.nextHandle 0x04 (siteDie (e.at 0)) else 0

def composeCreateStage (e : Env) : List (Scope × Change) :=
  let c := { outputCfgOf e with params := e.all.mem.nextHandle 0x0B (siteDie (e.at 0)) }
  (.instant, .video (.outputCreate (newOutputId e) c (newMemoryPair e))) :: allocParams c.params 1 ++
  (if e.at 3 = 1 then [(.instant, .mem (.alloc (newMemoryPair e) (memoryPairBytes (outputCfgOf e)) 0))] else [])

def composeCreateDef : CmdDef where
  opcode := 0x0601
  fields := [fN 4, fN 1, fN 1, fN 1, fR 1, fN 2, fN 2, fD 1 16, fD 1 128, fD 1 128, fRD 1]
  checks := fun e =>
    let c := outputCfgOf e
    let d := siteDie c.unit
    let direct := e.at 2 != 0xFF
    e.vw.siteChecks c.unit (isComp c.unit) 0 ++
    [ range c.frameRate 1 120 4,
      needs (decide (c.encoder ≤ 1) || c.encoder == 0xFF) 5,
      needs (decide (e.at 3 ≤ 1) && (e.at 3 == 1 || direct)) 6,
      range c.width 64 (if direct then 1920 else 8192) 8,
      evenAt c.width 8,
      range c.height 64 (if direct then 1088 else 4352) 10,
      evenAt c.height 10,
      needsD (decide (composerCharge e.vw c.unit + composeCharge { cfg := c } ≤ 1000000000)) .composeCapacity 1,
      needsD (decide ((unitOutputs e.vw c.unit).length < 32)) .composeCapacity 2,
      needsD (!c.memory || decide (memoryPairBytes c ≤ e.vw.mem.room .surfaces d 0)) .composeCapacity 3,
      needsD (decide (newOutputId e < d * 2 ^ 11 + 512)) .composeCapacity 5 ] ++
    e.tables (composeCreateStage e)
  effect := fun e =>
    { result := beBytes 4 (newOutputId e) ++ beBytes 4 (newMemoryPair e) ++ beBytes 4 (composeService { cfg := outputCfgOf e }),
      stage := composeCreateStage e }

/-- CMD_COMPOSE_CREATE (R176, R177, R192, Table 8.5). -/
def execCmdComposeCreate (r : CmdRef) (b : List Byte) (s : State) : Out := runCmd composeCreateDef r b s

def vwOutput (e : Env) : Output := (e.vw.output (e.at 0)).getD {}

def composeDeleteStage (e : Env) : List (Scope × Change) :=
  let o := vwOutput e
  (.instant, .video (.outputDelete (e.at 0))) :: freeParams o.cfg.params 1 ++ (if o.memoryPair = 0 then [] else [(.instant, .mem (.free o.memoryPair))])

/-- An encode leg takes its pictures from an output or its memory pair. -/
def encodesFrom (s : State) (out pair : Nat) : Bool :=
  s.video.encodes.any (fun p => if p.2.cfg.memory then pair != 0 && p.2.cfg.source == pair else p.2.cfg.source == out)

def composeDeleteDef : CmdDef where
  opcode := 0x0602
  fields := [fN 4]
  checks := fun e =>
    let o := vwOutput e
    [ needsSt (e.vw.video.outputs.has (e.at 0)) .notFound 0,
      needs (!encodesFrom e.vw (e.at 0) o.memoryPair &&
        !layerNames { e.vw with video := { e.vw.video with outputs := e.vw.video.outputs.del (e.at 0) } } o.memoryPair) 0 ] ++
    e.tables (composeDeleteStage e)
  effect := fun e => { stage := composeDeleteStage e }

/-- CMD_COMPOSE_DELETE (R195, R403). -/
def execCmdComposeDelete (r : CmdRef) (b : List Byte) (s : State) : Out := runCmd composeDeleteDef r b s

/-- The parameters that CMD_COMPOSE_LAYER asks for (Table 8.6). -/
def layerCfgOf (e : Env) : LayerCfg :=
  { kind := e.at 2, z := e.at 3, enabled := (e.at 4).testBit 0, concealAsStale := (e.at 4).testBit 1, source := e.at 5, cropX := e.at 6,
    cropY := e.at 7, cropW := e.at 8, cropH := e.at 9, dstX := e.at 10, dstY := e.at 11, dstW := if e.at 2 = 1 then e.at 8 else e.at 12,
    dstH := if e.at 2 = 1 then e.at 9 else e.at 13, alpha := e.at 14, filterSet := e.at 15, staleLimit := e.at 16, placeholder := e.at 17,
    phY := e.at 18, phCb := e.at 19, phCr := e.at 20 }

/-- The layer's number: the one named, or the lowest free of its kind (R195). -/
def layerNo (e : Env) : Nat :=
  if e.at 1 ≠ 0xFF then e.at 1
  else lowestFree (e.used (fun s => ((s.output (e.at 0)).getD {}).layers.keys)) (if e.at 2 = 1 then 16 else 0)

/-- Size of what a handle may give a layer: a pair's largest picture or a graphic surface. -/
def sourceSize (s : State) (h : Nat) : Option (Nat × Nat) :=
  match s.video.graphics.find h with
  | some g => some (g.w, g.h)
  | none => (writerOf s h).map (fun w => (w.w, w.h))

/-- The layer is removed (flags bit 2). -/
def layerGoes (e : Env) : Bool := (e.at 4).testBit 2

def layerStage (e : Env) : List (Scope × Change) :=
  [(.composition (e.at 0), if layerGoes e then .video (.layerRemove (e.at 0) (e.at 1)) else .video (.layerSet (e.at 0) (layerNo e) (layerCfgOf e)))]

/-- Every phase of a filter set is loaded (R195). -/
def setLoaded (s : State) (die set : Nat) : Bool :=
  set == 0 || (List.range 64).all (fun p => s.video.filters.has ((die * 16 + set) * 64 + p))

def composeLayerDef : CmdDef where
  opcode := 0x0603
  fields := [fN 4, fN 1, fN 1, fN 1, fF 1 7, fN 4, fN 2, fN 2, fN 2, fN 2, fN 2, fN 2, fN 2, fN 2, fD 1 255, fD 1 0, fD 1 3, fRD 1, fD 4 0,
             fD 1 16, fD 1 128, fD 1 128, fRD 1]
  zero := fun v _ =>
    if fv v 2 = 1 ∧ !(fv v 4).testBit 2 then [(fv v 12 != 0, 24), (fv v 13 != 0, 26)] else []
  checks := fun e =>
    let o := vwOutput e
    let c := layerCfgOf e
    let keep := !layerGoes e
    let n := layerNo e
    let sz := (sourceSize e.vw c.source).getD (0, 0)
    let video := c.kind == 0
    [ needsSt (e.vw.video.outputs.has (e.at 0)) .notFound 0,
      needsSt (e.at 1 == 0xFF || o.layers.has (e.at 1)) .notFound 4,
      needsSt (!keep || (sourceSize e.vw c.source).isSome) .notFound 8,
      needsSt (!keep || c.placeholder == 0 || e.vw.video.graphics.has c.placeholder) .notFound 32,
      needs (keep || e.at 1 != 0xFF) 4 ] ++
    (if !keep then [] else
    [ needs (e.at 1 == 0xFF || (decide (e.at 1 < 16) == video && decide (e.at 1 ≤ 23))) 4,
      needs (decide (c.kind ≤ 1) && (match o.layers.find (e.at 1) with | some l => l.cfg.kind == c.kind | none => true)) 5,
      range c.z 0 23 6,
      needs (video || !c.concealAsStale) 7,
      needs (video || handleKind c.source == 0x05) 8,
      evenAt c.cropX 12, evenAt c.cropY 14,
      needs (decide (2 ≤ c.cropW)) 16, evenAt c.cropW 16,
      needs (decide (2 ≤ c.cropH)) 18, evenAt c.cropH 18,
      evenAt c.dstX 20, evenAt c.dstY 22, evenAt c.dstW 24, evenAt c.dstH 26,
      needs (!video || decide (c.filterSet ≤ 15)) 29,
      needsSt (e.at 1 != 0xFF || (if video then decide (n < 16) else decide (n < 24))) .tooManyLayers 4,
      geometry (decide (c.cropX + c.cropW ≤ sz.1 ∧ c.cropY + c.cropH ≤ sz.2)) 1 12,
      geometry (decide (c.dstX + c.dstW ≤ o.cfg.width ∧ c.dstY + c.dstH ≤ o.cfg.height)) 2 20,
      geometry (!video || decide (c.cropW ≤ 8 * c.dstW ∧ c.dstW ≤ 8 * c.cropW ∧ c.cropH ≤ 8 * c.dstH ∧ c.dstH ≤ 8 * c.cropH)) 3 24,
      geometry (!c.enabled || o.layers.all (fun l => l.1 == n || !l.2.cfg.enabled || l.2.cfg.z != c.z)) 5 6,
      geometry (match writerOf e.vw c.source with | some w => o.cfg.frameRate % w.rate == 0 | none => true) 6 8,
      needsSt (!video || decide (c.cropW ≤ lineBuffer) || c.cropH == c.dstH) .linebufShort 16,
      needsD (decide (composerCharge (e.after (layerStage e)) o.cfg.unit ≤ 1000000000)) .composeCapacity 1,
      needs (!video || setLoaded e.vw (objDie (e.at 0)) c.filterSet) 29 ]) ++
    e.tables (layerStage e)
  effect := fun e => { result := beBytes 1 (if layerGoes e then e.at 1 else layerNo e) ++ zeros 3, stage := layerStage e }

/-- CMD_COMPOSE_LAYER (R178 to R188, R195, R196, Table 8.6). -/
def execCmdComposeLayer (r : CmdRef) (b : List Byte) (s : State) : Out := runCmd composeLayerDef r b s

def regionNo (e : Env) : Nat :=
  if e.at 1 ≠ 0xFF then e.at 1
  else lowestFree (e.used (fun s => ((s.output (e.at 0)).getD {}).regions.keys)) 0

def regionStage (e : Env) : List (Scope × Change) :=
  let cfg : RegionCfg := { withhold := e.at 2 == 1, capture := e.at 3 == 1, x := e.at 4, y := e.at 5, w := e.at 6, h := e.at 7, expected := e.at 8 }
  [(.composition (e.at 0), if e.at 2 = 2 then .video (.regionRemove (e.at 0) (e.at 1)) else .video (.regionSet (e.at 0) (regionNo e) cfg))]

def composeRegionDef : CmdDef where
  opcode := 0x0604
  fields := [fN 4, fN 1, fN 1, fD 1 0, fRD 1, fN 2, fN 2, fN 2, fN 2, fD 4 0]
  zero := fun v _ => [(fv v 3 == 1 && fv v 8 != 0, 16)]
  checks := fun e =>
    let o := vwOutput e
    [ needsSt (e.vw.video.outputs.has (e.at 0)) .notFound 0,
      needsSt (e.at 1 == 0xFF || o.regions.has (e.at 1)) .notFound 4,
      needs (decide (e.at 2 ≤ 2) && !(e.at 2 == 2 && e.at 1 == 0xFF)) 5,
      range (e.at 3) 0 1 6,
      evenAt (e.at 4) 8, evenAt (e.at 5) 10,
      needs (decide (2 ≤ e.at 6)) 12, evenAt (e.at 6) 12,
      needs (decide (2 ≤ e.at 7)) 14, evenAt (e.at 7) 14,
      needsSt (e.at 2 == 2 || decide (regionNo e < 8)) .regionLimit 4,
      geometry (e.at 2 == 2 || decide (e.at 4 + e.at 6 ≤ o.cfg.width ∧ e.at 5 + e.at 7 ≤ o.cfg.height)) 2 8 ] ++
    e.tables (regionStage e)
  effect := fun e => { result := beBytes 1 (regionNo e) ++ zeros 3, stage := regionStage e }

/-- CMD_COMPOSE_REGION (R189 to R191, R195, R196, Table 8.7). -/
def execCmdComposeRegion (r : CmdRef) (b : List Byte) (s : State) : Out := runCmd composeRegionDef r b s

/-- The result of Table 8.8. -/
def composeStatus (o : Output) : List Byte :=
  beBytes 1 o.layers.length ++ beBytes 1 o.regions.length ++ beBytes 1 (b2n o.withholding) ++ zeros 1 ++ beBytes 4 (composeService o) ++
  (((List.range 24).map (fun n => beBytes 1 (match o.layers.find n with | some l => l.stale | none => 0))).flatten) ++
  (((List.range 8).map (fun n => beBytes 4 (match o.regions.find n with | some r => r.crc | none => 0))).flatten) ++
  (([o.frames, o.withheld, o.mismatches, o.placeholderFrames].map (fun k => beBytes 8 k.toNat)).flatten) ++ timeBytes o.lastVerified

def composeStatusDef : CmdDef where
  opcode := 0x0605
  reads := true
  fields := [fN 4]
  checks := fun e => [ needsSt (e.vw.video.outputs.has (e.at 0)) .notFound 0 ]
  effect := fun e => { result := composeStatus ((e.s.output (e.at 0)).getD (vwOutput e)) }

/-- CMD_COMPOSE_STATUS (Table 8.8). -/
def execCmdComposeStatus (r : CmdRef) (b : List Byte) (s : State) : Out := runCmd composeStatusDef r b s

def graphicHandle (e : Env) : Nat := e.all.mem.nextHandle 0x05 (e.at 0)

def graphicCreateDef : CmdDef where
  opcode := 0x0606
  fields := [fN 1, fR 3, fN 2, fN 2]
  checks := fun e =>
    [ (decide (e.at 0 ≤ 7) && !e.vw.dieUp (e.at 0), badSite .siteFenced 0 (dieSite (e.at 0))),
      range (e.at 0) 0 7 0,
      range (e.at 1) 2 8192 4, evenAt (e.at 1) 4,
      range (e.at 2) 2 4352 6, evenAt (e.at 2) 6,
      needsD (decide (graphicBytes (e.at 1) (e.at 2) ≤ e.vw.mem.room .graphics (e.at 0) 0)) .composeCapacity 4 ]
  effect := fun e =>
    { result := beBytes 4 (graphicHandle e),
      stage := [(.instant, .video (.graphicCreate (graphicHandle e) (e.at 0) (e.at 1) (e.at 2))),
                (.instant, .mem (.alloc (graphicHandle e) (graphicBytes (e.at 1) (e.at 2)) 0))] }

/-- CMD_GRAPHIC_CREATE (R184, R195, R196). -/
def execCmdGraphicCreate (r : CmdRef) (b : List Byte) (s : State) : Out := runCmd graphicCreateDef r b s

def vwGraphic (e : Env) : Graphic := e.vw.video.graphics.getD (e.at 0) {}

def graphicWriteDef : CmdDef where
  opcode := 0x0607
  fields := [fN 4, fN 4, fN 2, fR 2]
  tail := some (fun v => fv v 2)
  checks := fun e =>
    let g := vwGraphic e
    [ needsSt (e.vw.video.graphics.has (e.at 0)) .notFound 0,
      needs (e.at 1 % 4 == 0 && decide (e.at 1 + e.at 2 ≤ 4 * g.w * g.h)) 4,
      needs (decide (4 ≤ e.at 2 ∧ e.at 2 ≤ 1024) && e.at 2 % 4 == 0) 8 ]
  effect := fun e => { stage := [(.instant, .video (.graphicWrite (e.at 0) (e.at 1) e.tail))] }

/-- CMD_GRAPHIC_WRITE (R195, R196): only the back buffer. -/
def execCmdGraphicWrite (r : CmdRef) (b : List Byte) (s : State) : Out := runCmd graphicWriteDef r b s

def graphicFlipDef : CmdDef where
  opcode := 0x0608
  fields := [fN 4]
  checks := fun e => [ needsSt (e.vw.video.graphics.has (e.at 0)) .notFound 0 ]
  effect := fun e => { stage := [(.instant, .video (.graphicFlip (e.at 0) 0))] }

/-- CMD_GRAPHIC_FLIP (R196). -/
def execCmdGraphicFlip (r : CmdRef) (b : List Byte) (s : State) : Out := runCmd graphicFlipDef r b s

def graphicDeleteDef : CmdDef where
  opcode := 0x0609
  fields := [fN 4]
  checks := fun e =>
    [ needsSt (e.vw.video.graphics.has (e.at 0)) .notFound 0, needs (!layerNames e.vw (e.at 0)) 0 ]
  effect := fun e => { stage := [(.instant, .video (.graphicDelete (e.at 0))), (.instant, .mem (.free (e.at 0)))] }

/-- CMD_GRAPHIC_DELETE (R195). -/
def execCmdGraphicDelete (r : CmdRef) (b : List Byte) (s : State) : Out := runCmd graphicDeleteDef r b s

/-- The phases of a CMD_COMPOSE_FILTER (Table 8.9): 28 bytes each. -/
def filterPhases (n : Nat) (b : List Byte) : List FilterPhase :=
  (List.range n).map (fun k =>
    let c := fun i => signed 16 (beNat ((b.drop (28 * k + 2 * i)).take 2))
    { h := (List.range 8).map c, v := (List.range 6).map (fun i => c (8 + i)) })

/-- A phase's coefficients are in range and each row sums to 256 (R186, R195). -/
def FilterPhase.ok (p : FilterPhase) : Bool :=
  (p.h ++ p.v).all (fun c => decide (-512 ≤ c ∧ c ≤ 511)) && sumI p.h == 256 && sumI p.v == 256

/-- A video layer of the die's outputs names the set. -/
def setNamed (s : State) (die set : Nat) : Bool :=
  s.video.outputs.any (fun o => objDie o.1 == die && o.2.layers.any (fun l => l.2.cfg.kind == 0 && l.2.cfg.filterSet == set))

def composeFilterDef : CmdDef where
  opcode := 0x060A
  fields := [fN 1, fN 1, fN 1, fN 1]
  tail := some (fun v => 28 * fv v 3)
  checks := fun e =>
    [ (decide (e.at 0 ≤ 7) && !e.vw.dieUp (e.at 0), badSite .siteFenced 0 (dieSite (e.at 0))),
      range (e.at 0) 0 7 0, range (e.at 1) 1 15 1, range (e.at 2) 0 63 2,
      needs (decide (1 ≤ e.at 3 ∧ e.at 3 ≤ 16 ∧ e.at 2 + e.at 3 ≤ 64)) 3,
      needs ((filterPhases (e.at 3) e.tail).all FilterPhase.ok) 4,
      needs (!setNamed e.vw (e.at 0) (e.at 1)) 1 ]
  effect := fun e => { stage := [(.instant, .video (.filterLoad (e.at 0) (e.at 1) (e.at 2) (filterPhases (e.at 3) e.tail)))] }

/-- CMD_COMPOSE_FILTER (R186, R195, Table 8.9). -/
def execCmdComposeFilter (r : CmdRef) (b : List Byte) (s : State) : Out := runCmd composeFilterDef r b s

end Sys2Proof.Machine
end

