-- ==== Sys2Proof/Machine/EncodeCore.lean ====
section
/-! DEFINITION. How an encode unit codes a frame (R197, R198, R203, R208, R210 to R214).
The levels and code points of the standards are PRESUMED, blocks and their order a DESIGN CHOICE (log entries 66, 67). -/

namespace Sys2Proof.Machine

/-- Row height in luma lines (Table 9.1), and block width (R208). -/
def rowHeight (codec : Nat) : Nat := if codec = 4 then 16 else 64
def blockWidth (codec : Nat) : Nat := if codec = 4 then 16 else 64

/- Samples and blocks. -/

/-- A sample of a plane, edge-replicated outside the picture (R208). -/
def Picture.edge (p : Picture) (plane : Nat) (x y : Int) : Nat :=
  let k := if plane = 0 then 1 else 2
  let at_ := fun (n : Nat) (v : Int) => (max 0 (min v ((ceilDiv n k : Int) - 1))).toNat
  p.sample plane (at_ p.w x) (at_ p.h y)

/-- The samples of a block of w × h luma samples at (x, y): luma, Cb, Cr. -/
def Picture.block (p : Picture) (w h x y : Nat) : List Nat :=
  let plane := fun (k n : Nat) => raster (w / n) (h / n) (fun i j => p.edge k ((x / n + i : Nat) : Int) ((y / n + j : Nat) : Int))
  plane 0 1 ++ plane 1 2 ++ plane 2 2

/- The motion-search window (R208). -/

/-- Columns x to x + n − 1 of a plane, from line y, h samples each. -/
def Picture.columns (p : Picture) (plane : Nat) (x y : Int) (n h : Nat) : List (List Nat) :=
  (List.range n).map (fun (i : Nat) => (List.range h).map (fun (j : Nat) => p.edge plane (x + (i : Int)) (y + (j : Int))))

/-- The whole window of a block of w × h luma samples at (x, y). -/
def loadWindow (p : Picture) (w h x y : Nat) : MotionWindow :=
  let u : Int := (x : Int) - 132
  let v : Int := (y : Int) - 68
  let chroma := fun (k : Nat) => p.columns k (u / 2) (v / 2) ((w + 264) / 2) ((h + 136) / 2)
  { x := u, y := v, luma := p.columns 0 u v (w + 264) (h + 136), cb := chroma 1, cr := chroma 2 }

/-- The step to the next block: a strip of block-width columns is loaded, and the oldest is dropped. -/
def MotionWindow.step (m : MotionWindow) (p : Picture) (w h : Nat) : MotionWindow :=
  let next := m.x + (w : Int)
  let strip := fun (k : Nat) => p.columns k ((m.x + (w : Int) + 264) / 2) (m.y / 2) (w / 2) ((h + 136) / 2)
  { x := next, y := m.y, luma := m.luma.drop w ++ p.columns 0 (m.x + (w : Int) + 264) m.y w (h + 136),
    cb := m.cb.drop (w / 2) ++ strip 1, cr := m.cr.drop (w / 2) ++ strip 2 }

/-- Everything that a unit can predict from. -/
def MotionWindow.samples (m : MotionWindow) : List Nat := (m.luma ++ m.cb ++ m.cr).flatten

/-- A vector in quarter samples, which never leaves the window: −128 to +128 samples horizontally, −64 to +64 vertically. -/
def keepVector (v : Int × Int) : Int × Int := (clampI (-512) 512 v.1, clampI (-256) 256 v.2)

/- One frame. -/

/-- What the coding of a frame reads: what it signals, the picture that it codes, the picture that it predicts from, and the bits that half of the
bitstream buffer holds. -/
structure FrameInput where
  sx : FrameSyntax
  source : Picture
  ref : Picture
  half : Nat
  isRepeat : Bool := false
deriving DecidableEq, Repr, Inhabited

/-- A tile: its place and size. -/
structure Tile where
  x : Nat
  y : Nat
  w : Nat
  h : Nat
deriving DecidableEq, Repr, Inhabited

/-- The coding of a tile as far as it is: bits, rows coded normally, the coder's state, SATD, the window, and the reconstructed blocks by rows. -/
structure TileRun where
  bits : Nat := 0
  coded : Nat := 0
  coder : Nat := 0
  satd : Nat := 0
  window : MotionWindow := {}
  rows : List (List (List Nat)) := []
deriving DecidableEq, Repr, Inhabited

/-- The numbers that stand for what a frame signals. -/
def FrameSyntax.words (s : FrameSyntax) : List Nat :=
  [s.codec, s.profile, s.level, s.width, s.height, b2n s.key, (s.ref.getD 0xF), s.refresh, s.qp, s.primaries, s.transfer, s.matrix, b2n s.fullRange,
   b2n s.temporalMvp, s.fiveMinusMaxMerge, b2n s.highPrecisionMv, b2n s.globalMotion, b2n s.filtersOff, s.tileCols, s.tileRows, b2n s.uniform,
   b2n s.filterAcross]

/-- A block of a skipped row or of a repeat frame (R203, R214): the co-located samples of the reference; in a key frame intra DC prediction with zero
residual, from the blocks above and to the left. Answers its bits, its samples, and the coder's state. -/
def skipBlock (f : FrameInput) (above left : List Nat) (coder x y : Nat) : Nat × List Nat × Nat :=
  let w := blockWidth f.sx.codec
  let h := rowHeight f.sx.codec
  let out := if f.sx.key then (List.range (w * h * 3 / 2)).map (fun i => Config.dcSample f.sx.codec above left i % 256) else f.ref.block w h x y
  (Config.skipBits f.sx.codec f.sx.key coder, out, Config.coderNext coder [] out)

/-- A block of a row that is coded normally: predicted from the window at a vector in it, or in a key frame from what the coder holds of its neighbours. -/
def codeBlock (f : FrameInput) (m : MotionWindow) (coder x y : Nat) : Nat × List Nat × Nat × Nat :=
  let w := blockWidth f.sx.codec
  let h := rowHeight f.sx.codec
  let src := f.source.block w h x y
  let win := m.samples
  let v := keepVector (Config.motionVector f.sx.codec f.sx.qp src win)
  let pred := if f.sx.key then [] else (List.range (w * h * 3 / 2)).map (fun i => Config.interpolated f.sx.codec win v i)
  let out := (List.range (w * h * 3 / 2)).map (fun i => Config.codedSample f.sx.codec f.sx.qp src pred coder i % 256)
  (Config.blockBits f.sx.codec f.sx.qp src pred coder, out, Config.coderNext coder src pred, Config.blockSatd f.sx.codec src pred)

/-- The blocks of a row, from left to right: `n` of them are left, the next at luma column x. -/
def codeBlocks (f : FrameInput) (skip : Bool) (y : Nat) (above : List (List Nat)) : Nat → Nat → Nat → TileRun → List (List Nat) → TileRun × List (List Nat)
  | 0, _, _, t, done => (t, done)
  | n + 1, k, x, t, done =>
    let w := blockWidth f.sx.codec
    let (bits, out, coder, satd) :=
      if skip then
        let (b, o, c) := skipBlock f (nth above k []) (done.getLastD []) t.coder x y
        (b, o, c, 0)
      else codeBlock f t.window t.coder x y
    codeBlocks f skip y above n (k + 1) (x + w)
      { t with bits := t.bits + bits, coder := coder, satd := t.satd + satd, window := t.window.step f.ref w (rowHeight f.sx.codec) } (done ++ [out])

/-- One row of a tile. A row never takes more than 16 bits per luma sample, and the tile stays within its share of half the bitstream buffer
(R212); `head` is what the frame's headers add to the first row. -/
def codeRow (f : FrameInput) (c : Tile) (share head r : Nat) (skip : Bool) (t : TileRun) : TileRun :=
  let h := rowHeight f.sx.codec
  let y := c.y + r * h
  let t0 := { t with window := loadWindow f.ref (blockWidth f.sx.codec) h c.x y }
  let (t1, row) := codeBlocks f skip y (t.rows.getLastD []) (ceilDiv c.w (blockWidth f.sx.codec)) 0 c.x t0 []
  let bits := min (min (16 * c.w * min h (c.h - r * h)) (share - t.bits)) (t1.bits - t.bits + head)
  { t1 with bits := t.bits + bits, rows := t.rows ++ [row] }

/-- The rows of a tile under the row budget guard (R213); a repeat frame has no ceiling. -/
def codeRows (f : FrameInput) (c : Tile) (share head : Nat) (ceiling : Int) : List Nat → TileRun → TileRun
  | [], t => t
  | r :: rs, t =>
    let skip := !f.isRepeat && decide (0 < r) && decide (ceiling ≤ (t.bits : Int))
    let u := codeRow f c share (if r = 0 then head else 0) r (skip || f.isRepeat) t
    codeRows f c share head ceiling rs { u with coded := if skip then u.coded else u.coded + 1 }

/-- The reconstruction of a tile before the filters, cut to the tile's size. -/
def TileRun.picture (t : TileRun) (codec : Nat) (c : Tile) : Picture :=
  let w := blockWidth codec
  let h := rowHeight codec
  let plane := fun (n off : Nat) => raster (c.w / n) (c.h / n) (fun x y =>
    nth (nth (nth t.rows (y / (h / n)) []) (x / (w / n)) []) (off + y % (h / n) * (w / n) + x % (w / n)) 0)
  { w := c.w, h := c.h, y := plane 1 0, cb := plane 2 (w * h), cr := plane 2 (w * h * 5 / 4) }

/-- The in-loop filters over a picture, as the standard requires; off for a repeat frame (R203). -/
def filterPicture (sx : FrameSyntax) (p : Picture) : Picture :=
  if sx.filtersOff then p
  else
    let smp := p.samples
    let on := fun (l : List Nat) (off : Nat) => (List.range l.length).map (fun i => Config.loopFiltered sx.codec sx.qp p.w smp (off + i) % 256)
    { p with y := on p.y 0, cb := on p.cb p.y.length, cr := on p.cr (p.y.length + p.cb.length) }

/-- A picture from tiles of a grid whose first column is w0 wide and first row h0 high. -/
def joinTiles (w h w0 h0 : Nat) (ps : List Picture) : Picture :=
  let plane := fun (k n : Nat) => raster (w / n) (h / n) (fun x y =>
    let c := if x < w0 / n then 0 else 1
    let r := if y < h0 / n then 0 else 1
    (nth ps (2 * r + c) {}).sample k (x - c * (w0 / n)) (y - r * (h0 / n)))
  { w := w, h := h, y := plane 0 1, cb := plane 1 2, cr := plane 2 2 }

/-- Within 16 luma samples of an inner boundary. -/
def nearEdge (b n x : Nat) : Bool := decide (b / n ≤ x + 16 / n ∧ x < b / n + 16 / n)

/-- GANG_FINISH filters the 16 luma samples on each side of the inner tile boundaries, which completes the reconstruction (R211). -/
def filterEdges (sx : FrameSyntax) (w0 h0 : Nat) (p : Picture) : Picture :=
  let q := filterPicture sx p
  let plane := fun (k n : Nat) => raster (p.w / n) (p.h / n) (fun x y =>
    if nearEdge w0 n x || nearEdge h0 n y then q.sample k x y else p.sample k x y)
  { p with y := plane 0 1, cb := plane 1 2, cr := plane 2 2 }

/-- The tiles of a leg, with their places (R210). -/
def tilesAt (c : EncodeCfg) : List Tile :=
  let ts := encodeTiles c
  let t0 := nth ts 0 (0, 0)
  ((List.range ts.length).zip ts).map (fun p => { x := if p.1 % 2 = 1 then t0.1 else 0, y := if 2 ≤ p.1 then t0.2 else 0, w := p.2.1, h := p.2.2 })

/- The bytes of a frame. -/

/-- The first bytes of the units that a frame consists of: sequence header and frame OBUs; VPS, SPS, PPS and slice; SPS, PPS and slice (R198). -/
def unitHeads (codec : Nat) (key : Bool) : List (List Byte) :=
  match codec with
  | 1 => (if key then [beBytes 1 0x08] else []) ++ [beBytes 1 0x30]
  | 3 => (if key then [beBytes 2 0x4001, beBytes 2 0x4201, beBytes 2 0x4401, beBytes 2 0x2801] else [beBytes 2 0x0201])
  | _ => (if key then [beBytes 1 0x67, beBytes 1 0x68, beBytes 1 0x65] else [beBytes 1 0x61])

/-- Bytes that the units before the picture's own take together. -/
def headBytes (s : FrameSyntax) : Nat :=
  sumN ((List.range ((unitHeads s.codec s.key).length - 1)).map (fun k => (nth (unitHeads s.codec s.key) k []).length + Config.paramBytes s.words k))

/-- The units of a frame of n bytes whose coder ended in a state: the parameter sets, then the picture. -/
def frameUnits (s : FrameSyntax) (coder : Nat) : List (List Byte) → Nat → Nat → List (List Byte)
  | [], _, _ => []
  | [h], k, n => [(h ++ (List.range n).map (fun i => Config.streamByte coder k i)).take n]
  | h :: hs, k, n =>
    let m := min n (h.length + Config.paramBytes s.words k)
    (h ++ (List.range m).map (fun i => Config.paramByte s.words k i)).take m :: frameUnits s coder hs (k + 1) (n - m)

/- A whole frame. -/

/-- A frame as coded. -/
structure Coded where
  bits : Nat := 0
  rows : Nat := 0
  total : Nat := 0
  truncated : Bool := false
  satd : Nat := 0
  recon : Picture := {}
  units : List (List Byte) := []
  /-- The window that each member of the leg holds last. -/
  windows : List MotionWindow := []
deriving DecidableEq, Repr, Inhabited

/-- Code a frame (R203, R208, R210 to R214): its tiles, each within its share of the ceiling and of half the bitstream buffer, the filters, and its
bytes. A repeat frame's reconstruction is its reference, bit for bit. -/
def codeFrameOf (c : EncodeCfg) (f : FrameInput) (ceilingOf : Nat → Int) : Coded :=
  let tiles := tilesAt c
  let head := 8 * headBytes f.sx
  let area := c.codedWidth * c.codedHeight
  let runs := ((List.range tiles.length).zip tiles).map (fun p =>
    let share := f.half * (p.2.w * p.2.h) / max 1 area
    codeRows f p.2 share (if p.1 = 0 then head else 0) (ceilingOf p.1) (List.range (ceilDiv p.2.h (rowHeight c.codec))) { coder := Config.coderStart f.sx.words p.1 })
  let bits := sumN (runs.map (·.bits))
  let rows := sumN (runs.map (·.coded))
  let total := sumN (tiles.map (fun t => ceilDiv t.h (rowHeight c.codec)))
  let parts := (runs.zip tiles).map (fun p => filterPicture f.sx (p.1.picture c.codec p.2))
  let t0 := nth (encodeTiles c) 0 (0, 0)
  let recon := if f.isRepeat then f.ref
    else if c.gang then filterEdges f.sx t0.1 t0.2 (joinTiles c.codedWidth c.codedHeight t0.1 t0.2 parts) else nth parts 0 {}
  let coder := (runs.map (·.coder)).foldl (fun a k => Config.coderNext a [k] []) 0
  { bits := bits, rows := rows, total := total, truncated := decide (rows < total), satd := sumN (runs.map (·.satd)), recon := recon,
    units := frameUnits f.sx coder (unitHeads c.codec f.sx.key) 0 (ceilDiv bits 8), windows := runs.map (·.window) }

end Sys2Proof.Machine
end

