-- ==== Sys2Proof/Machine/VideoEncode.lean ====
section
/-! DEFINITION. Encode legs: coding of frames, and the commands of the range 0x07xx (09_video_encode.md).
Corners of encoding: DEDUCED (log entries 5, 33). -/

namespace Sys2Proof.Machine

/- Properties of a leg. -/

/-- Top of a codec's qp scale (Table 9.6). -/
def qpTop (codec : Nat) : Nat := if codec = 1 then 255 else 51

/-- The ceiling of R212 for the next frame. -/
def EncodeLeg.ceiling (x : EncodeLeg) : Int :=
  let c := x.cfg
  let a : Int := (c.buffer : Int) - (x.fullness : Int)
  let b := if c.maxFrameBytes = 0 then a else min a (8 * c.maxFrameBytes : Nat)
  min b ((4 * c.bitstreamBytes : Nat) - (16 * c.codedWidth * rowHeight c.codec : Nat))

/-- F after a frame of b bits (R212). -/
def EncodeCfg.fullnessAfter (c : EncodeCfg) (f b : Nat) : Nat := f + b - c.targetKbps * 1000 / c.frameRate

/-- The ceiling of tile k (R212). -/
def EncodeCfg.tileCeiling (c : EncodeCfg) (ceiling : Int) (k : Nat) : Int :=
  if c.gang then floorDiv (ceiling * (tilePx c k : Int)) (c.codedWidth * c.codedHeight) else ceiling

/- Input (R207). -/

/-- Size of the scaled picture: the coded size, turned back. -/
def EncodeCfg.scaled (c : EncodeCfg) : Nat × Nat := if c.rotation % 2 = 1 then (c.codedHeight, c.codedWidth) else (c.codedWidth, c.codedHeight)

/-- Where sample (x, y) of the rotated plane lies in the scaled plane of w × h: rotation × 90° clockwise. -/
def unrotate (rotation w h x y : Nat) : Nat × Nat :=
  match rotation with
  | 1 => (y, h - 1 - x)
  | 2 => (w - 1 - x, h - 1 - y)
  | 3 => (w - 1 - y, x)
  | _ => (x, y)

/-- A source whose poisoned words, by plane and index, are taken as zero (R322). -/
def guardSrc (poison : List (Nat × Nat)) (x : Src) : Src :=
  { x with sample := fun p i j => if poison.contains (p, j * (if p = 0 then x.w else ceilDiv x.w 2) + i) then 0 else x.sample p i j }

/-- The axes of a plane of a leg's scaling: the whole source picture (R207). -/
def wholeAxes (w h dstW dstH plane : Nat) : Axis × Axis :=
  let k := if plane = 0 then 1 else 2
  ({ start := 0, len := w / k, dst := dstW / k, last := w / k - 1 }, { start := 0, len := h / k, dst := dstH / k, last := h / k - 1 })

/-- The picture that the coding stage reads (R207): scaled, then rotated. -/
def codingPicture (s : State) (die : Nat) (c : EncodeCfg) (poison : List (Nat × Nat)) (p : Picture) : Picture :=
  let sz := c.scaled
  let plane := fun (k n : Nat) =>
    let ax := wholeAxes p.w p.h sz.1 sz.2 k
    raster (c.codedWidth / n) (c.codedHeight / n) (fun x y =>
      let q := unrotate c.rotation (sz.1 / n) (sz.2 / n) x y
      scaleSample (guardSrc poison p.src) (s.filterPhase die c.filterSet) ax.1 ax.2 k q.1 q.2)
  { w := c.codedWidth, h := c.codedHeight, y := plane 0 1, cb := plane 1 2, cr := plane 2 2 }

/- Deciding a frame (R201 to R204, R216, R217). -/

/-- What the coding stage finds: a picture, or the reason of Table 9.5 for a repeat. -/
def encodeInput (s : State) (x : EncodeLeg) (beat : Instant) (incomplete : Bool) : Except Nat PairPic :=
  if x.repeatNext ∨ incomplete then .error 2
  else if x.cfg.memory then
    match (x.latched.find? (fun p => p.1 == beat)).map (·.2) with
    | none => .error 3
    | some p => if x.lastSurface = some p.completed then .error 3 else .ok p
  else match s.outputAt x.cfg.source beat with
    | none => .error 2
    | some o =>
      if o.withholding then .error 1
      else match o.latest with
        | some p => .ok p
        | none => .error 2

/-- The minimum gap to the previous key frame has passed. -/
def EncodeLeg.gapOver (x : EncodeLeg) (beat : Instant) : Bool := x.lastKey == 0 || decide (x.lastKey + ms x.cfg.minKeyGapMs ≤ beat)

/-- A PLI or FIR whose key frame the frame of a beat may be (R216): its 2 ms and the gap have passed. -/
def EncodeLeg.pliDue (x : EncodeLeg) (beat : Instant) (from_ : Instant) : Bool := decide (from_ ≤ beat) && x.gapOver beat

/-- The cause of the key frame that is due on the frame of a beat (R216); none when none is due. A leg's first frame is a key
frame. Which cause is named where several apply: size, command, PLI or FIR, interval (DESIGN CHOICE, log entry 33). -/
def EncodeLeg.keyCause (x : EncodeLeg) (beat : Instant) : Option Nat :=
  if x.keySize then some 3
  else if x.keyCmd then some 1
  else if x.keyPli.any (x.pliDue beat) then some 2
  else if x.coded = 0 ∨ (x.cfg.keyInterval ≠ 0 ∧ x.cfg.keyInterval ≤ x.sinceKey) then some 0
  else none

/-- A frame's type (Table 9.4), its reference slot (0xF for none), the slots it refreshes, and the cause of a key frame. -/
structure FramePlan where
  kind : Nat
  ref : Nat
  refresh : Nat
  cause : Nat := 0
deriving DecidableEq, Repr, Inhabited

/-- The order of R217. `rep` says that the frame is a repeat. -/
def EncodeLeg.plan (x : EncodeLeg) (beat : Instant) (rep : Bool) : FramePlan :=
  let due := x.keyCause beat
  if rep then
    if due.isSome || x.slot0.isNone then { kind := 1, ref := 0xF, refresh := 3, cause := 4 }
    else { kind := 2, ref := 0, refresh := 1 }
  else match due with
    | some cause => { kind := 1, ref := 0xF, refresh := 3, cause := cause }
    | none =>
      if x.recoveryDue then
        if x.slot1.isSome then { kind := 3, ref := 1, refresh := 3 } else { kind := 1, ref := 0xF, refresh := 3, cause := 1 }
      else
        let n := x.sinceKey + 1
        let ltr := x.cfg.ltrInterval ≠ 0 ∧ n % x.cfg.ltrInterval = 0
        { kind := 0, ref := if x.slot1.isSome && Config.rateControlRef x.rate then 1 else 0, refresh := if ltr then 3 else 1 }

/-- What the frame of a plan signals (R197, R198, R203, R210). -/
def EncodeLeg.signal (x : EncodeLeg) (p : FramePlan) (qp : Nat) : FrameSyntax :=
  let c := x.cfg
  let tiles := if c.gang then 2 else 1
  { codec := c.codec, profile := c.profile, level := x.level, width := c.codedWidth, height := c.codedHeight, key := p.kind == 1,
    ref := if p.kind = 1 then none else some p.ref, refresh := p.refresh, qp := qp, filtersOff := p.kind == 2, tileCols := tiles, tileRows := tiles }

/-- The picture that a slot holds; a leg whose slots are empty predicts from none. -/
def EncodeLeg.refPicture (x : EncodeLeg) (p : FramePlan) : Picture := (((if p.ref = 1 then x.slot1 else x.slot0).map (·.pic)).getD {})

/-- The picture that a frame codes: the source as the coding stage reads it. A key frame under a repeat codes slot 0's reconstruction, or the flat
picture where the leg has coded no frame (R204). -/
def framePicture (s : State) (id : Nat) (x : EncodeLeg) (poison : List (Nat × Nat)) (input : Except Nat PairPic) : Picture :=
  match input with
  | .ok p => codingPicture s (objDie id) x.cfg poison p.pic
  | .error _ => match x.slot0 with
    | some r => r.pic
    | none => flatPicture x.cfg.codedWidth x.cfg.codedHeight 16 128 128

/-- Encode events (R219). -/
def State.encodeEvent (s : State) (id frame code data : Nat) : State :=
  s.raise (128 + 8 * objDie id + 3) code (dCode 88 32 id + dCode 56 32 frame + data) (pkgOfDie (objDie id))

/-- REPEAT_CODED, at most once a second (R219). -/
def State.repeatEvent (s : State) (id frame reason : Nat) : State :=
  match s.encode id with
  | none => s
  | some x =>
    let (fire, lim) := x.repeatEvent.hit s.now (sec 1)
    let s1 := s.setEncode id { x with repeatEvent := lim }
    match fire with
    | some n => s1.encodeEvent id frame 0x0002 (dCode 48 8 reason + dBits 16 32 n)
    | none => s1

/-- The 90 kHz RTP time-stamp of a beat (R100). -/
def videoTs (beat : Instant) : W32 := BitVec.ofNat 32 (nsOf beat * 9 / 100000)

/-- The leg after a frame (R198, R209, R212, R216). A PLI or FIR whose time has not come stays scheduled when another key frame is coded. -/
def EncodeLeg.afterFrame (x : EncodeLeg) (beat : Instant) (p : FramePlan) (sx : FrameSyntax) (surface : Option Instant) (c : Coded) : EncodeLeg :=
  let key := p.kind == 1
  let k := x.ctrs
  let slot : RefPic := { number := x.coded, pic := c.recon }
  { x with
    fullness := x.cfg.fullnessAfter x.fullness c.bits
    coded := x.coded + 1
    sinceKey := if key then 0 else x.sinceKey + 1
    slot0 := some slot
    slot1 := if p.refresh = 3 then some slot else x.slot1
    keyCmd := if key then false else x.keyCmd
    keySize := if key then false else x.keySize
    keyPli := if key then x.keyPli.filter (fun t => !x.pliDue beat t) else x.keyPli
    recoveryDue := if p.kind = 3 ∨ (key ∧ p.cause ≠ 4) then false else x.recoveryDue
    lastKey := if key then beat else x.lastKey
    lastSurface := match surface with | some t => some t | none => x.lastSurface
    latched := x.latched.filter (fun q => decide (beat < q.1))
    tilesDone := x.tilesDone.filter (fun q => q.beat != beat)
    repeatNext := false
    signals := some sx
    rate := Config.rateNext x.rate [p.kind, c.bits, c.rows, c.total, c.satd, sx.qp, x.cfg.fullnessAfter x.fullness c.bits]
    ctrs := { k with frames := k.frames + 1, key := if key then k.key + 1 else k.key, recovery := if p.kind = 3 then k.recovery + 1 else k.recovery, repeats := if p.kind = 2 then k.repeats + 1 else k.repeats, truncated := if c.truncated then k.truncated + 1 else k.truncated, skippedRows := k.skippedRows + BitVec.ofNat 64 (c.total - c.rows) } }

/-- The windows that the leg's units hold after a frame (R208). -/
def State.keepWindows (s : State) (c : EncodeCfg) (ws : List MotionWindow) : State :=
  { s with video := { s.video with windows := ((encodeUnits c).zip ws).foldl (fun t p => t.put p.1 p.2) s.video.windows } }

/-- A frame of a leg is coded (R203 to R218): the state, the record's bytes after the first 48, and the frame's units. -/
def State.codeFrame (s : State) (id : Nat) (beat : Instant) (incomplete : Bool) (poison : List (Nat × Nat)) : State × List Nat × List (List Byte) :=
  match s.encode id with
  | none => (s, [], [])
  | some x =>
    let c := x.cfg
    let input := encodeInput s x beat incomplete
    let reason := match input with | .ok _ => 0 | .error r => r
    let p := x.plan beat (reason != 0)
    let ceiling := x.ceiling
    let frame := x.coded % 2 ^ 32
    let top := if c.qpMax = 0xFF then qpTop c.codec else c.qpMax
    let qp := max c.qpMin (min top (Config.rateControlQp x.rate))
    let sx := x.signal p qp
    let cd := codeFrameOf c { sx := sx, source := framePicture s id x poison input, ref := x.refPicture p, half := 4 * c.bitstreamBytes, isRepeat := p.kind == 2 }
      (c.tileCeiling ceiling)
    let surface := match input with | .ok q => some q.completed | .error _ => none
    let y := x.afterFrame beat p sx surface cd
    let s1 := (s.setEncode id y).keepWindows c cd.windows
    let s2 := if cd.truncated then s1.encodeEvent id frame 0x0001 (dBits 40 16 cd.rows + dBits 24 16 cd.total) else s1
    let s3 := if p.kind = 2 then s2.repeatEvent id frame reason else s2
    let s4 := if p.kind = 1 then s3.encodeEvent id frame 0x0003 (dCode 48 8 p.cause) else s3
    let flags := b2n cd.truncated + 2 * b2n (reason == 1) + 4 * b2n (incomplete || x.repeatNext) + 8 * b2n (reason == 3) +
      16 * b2n (p.kind == 1 && x.keySize) + 32 * b2n c.gang
    (s4, [id, frame, p.kind, flags, qp, p.ref * 16 + p.refresh, cd.rows, cd.total, cd.bits, (ceiling % (2 ^ 32 : Nat)).toNat, y.fullness,
          sat 32 (cd.satd / 16), if x.coded % 2 = 0 then 0 else c.bitstreamBytes / 2, ceilDiv cd.bits 8,
          match input with | .ok q => timeRaw q.beat | .error _ => 0], cd.units)

/-- An instance posts its record; the die-sourced contexts then packetise the frame (R89, R218). -/
def State.postFrame (s : State) (die id : Nat) (i : Inst) (rest : List Nat) (units : List (List Byte)) : State :=
  let s1 := s.complete die i rest
  match s.encode id with
  | some x => if rest.isEmpty then s1 else s1.sendVideo x.bitstream units (nth rest 2 0 == 1) (videoTs i.beat)
  | none => s1

/-- A leg's tiles all ran with their inputs (R211). -/
def EncodeLeg.gangWhole (x : EncodeLeg) (beat : Instant) : Bool :=
  (List.range 4).all (fun k => x.tilesDone.any (fun d => d.beat == beat && d.tile == k && !d.incomplete))

/-- The record of a frame whose tiles GANG_FINISH discards (R211). -/
def EncodeLeg.discardRec (x : EncodeLeg) (id : Nat) : List Nat :=
  [id, (x.coded + 2 ^ 32 - 1) % 2 ^ 32, 2, 4 + 32, 0, 0xF0, 0, 0, 0, (x.ceiling % (2 ^ 32 : Nat)).toNat, x.fullness, 0, 0, 0, 0]

/-- A memory leg's unit latches the newest surface complete at its beat (R202). -/
def State.encodeLatch (s : State) (id : Nat) (beat : Instant) : State :=
  match s.encode id with
  | none => s
  | some x =>
    if x.cfg.memory && !(x.latched.any (fun p => p.1 == beat)) then
      match (if s.readable x.cfg.source (objDie id) then latch s x.cfg.source beat else none) with
      | some p => s.setEncode id { x with latched := (beat, p) :: x.latched }
      | none => s
    else s

/-- An encode of a leg's frame, or of tile k of a gang's, completes. -/
def State.encodeDone (s : State) (die id k : Nat) (i : Inst) (poison : List (Nat × Nat)) : State :=
  let s1 := s.takeScoped (.encoding id) i.beat
  match s1.encode id with
  | none => s1.complete die i []
  | some x =>
    if x.cfg.gang then
      (s1.setEncode id { x with tilesDone := x.tilesDone ++ [{ beat := i.beat, tile := k, incomplete := i.inputsIncomplete, poison := poison }] }).complete die i []
    else
      let (s2, rest, units) := s1.codeFrame id i.beat i.inputsIncomplete poison
      s2.postFrame die id i rest units

/-- A gang's frame is assembled, or discarded where one of its tiles ran without its input (R211). -/
def State.gangDone (s : State) (die id : Nat) (i : Inst) (poison : List (Nat × Nat)) : State :=
  match s.encode id with
  | none => s.complete die i []
  | some x =>
    if x.gangWhole i.beat then
      let words := ((x.tilesDone.filter (fun d => d.beat == i.beat)).map (·.poison)).flatten ++ poison
      let (s2, rest, units) := s.codeFrame id i.beat false words
      s2.postFrame die id i rest units
    else (s.setEncode id { x with repeatNext := true, tilesDone := x.tilesDone.filter (fun q => q.beat != i.beat) }).complete die i (x.discardRec id)

/-- ENCODE_TASK (R201 to R218): an encode completes. `poison` lists source words that were delivered with a poison tag. -/
def execEncodeTask (dt die inst : Nat) (haps : List Hap) (poison : List (Nat × Nat)) (s0 : State) : Out :=
  let s := s0.advance dt
  if !s.dieUp die then .next s
  else match s.inService die inst with
    | none => .next s
    | some i =>
      match i.desc.op with
      | .encode id k => .next ((s.haps haps).onEncode id i.beat (fun t => (t.encodeDone die id k i poison, ()))).1
      | _ => .next s

/-- GANG_FINISH (R211): a ganged frame is assembled. -/
def execGangFinish (dt die inst : Nat) (haps : List Hap) (poison : List (Nat × Nat)) (s0 : State) : Out :=
  let s := s0.advance dt
  if !s.dieUp die then .next s
  else match s.inService die inst with
    | none => .next s
    | some i =>
      match i.desc.op with
      | .gangFinish id => .next ((s.haps haps).onEncode id i.beat (fun t => (t.gangDone die id i poison, ()))).1
      | _ => .next s

/- Commands. -/

/-- The charge of a unit in pixels per second (R205). -/
def unitCharge (s : State) (u : Nat) : Nat :=
  sumN (s.video.encodes.map (fun p =>
    sumN (((List.range (encodeUnits p.2.cfg).length).filter (fun k => nth (encodeUnits p.2.cfg) k 0 == u)).map
      (fun k => tilePx p.2.cfg k * p.2.cfg.frameRate))))

/-- Legs on a unit. -/
def unitLegs (s : State) (u : Nat) : List (Nat × EncodeLeg) := s.video.encodes.filter (fun p => (encodeUnits p.2.cfg).contains u)

/-- The latest encode end of the beat model, in ns from the beat (R206). -/
def modelledEnd (s : State) (u : Nat) : Nat :=
  let raws := clusterRaws s (clusterNo u)
  let mine := raws.filter (fun r => r.desc.unit == u && r.desc.op != .testWindow)
  let beats := dedup (mine.map Raw.beats).flatten
  maxN (beats.map (fun t => encodeModel (composeEnds (raws.filter (fun r => r.fires t)) 0) (legSourceOf s) (mine.filter (fun r => r.fires t)) 0))

def encodeCfgOf (e : Env) : EncodeCfg :=
  { unit := e.at 0, source := e.at 1, memory := e.at 2 == 1, codec := e.at 3, profile := e.at 4, frameRate := e.at 5, codedWidth := e.at 6,
    codedHeight := e.at 7, targetKbps := e.at 8, bufferMs := e.at 9, rotation := e.at 10, filterSet := e.at 11, maxFrameBytes := e.at 12,
    keyInterval := e.at 13, ltrInterval := e.at 14, minKeyGapMs := e.at 15, qpMin := e.at 16, qpMax := e.at 17, autoKey := (e.at 18).testBit 0,
    gang := (e.at 18).testBit 1, bitstreamBytes := e.at 19,
    gangUnits := if (e.at 18).testBit 1 then [e.at 20, e.at 21, e.at 22] else [] }

/-- The output that a leg's source names. -/
def sourceOutput (s : State) (c : EncodeCfg) : Option (Nat × Output) :=
  s.video.outputs.find? (fun p => if c.memory then c.source != 0 && p.2.memoryPair == c.source else p.1 == c.source)

def sourceDims (s : State) (c : EncodeCfg) : Nat × Nat :=
  match sourceOutput s c with | some p => (p.2.cfg.width, p.2.cfg.height) | none => (0, 0)

/-- The codec and profile pairs of Table 9.1. -/
def encodeSupported (codec profile : Nat) : Bool :=
  (codec == 1 && profile == 0) || (codec == 3 && profile == 1) || (codec == 4 && (profile == 100 || profile == 66))

/-- A side of the coded picture (R199). -/
def EncodeCfg.sideOk (c : EncodeCfg) (v : Nat) : Bool := v % 2 == 0 && (if c.gang then decide (1 ≤ v ∧ v ≤ 3840) else decide (64 ≤ v ∧ v ≤ 1920))

/-- The limits of R199 and the ratios of R207. -/
def EncodeCfg.sizeOk (c : EncodeCfg) (src : Nat × Nat) : Bool :=
  let (w, h) := (c.codedWidth, c.codedHeight)
  let sz := c.scaled
  c.sideOk w && c.sideOk h && decide (w * h ≤ if c.gang then 8355840 else 2088960) &&
  decide (sz.1 ≤ src.1 ∧ src.1 ≤ 2 * sz.1 ∧ sz.2 ≤ src.2 ∧ src.2 ≤ 2 * sz.2)

/-- Bytes of a leg's input surface and of its reference pair (R209). -/
def inputBytes (src : Nat × Nat) : Nat := surfaceBytes src.1 src.2 8
def EncodeCfg.refBytes (c : EncodeCfg) : Nat := 2 * surfaceBytes c.codedWidth c.codedHeight 8

/-- Half of the bitstream buffer holds at least two rows at 16 bits per luma sample (R220). -/
def EncodeCfg.halfOk (c : EncodeCfg) : Bool := decide (2 * (2 * c.codedWidth * rowHeight c.codec) ≤ c.bitstreamBytes / 2)

/-- The units of a gang lie in one quadrant, are four, and belong to no other gang (R210); its source is a memory pair. -/
def gangOk (s : State) (c : EncodeCfg) : Bool :=
  let us := encodeUnits c
  c.memory && distinct us && us.all (fun u => siteDie u == siteDie c.unit && siteQuad u == siteQuad c.unit) &&
  !(s.video.encodes.any (fun p => p.2.cfg.gang && us.any (fun u => (encodeUnits p.2.cfg).contains u)))

def encodeId (e : Env) : Nat := lowestFree (e.used (fun s => s.video.encodes.keys)) (siteDie (e.at 0) * 2 ^ 11)

def encodeNew (e : Env) : EncodeLeg :=
  let d := siteDie (e.at 0)
  { cfg := encodeCfgOf e, bitstream := e.all.mem.nextHandle 0x08 d, inputHandle := e.all.mem.nextHandle 0x06 d, refHandle := e.all.mem.nextHandle 0x07 d, params := e.all.mem.nextHandle 0x0B d,
    level := let c := encodeCfgOf e; levelOf c.codec c.codedWidth c.codedHeight c.frameRate }

/-- Entries of a leg. -/
def encodeBlocks (c : EncodeCfg) : Nat := (encodeUnits c).length + b2n c.gang

def encodeCreateStage (e : Env) : List (Scope × Change) :=
  let x := encodeNew e
  let q := siteQuad (e.at 0)
  [ (.instant, .video (.encodeCreate (encodeId e) x)),
    (.instant, .mem (.alloc x.bitstream x.cfg.bitstreamBytes q)),
    (.instant, .mem (.alloc x.inputHandle (inputBytes (sourceDims e.vw x.cfg)) q)),
    (.instant, .mem (.alloc x.refHandle x.cfg.refBytes q)) ] ++ allocParams x.params (encodeBlocks x.cfg)

/-- The site checks of a gang's further units; a leg that is not a gang names none. -/
def gangSiteChecks (e : Env) : List (Bool × Err) :=
  if (e.at 18).testBit 1 then ((List.range 3).map (fun k => e.vw.siteChecks (e.at (20 + k)) (isEnc (e.at (20 + k))) (44 + 4 * k))).flatten
  else []

def encodeCreateDef : CmdDef where
  opcode := 0x0701
  fields := [fN 4, fN 4, fN 1, fN 1, fN 1, fN 1, fN 2, fN 2, fN 4, fD 2 200, fD 1 0, fD 1 0, fD 4 0, fD 2 0, fD 2 0, fD 2 1000, fD 1 0,
             fD 1 0xFF, fFD 1 3 0, fRD 3, fD 4 1048576, fD 4 noSite, fD 4 noSite, fD 4 noSite]
  checks := fun e =>
    let c := encodeCfgOf e
    let src := sourceOutput e.vw c
    let rate := match src with | some p => p.2.cfg.frameRate | none => 1
    let top := qpTop c.codec
    let space := c.bitstreamBytes + inputBytes (sourceDims e.vw c) + c.refBytes
    e.vw.siteChecks c.unit (isEnc c.unit) 0 ++ gangSiteChecks e ++
    [ needsSt (src.isSome || decide (2 ≤ e.at 2)) .notFound 4,
      range (e.at 2) 0 1 8,
      needsSt (encodeSupported c.codec c.profile) .codecUnsupported 9,
      needsSt (decide (1 ≤ c.frameRate ∧ c.frameRate ≤ 120)) .sizeUnsupported 11,
      needsSt (c.sideOk c.codedWidth) .sizeUnsupported 12,
      needsSt (c.sideOk c.codedHeight) .sizeUnsupported 14,
      range c.targetKbps 16 400000 16,
      range c.bufferMs 20 5000 20,
      range c.rotation 0 3 22,
      range c.filterSet 0 15 23,
      needs (c.maxFrameBytes == 0 || decide (512 ≤ c.maxFrameBytes ∧ c.maxFrameBytes ≤ 4194304)) 24,
      range c.minKeyGapMs 0 10000 32,
      range c.qpMin 0 top 34,
      needs (c.qpMax == 0xFF || decide (c.qpMax ≤ top)) 35,
      needs (decide (65536 ≤ c.bitstreamBytes ∧ c.bitstreamBytes ≤ 16777216) && c.bitstreamBytes % 4096 == 0) 40,
      needs (c.gang || e.at 20 == noSite) 44, needs (c.gang || e.at 21 == noSite) 48, needs (c.gang || e.at 22 == noSite) 52,
      needsSt (!(c.gang && c.codec == 4)) .codecUnsupported 36,
      needsSt (c.sizeOk (sourceDims e.vw c)) .sizeUnsupported 12,
      needsD ((List.range (encodeUnits c).length).all (fun k =>
        decide (unitCharge e.vw (nth (encodeUnits c) k 0) + tilePx c k * c.frameRate ≤ 250000000))) .encodeCapacity 1,
      needsD ((encodeUnits c).all (fun u => decide ((unitLegs e.vw u).length < 16)) && decide (encodeId e % 2 ^ 11 < 512)) .encodeCapacity 2,
      needsD (decide (space ≤ e.vw.mem.room .encode (siteDie c.unit) (siteQuad c.unit))) .encodeCapacity 3,
      needsSt (!c.gang || gangOk e.vw c) .gangUnavailable 44,
      needs (c.memory || (match src with
        | some p => p.2.cfg.encoder != 0xFF && unitSite (clusterNo p.2.cfg.unit) (2 + p.2.cfg.encoder) == c.unit && (directLeg e.vw p.1).isNone
        | none => false)) 4,
      needs (if c.memory then rate % (max 1 c.frameRate) == 0 else rate == c.frameRate) 11,
      needs (decide (c.qpMin ≤ c.qpMax)) 34,
      needs c.halfOk 40 ] ++
    e.tables (encodeCreateStage e)
  effect := fun e =>
    let x := encodeNew e
    { result := beBytes 4 (encodeId e) ++ beBytes 4 x.bitstream ++ beBytes 4 (encodeService x.cfg 0), stage := encodeCreateStage e }

/-- CMD_ENCODE_CREATE (R197 to R210, R220, Table 9.6). -/
def execCmdEncodeCreate (r : CmdRef) (b : List Byte) (s : State) : Out := runCmd encodeCreateDef r b s

def vwEncode (e : Env) : EncodeLeg := (e.vw.encode (e.at 0)).getD {}

def encodeDeleteStage (e : Env) : List (Scope × Change) :=
  let x := vwEncode e
  [ (.instant, .video (.encodeDelete (e.at 0))), (.instant, .mem (.free x.bitstream)), (.instant, .mem (.free x.inputHandle)),
    (.instant, .mem (.free x.refHandle)) ] ++ freeParams x.params (encodeBlocks x.cfg)

def encodeDeleteDef : CmdDef where
  opcode := 0x0702
  fields := [fN 4]
  checks := fun e =>
    [ needsSt (e.vw.video.encodes.has (e.at 0)) .notFound 0, needs (!streamNames e.vw (vwEncode e).bitstream) 0 ] ++
    e.tables (encodeDeleteStage e)
  effect := fun e => { stage := encodeDeleteStage e }

/-- CMD_ENCODE_DELETE (R220, R403). -/
def execCmdEncodeDelete (r : CmdRef) (b : List Byte) (s : State) : Out := runCmd encodeDeleteDef r b s

/-- A field that a value keeps. -/
def keepUnless (keep v : Nat) : Option Nat := if v = keep then none else some v

/-- What a CMD_ENCODE_SET sets (Table 9.7), with new surfaces where the coded size or the rotation changes. -/
def encodePatchOf (e : Env) : EncodePatch :=
  let c := (vwEncode e).cfg
  let w := if e.at 2 = 0 then c.codedWidth else e.at 2
  let h := if e.at 3 = 0 then c.codedHeight else e.at 3
  let rot := if e.at 5 = 0xFF then c.rotation else e.at 5
  let d := objDie (e.at 0)
  { targetKbps := keepUnless 0 (e.at 1), codedWidth := keepUnless 0 (e.at 2), codedHeight := keepUnless 0 (e.at 3), bufferMs := keepUnless 0 (e.at 4),
    rotation := keepUnless 0xFF (e.at 5), maxFrameBytes := keepUnless 0xFFFFFFFF (e.at 7), keyInterval := keepUnless 0xFFFF (e.at 8),
    ltrInterval := keepUnless 0xFFFF (e.at 9), qpMin := if (e.at 6).testBit 0 then some (e.at 10) else none,
    qpMax := if (e.at 6).testBit 1 then some (e.at 11) else none,
    fresh := if w = c.codedWidth ∧ h = c.codedHeight ∧ rot = c.rotation then none
             else some (e.all.mem.nextHandle 0x06 d, e.all.mem.nextHandle 0x07 d) }

def encodeSetStage (e : Env) : List (Scope × Change) :=
  let x := vwEncode e
  let p := encodePatchOf e
  let y := x.patch p
  let q := siteQuad x.cfg.unit
  (.encoding (e.at 0), .video (.encodeSet (e.at 0) p)) ::
  (match p.fresh with
   | none => []
   | some (i, r) =>
     [ (.instant, .mem (.alloc i (inputBytes (sourceDims e.vw y.cfg)) q)), (.instant, .mem (.alloc r y.cfg.refBytes q)),
       (.encoding (e.at 0), .mem (.free x.inputHandle)), (.encoding (e.at 0), .mem (.free x.refHandle)) ])

def encodeSetDef : CmdDef where
  opcode := 0x0703
  fields := [fN 4, fD 4 0, fD 2 0, fD 2 0, fD 2 0, fD 1 0xFF, fFD 1 3 0, fD 4 0xFFFFFFFF, fD 2 0xFFFF, fD 2 0xFFFF, fD 1 0, fD 1 0, fRD 2]
  checks := fun e =>
    let x := vwEncode e
    let p := encodePatchOf e
    let c := (x.patch p).cfg
    let top := qpTop c.codec
    let aft := e.after (encodeSetStage e)
    let space := if p.fresh.isSome then inputBytes (sourceDims e.vw c) + c.refBytes else 0
    [ needsSt (e.vw.video.encodes.has (e.at 0)) .notFound 0,
      needs (e.at 1 == 0 || decide (16 ≤ e.at 1 ∧ e.at 1 ≤ 400000)) 4,
      needsSt (c.sideOk c.codedWidth) .sizeUnsupported 8,
      needsSt (c.sideOk c.codedHeight) .sizeUnsupported 10,
      needs (e.at 4 == 0 || decide (20 ≤ e.at 4 ∧ e.at 4 ≤ 5000)) 12,
      needs (e.at 5 == 0xFF || decide (e.at 5 ≤ 3)) 14,
      needs (e.at 7 == 0xFFFFFFFF || e.at 7 == 0 || decide (512 ≤ e.at 7 ∧ e.at 7 ≤ 4194304)) 16,
      needs (!(e.at 6).testBit 0 || decide (e.at 10 ≤ top)) 24,
      needs (!(e.at 6).testBit 1 || e.at 11 == 0xFF || decide (e.at 11 ≤ top)) 25,
      needsSt (c.sizeOk (sourceDims e.vw c)) .sizeUnsupported 8,
      needsD ((encodeUnits c).all (fun u => decide (unitCharge aft u ≤ 250000000))) .encodeCapacity 1,
      needsD (decide (space ≤ e.vw.mem.room .encode (siteDie c.unit) (siteQuad c.unit))) .encodeCapacity 3,
      needs (decide (c.qpMin ≤ c.qpMax)) 24,
      needs c.halfOk 8 ] ++
    e.tables (encodeSetStage e)
  effect := fun e => { result := beBytes 4 (encodeService ((vwEncode e).patch (encodePatchOf e)).cfg 0), stage := encodeSetStage e }

/-- CMD_ENCODE_SET (R215, R220, Table 9.7). -/
def execCmdEncodeSet (r : CmdRef) (b : List Byte) (s : State) : Out := runCmd encodeSetDef r b s

def encodeModeDef (mode : Nat) : CmdDef where
  opcode := 0x0704
  fields := [fN 4, fN 1, fR 3]
  mine := selects 4 mode 2
  checks := fun e => [ needsSt (e.vw.video.encodes.has (e.at 0)) .notFound 0, range (e.at 1) 0 1 4 ]
  effect := fun e => { stage := [(.encoding (e.at 0), .video (if mode = 0 then .encodeKey (e.at 0) else .encodeRecovery (e.at 0)))] }

def encodeKeyframeDef : CmdDef := encodeModeDef 0

/-- CMD_ENCODE_KEYFRAME in mode 0 (R216). -/
def execCmdEncodeKeyframe (r : CmdRef) (b : List Byte) (s : State) : Out := runCmd encodeKeyframeDef r b s

def encodeRecoveryDef : CmdDef := encodeModeDef 1

/-- CMD_ENCODE_KEYFRAME in mode 1: a recovery frame (R216). -/
def execCmdEncodeRecovery (r : CmdRef) (b : List Byte) (s : State) : Out := runCmd encodeRecoveryDef r b s

/-- The result of Table 9.8. -/
def encodeStatus (x : EncodeLeg) : List Byte :=
  let k := x.ctrs
  beBytes 4 ((x.coded + 2 ^ 32 - 1) % 2 ^ 32) ++ beBytes 4 x.fullness ++ beInt 4 x.ceiling ++ beBytes 2 x.cfg.codedWidth ++
  beBytes 2 x.cfg.codedHeight ++ (([k.frames, k.key, k.recovery, k.repeats, k.truncated, k.skippedRows].map (fun c => beBytes 8 c.toNat)).flatten) ++
  timeBytes x.lastKey

def encodeStatusDef : CmdDef where
  opcode := 0x0705
  reads := true
  fields := [fN 4]
  checks := fun e => [ needsSt (e.vw.video.encodes.has (e.at 0)) .notFound 0 ]
  effect := fun e => { result := encodeStatus ((e.s.encode (e.at 0)).getD (vwEncode e)) }

/-- CMD_ENCODE_STATUS (Table 9.8). -/
def execCmdEncodeStatus (r : CmdRef) (b : List Byte) (s : State) : Out := runCmd encodeStatusDef r b s

def encodeLoadDef : CmdDef where
  opcode := 0x0706
  reads := true
  fields := [fN 4]
  checks := fun e => e.vw.siteChecks (e.at 0) (isEnc (e.at 0)) 0
  effect := fun e =>
    { result := beBytes 8 (unitCharge e.vw (e.at 0)) ++ beBytes 1 (unitLegs e.vw (e.at 0)).length ++
        beBytes 1 (b2n ((unitLegs e.vw (e.at 0)).any (fun p => p.2.cfg.gang))) ++ zeros 2 ++ beBytes 4 (modelledEnd e.vw (e.at 0)) }

/-- CMD_ENCODE_LOAD (R205, R206). -/
def execCmdEncodeLoad (r : CmdRef) (b : List Byte) (s : State) : Out := runCmd encodeLoadDef r b s

end Sys2Proof.Machine
end

