-- ==== Sys2Proof/Machine/Sched.lean ====
section
/-! DEFINITION. Escapements, triggers and the scheduler: walks, starts, expiry, test windows, and the commands of the range 0x01xx
(03_escapement_and_tasks.md, R302).
Corners of escapements and tasks: DEDUCED (log entries 19, 21 to 24). -/

namespace Sys2Proof.Machine

/- The tables at a beat (R64, R65). -/

/-- Staged changes of accepted packets that a walk of the beat t takes. -/
def State.stagedBy (s : State) (t : Instant) : List Staged := s.staged.filter (fun x => x.eff.isSome && decide (x.beat ≤ t))

/-- The configuration in force at a walk of beat t. -/
def State.configAt (s : State) (t : Instant) : State := applyAll (((byEff (s.stagedBy t)).map (·.change)).filter Change.isConfig) s

/-- The bank that a walk of beat t uses: where a change that later beats take has already taken effect, the table before it (R64). -/
def State.bankAt (s : State) (n : Nat) (t : Instant) : Bank :=
  match (s.esc n).held.find? (fun p => decide (t < p.1)) with
  | some p => p.2
  | none => compileCluster (s.configAt t) n

/-- The clusters that a change touches, by the objects in force or by those that accepted packets, or its own, are still to make. -/
def State.clustersOf (s : State) (c : Change) : List Nat :=
  let conf := fun (l : List Staged) => ((byEff l).map (·.change)).filter Change.isConfig
  let t := applyAll (conf (s.staged.filter (fun x => x.eff.isSome))) s
  dedup (c.clusters s ++ c.clusters t ++ c.clusters (applyAll (conf (s.staged.filter (fun x => x.eff.isNone))) t))

/-- Instants from which the beats of a cluster take what is pending: of staged changes that touch it, and of changes that have taken
effect and that no walk has taken yet. -/
def State.pendingBeats (s : State) (n : Nat) : List Instant :=
  ((s.staged.filter (fun x => x.eff.isSome && (s.clustersOf x.change).contains n)).map (·.beat)) ++ ((s.esc n).held.map (·.1))

/-- The beat of a cluster's next walk: the next one of the active bank, or an earlier one of a bank that is pending (R63, R64). -/
def State.nextWalk (s : State) (n : Nat) : Option Instant :=
  let e := s.esc n
  earliest ((nextBeat e.active.slots e.lastBeat).toList ++
    (s.pendingBeats n).filterMap (fun t => let u := max t (e.lastBeat + 1); firstBeat (s.bankAt n u).slots u))

/-- Global index of a beat on the first slot that has it. -/
def Bank.beatIndex (b : Bank) (t : Instant) : Nat := match b.slots.find? (fun g => g.isBeat t) with | some g => g.indexOf t | none => 0

/-- The carried counts after a bank swap (R70): each stays with its task; the counts of removed tasks are discarded. -/
def movedCounts (old new : Bank) (carried : Tab Nat) : Tab Nat × Nat :=
  carried.foldl (fun a p =>
    match (old.entries[p.1]?).bind (fun d => new.entries.findIdx? (fun x => x.op == d.op && x.unit == d.unit)) with
    | some j => (a.1.put j p.2, a.2)
    | none => (a.1, a.2 + p.2)) ([], 0)

/-- Decode entries that the new bank adds, with the notices of their streams that are still to be taken: an access unit released before
its stream's entry came into force is not lost (R160, R163). -/
def State.earlyNotices (s : State) (old new : Bank) : List (Nat × Nat) :=
  ((List.range new.entries.length).zip new.entries).filterMap (fun p =>
    match p.2.op with
    | .decode id =>
      let k := match s.decode id with | some x => x.backlog.length | none => 0
      if k = 0 ∨ old.entries.any (fun d => d.op == .decode id) then none else some (p.1, k)
    | _ => none)

/-- The escapement swaps banks before the walk of beat t, when the shadow differs from the active bank (R64, R65). BANK_SWAP names no entry
(R80 gives none: the field is 0, DESIGN CHOICE, log entry 70). -/
def State.swapBank (s : State) (n : Nat) (t : Instant) : State :=
  let e := s.esc n
  let new := s.bankAt n t
  let kept_ := e.held.filter (fun p => decide (t < p.1))
  if new = e.active then s.setEsc n { e with held := kept_ }
  else
    let (kept, lost) := movedCounts e.active new e.carried
    let killed := e.killed.filterMap (fun p => ((movedCounts e.active new [(p.1, 1)]).1.head?).map (fun q => (q.1, p.2)))
    let s1 := s.setEsc n { e with activeBank := 1 - e.activeBank, active := new, carried := kept, killed := killed, held := kept_ }
    let s2 := s1.book (clusterDie n) (fun b => { b with carriedAdded := b.carriedAdded - lost, discarded := b.discarded + lost })
    let s3 := (s.earlyNotices e.active new).foldl (fun (a : State) p =>
      (a.carry n p.1 p.2).book (clusterDie n) (fun b => { b with sent := b.sent + p.2, carriedAdded := b.carriedAdded + p.2 })) s2
    let i := if new.slots.any (fun g => g.isBeat t) then new.beatIndex t else e.active.beatIndex t
    s3.escEvent s.now n 0x0004 0 (i % 2 ^ 32)

/- Issue (R63, R69, R70, R77). -/

/-- Instances in a unit's ready queue. -/
def Pool.queued (p : Pool) (u : Nat) : Nat := (p.insts.filter (fun i => i.desc.unit == u && i.phase == .ready)).length

/-- Entries that one walk issues, in order. -/
def Bank.firing (b : Bank) (t : Instant) : List ToIssue :=
  (((List.range b.segments.length).zip b.segments).filter (fun p => b.firesAt p.2 t)).map
    (fun p => (List.range p.2.count).map (fun k => ({ seg := p.1, entry := p.2.first + k } : ToIssue))) |>.flatten

/-- Why an entry cannot be issued: 0 it can, 1 no free slot, 2 its unit's ready queue is full. -/
def State.stallOf (s : State) (n entry : Nat) (d : Descriptor) : Nat :=
  let p := s.pool (clusterDie n)
  let count := d.depCount - (s.esc n).carried.getD entry 0
  if poolSlots ≤ p.insts.length then 1
  else if count = 0 ∧ d.unit ≠ noUnit ∧ d.op ≠ .mix ∧ readyDepth ≤ p.queued d.unit then 2
  else 0

/-- Issue one entry for the beat t at instant `at_` (R63, R70, R76, R79). -/
def State.issue (s : State) (n : Nat) (x : ToIssue) (d : Descriptor) (t at_ : Instant) : State :=
  let die := clusterDie n
  let e := s.esc n
  let c := e.carried.getD x.entry 0
  let count := d.depCount - c
  let left := c - d.depCount
  let b := e.active
  let g := b.segments.getD x.seg default
  let p := s.pool die
  let i0 : Inst := { id := p.nextInst, cluster := n, entry := x.entry, seg := x.seg, grid := b.slots.getD g.slot .audio, desc := d, beat := t, nextBeat := b.nextOf g t, count := count, noticePending := d.notice && decide (0 < count), issued := at_ }
  let armed := e.trace.state == 1 && e.trace.entry == x.entry
  let i := if count = 0 then i0.makeReady at_ else i0
  let tr := if armed then { e.trace with state := 2, inst := i.id, beat := t, issued := at_, ready := if count = 0 then at_ else 0, started := if count = 0 ∧ d.op = .mix then at_ else 0 } else e.trace
  let s1 := s.setEsc n { e with carried := if left = 0 then e.carried.del x.entry else e.carried.put x.entry left, killed := e.killed.filter (· != (x.entry, t)), trace := tr }
  let s2 := s1.setPool die { p with insts := p.insts ++ [i], nextInst := p.nextInst + 1, peak := max p.peak (p.insts.length + 1) }
  if count = 0 then
    if d.op = .join then
      let (s3, ds) := s2.finishJoin die i at_
      s3.decrement die decrFuel ds
    else s2
  else if i.deadline < at_ ∨ e.killed.contains (x.entry, t) then
    let (s3, ds) := s2.expireNow die i at_
    s3.decrement die decrFuel ds
  else s2

/-- Issue entries until the walk ends or stalls (R77). One entry is issued each nanosecond; k counts them. -/
def State.issueAll (n : Nat) (t : Instant) : List ToIssue → Nat → State → State
  | [], k, s => s.modEsc n (fun e => { e with stalled := [], walkEnd := s.now + ns k })
  | x :: rest, k, s =>
    match (s.esc n).active.entries[x.entry]? with
    | none => State.issueAll n t rest k s
    | some d =>
      if s.stallOf n x.entry d ≠ 0 then s.modEsc n (fun e => { e with stalled := x :: rest, stallBeat := t })
      else State.issueAll n t rest (k + 1) (s.issue n x d t (wholeNs s.now + ns k))

/-- A stall that has just begun is counted by its cause (Table 3.9). -/
def State.countStall (s : State) (n : Nat) : State :=
  match (s.esc n).stalled with
  | [] => s
  | x :: _ =>
    match (s.esc n).active.entries[x.entry]? with
    | none => s
    | some d =>
      if s.stallOf n x.entry d = 1 then s.modPool (clusterDie n) (fun p => { p with poolStalls := bump32 p.poolStalls })
      else s.modPool (clusterDie n) (fun p => { p with queueStalls := bump32 p.queueStalls })

/-- The walk of a cluster has ended: the walks that a stall delays go on to be late (R77). -/
def State.markLate (s : State) (n : Nat) (late : Bool) : State :=
  s.modEsc n (fun e => if late && e.stalled.isEmpty then { e with stallEnd := e.walkEnd } else e)

/-- ESCAPEMENT_WALK (R63 to R65, R70, R77): a cluster's escapement walks its next beat, not before the issue instant, and not
before the walk of the previous beat has ended. A walk that a stall has delayed raises ISSUE_LATE, whose entry field is 0 where no entry fires
(R80 names none: DESIGN CHOICE, log entry 70). -/
def execEscapementWalk (dt cluster : Nat) (s0 : State) : Out :=
  let s := s0.advance dt
  if !(s.serving && (s.esc cluster).stalled.isEmpty) then .next s
  else match s.nextWalk cluster with
    | none => .next s
    | some t =>
      let due := t - walkLead
      if !s.dieUpBy (clusterDie cluster) t || decide (s.now < due) || decide (s.now < (s.esc cluster).walkEnd) then .next s
      else
        let s1 := (s.swapBank cluster t).modEsc cluster (fun e => { e with lastBeat := t })
        let work := (s1.esc cluster).active.firing t
        let late := decide (due < (s1.esc cluster).stallEnd)
        let s2 := if late then
            (s1.modEsc cluster (fun e => { e with issueLate := bump32 e.issueLate })).escEvent s.now cluster 0x0001 ((work.head?.map (·.entry)).getD 0) (nsOf (s.now - due))
          else s1
        .next (((State.issueAll cluster t work 0 s2).countStall cluster).markLate cluster late)

/-- ESCAPEMENT_RESUME (R77): a stalled walk goes on at the same entry once the condition has cleared. -/
def execEscapementResume (dt cluster : Nat) (s0 : State) : Out :=
  let s := s0.advance dt
  if !(s.serving && s.dieUp (clusterDie cluster)) then .next s
  else
    let e := s.esc cluster
    match e.stalled with
    | [] => .next s
    | x :: _ =>
      let free := match e.active.entries[x.entry]? with | some d => s.stallOf cluster x.entry d == 0 | none => true
      if !free then .next s
      else
        let s1 := State.issueAll cluster e.stallBeat e.stalled 0 s
        if (s1.esc cluster).stalled.isEmpty then .next (s1.markLate cluster true) else .next (s1.countStall cluster)

/- Triggers (R302). -/

/-- Lead of a trigger word. -/
def triggerLead : Instant := ns 10000

/-- The latest beat of a grid whose trigger has been released on a die. -/
def Pool.triggerOf (p : Pool) (g : Grid) : Option Instant := (p.triggered.find? (fun x => x.1 == g)).map (·.2)

/-- A grid runs in a package: the audio grid, or a video rate that a cluster of the package has bound. -/
def State.gridRuns (s : State) (pkg : Nat) (g : Grid) : Bool :=
  match g with
  | .audio => true
  | g => s.escs.any (fun e => pkgOfDie (clusterDie e.1) == pkg && e.2.active.slots.contains g)

/-- TRIGGER_WORD (R302): the time unit sends a media die the trigger word of a beat, at least 10,000 ns ahead and in beat order. Of a word with a
double-bit error the die uses the one that follows the previous word of the grid (R323). -/
def execTriggerWord (dt die kind rate index : Nat) (haps : List Hap) (s0 : State) : Out :=
  let s := s0.advance dt
  let g := gridOf kind rate
  let t := g.beatAt index
  let p := s.pool die
  let last := (p.words.filter (fun w => w.grid == g)).map (·.index)
  let old := match p.triggerOf g with | some u => decide (t ≤ u) | none => false
  if !(s.serving && s.dieUpBy die t && s.gridRuns (pkgOfDie die) g && decide (s.now + triggerLead ≤ t) && !old && last.all (fun j => decide (j < index))) then .next s
  else
    let spoiled := haps.any (fun h => match h with | .fifoUncorrected _ _ => true | _ => false)
    let before := match last.getLast? with | some j => some j | none => (p.triggerOf g).map (fun u => g.indexAtOrBefore u)
    let w : TriggerWord := match spoiled, before with
      | true, some j => { grid := g, index := j + 1, stamp := g.beatAt (j + 1) }
      | _, _ => { grid := g, index := index, stamp := t }
    .next ((s.haps haps).modPool die (fun q => { q with words := q.words ++ [w] }))

/-- A memory leg's unit latches its picture when the beat's trigger comes (R202). -/
def State.latchAll (s : State) (g : Grid) (t : Instant) (is : List Inst) : State :=
  is.foldl (fun u i => match i.desc.op with
    | .encode l _ => if i.beat = t ∧ i.grid = g then (u.onEncode l t (fun w => (w.encodeLatch l t, ()))).1 else u
    | _ => u) s

/-- The instant at which a die's replica reads a stamp plus 2 ns, from its error in 0.25 ns units. -/
def releaseAt (t : Instant) (err : Int) : Instant := (((t + ns 2 : Nat) : Int) - err * 16384).toNat

/-- A replica's error at t, in 0.25 ns: since its check it has been slewed by 1 ns per 1,000,000 ns, the most that R302 allows. -/
def Pool.replicaNow (p : Pool) (t : Instant) : Int :=
  let k : Int := ((t - p.replicaAt) / ns 250000 : Nat)
  if p.replicaErr < 0 then min 0 (p.replicaErr + k) else max 0 (p.replicaErr - k)

/-- BEAT_TRIGGER (R302): a die releases the oldest trigger word that it holds of a grid. -/
def execBeatTrigger (dt die kind rate : Nat) (s0 : State) : Out :=
  let s := s0.advance dt
  let g := gridOf kind rate
  let p := s.pool die
  match p.words.find? (fun w => w.grid == g) with
  | none => .next s
  | some w =>
    if !(s.serving && s.dieUp die && decide (releaseAt w.stamp (p.replicaNow w.stamp) ≤ s.now)) then .next s
    else
      let q := { p with words := p.words.filter (fun x => !(x.grid == g && x.index == w.index)), triggered := (g, w.stamp) :: p.triggered.filter (fun x => x.1 != g) }
      .next ((s.setPool die q).latchAll g w.stamp q.insts)

/- Starts (R71), expiry (R76), test windows (R78). -/

/-- The trigger of an instance's beat has reached its unit. -/
def Pool.reached (p : Pool) (i : Inst) : Bool := match p.triggerOf i.grid with | some t => decide (i.beat ≤ t) | none => false

/-- The unit serves a task, or is inside a test window, whose instance is then in service. -/
def Inst.serving (i : Inst) : Bool := match i.phase with | .inService _ => true | _ => false
def Pool.busy (p : Pool) (u : Nat) : Bool := p.insts.any (fun i => i.desc.unit == u && i.serving)

/-- An instance is ready and nothing but the order among its unit's instances keeps it from starting. -/
def Pool.startable (p : Pool) (i : Inst) : Bool :=
  i.phase == .ready && p.reached i && !p.busy i.desc.unit && (i.desc.flow == 0 || !p.insts.any (fun j => j.desc.flow == i.desc.flow && j.serving))

/-- The order of R71: earliest beat, lowest segment, lowest entry. -/
def Inst.before (i j : Inst) : Bool := decide (i.beat < j.beat ∨ (i.beat = j.beat ∧ (i.seg < j.seg ∨ (i.seg = j.seg ∧ i.entry < j.entry))))

/-- The instance is the one that its unit takes next. -/
def Pool.next (p : Pool) (i : Inst) : Bool :=
  p.startable i && p.insts.all (fun j => !(j.desc.unit == i.desc.unit && p.startable j && Inst.before j i))

/-- An instance starts: its stamp, and what its operation takes at the start. -/
def State.begin_ (s : State) (die : Nat) (i : Inst) : State :=
  let s1 := (s.modPool die (fun p => p.setInst { i with phase := .inService s.now })).traceInst i (fun t => { t with started := s.now })
  match i.desc.op with
  | .decode id => (s1.onDecode id i.beat (fun t => (t.decodeStart id, ()))).1
  | .encode l _ => (s1.onEncode l i.beat (fun t => (t.encodeLatch l i.beat, ()))).1
  | _ => s1

/-- TASK_START (R71): a unit takes its next ready instance. -/
def execTaskStart (dt die inst : Nat) (s0 : State) : Out :=
  let s := s0.advance dt
  if !(s.serving && s.dieUp die) then .next s
  else match (s.pool die).inst inst with
    | none => .next s
    | some i => if (s.pool die).next i && i.desc.op != .testWindow && !s.startsHeld die then .next (s.begin_ die i) else .next s

/-- TASK_EXPIRED (R76): the deadline of an instance whose count is above zero has passed. An arrival
stamped with the deadline itself comes first (R75), so the deadline is processed once its nanosecond is over. -/
def execTaskExpired (dt die inst : Nat) (s0 : State) : Out :=
  let s := s0.advance dt
  if !(s.serving && s.dieUp die) then .next s
  else match (s.pool die).inst inst with
    | none => .next s
    | some i =>
      if i.phase == .waiting && decide (0 < i.count) && decide (i.deadline < wholeNs s.now) then
        let (s1, ds) := s.expireNow die i i.deadline
        .next (s1.decrement die decrFuel ds)
      else .next s

/-- A BIST slice holds a unit's claim. -/
def sliceOn (s : State) (u : Nat) : Bool := (s.vcp.holder (.bistSlice u)).isSome

/-- A test window runs the slice of its unit. -/
def State.runSlices (s : State) (u : Nat) : State :=
  { s with start := { s.start with slices := s.start.slices.map (fun x => if x.target = u then { x with ran := true } else x) } }

/-- An audio unit runs with X alone (R225): during start-up, test and recovery of its die, and inside a test window whose slice tests its
Y memory. -/
def State.xAlone (s : State) (u : Nat) : Bool :=
  !s.dieUp (siteDie u) ||
  (s.start.slices.any (fun x => x.target == u && x.kind == 2) &&
    (s.pool (siteDie u)).insts.any (fun i => i.desc.unit == u && i.desc.op == .testWindow && (match i.phase with | .inService _ => true | _ => false)))

/-- TEST_WINDOW (R78): a test window starts on its unit. With a slice the unit is inside it for its whole length; without one it
ends at once. Given again once that length has passed, it ends. -/
def execTestWindow (dt die inst : Nat) (s0 : State) : Out :=
  let s := s0.advance dt
  if !(s.serving && s.dieUp die) then .next s
  else match (s.pool die).inst inst with
    | none => .next s
    | some i =>
      if i.desc.op != .testWindow then .next s
      else match i.phase with
        | .inService t => if t + ns i.desc.service ≤ s.now then .next (s.complete die i []) else .next s
        | _ =>
          if !(s.pool die).next i then .next s
          else
            let s1 := s.begin_ die i
            if sliceOn s i.desc.unit then .next (s1.runSlices i.desc.unit) else .next (s1.complete die { i with phase := .inService s.now } [])

/- Commands. -/

/-- Beats of the active bank whose issue instant has passed and that have not been walked, up to a bound. -/
def countBehind (gs : List Grid) (now : Instant) : Nat → Instant → Nat
  | 0, _ => 0
  | f + 1, t =>
    match nextBeat gs t with
    | none => 0
    | some u => if u - walkLead < now then 1 + countBehind gs now f u else 0

def gridWord : Option Grid → Nat
  | none => 0
  | some .audio => 2 ^ 24
  | some (.video f) => 2 * 2 ^ 24 + f * 2 ^ 16

/-- The result of Table 3.7. -/
def escStatus (s : State) (n : Nat) : List Byte :=
  let e := s.esc n
  beBytes 1 e.activeBank ++ beBytes 1 (countBehind e.active.slots s.now 255 e.lastBeat) ++ beBytes 2 e.active.entries.length ++
  beBytes 2 e.active.segments.length ++ zeros 2 ++ beBytes 4 e.issueLate ++ beBytes 4 e.expired ++ beBytes 4 e.overrun ++ zeros 4 ++
  ((List.range 8).map (fun k => beBytes 4 (gridWord e.active.slots[k]?))).flatten

def escStatusDef : CmdDef where
  opcode := 0x0101
  reads := true
  fields := [fN 4]
  checks := fun e => e.vw.siteChecks (e.at 0) (isMediaCluster (e.at 0)) 0
  effect := fun e => { result := escStatus e.s (clusterNo (e.at 0)) }

/-- CMD_ESCAPEMENT_STATUS (Table 3.7). -/
def execCmdEscapementStatus (r : CmdRef) (b : List Byte) (s : State) : Out := runCmd escStatusDef r b s

/-- Operation codes of the descriptors (Table 3.1). -/
def Op.code : Op → Nat
  | .join => 0x0101 | .testWindow => 0x0102 | .decode _ => 0x0501 | .compose _ => 0x0601 | .encode _ _ => 0x0701
  | .gangFinish _ => 0x0702 | .receive _ => 0x0801 | .send _ => 0x0802 | .mix => 0x0901

/-- A successor reference (Table 3.2). -/
def SuccRef.word (r : SuccRef) : Nat := 2 ^ 31 + b2n r.nextBeat * 2 ^ 30 + r.cluster * 2 ^ 25 + r.first * 2 ^ 15 + (r.count - 1) * 2 ^ 5

/-- A descriptor (Table 3.1). -/
def Descriptor.bytes (d : Descriptor) : List Byte :=
  beBytes 4 d.unit ++ beBytes 2 d.op.code ++ beBytes 1 d.depCount ++ beBytes 1 (b2n d.cancel + 2 * b2n d.notice + 4 * b2n d.record) ++
  beBytes 4 d.flow ++ beBytes 4 d.deadline ++ beBytes 4 d.service ++ beBytes 4 d.inHandle ++ beBytes 4 d.outHandle ++ beBytes 4 d.paramHandle ++
  ((List.range 8).map (fun k => beBytes 4 (match d.succ[k]? with | some r => r.word | none => 0))).flatten

def Segment.bytes (g : Segment) : List Byte :=
  beBytes 1 g.slot ++ beBytes 1 g.period ++ beBytes 1 g.phase ++ zeros 1 ++ beBytes 2 g.first ++ beBytes 2 g.count

/-- The first affected beats that are pending in a cluster (R65). -/
def State.affectedBeats (s : State) (n : Nat) : List Instant := (s.pendingBeats n).filterMap (fun t => firstBeat (s.bankAt n t).slots t)

/-- The bank that a read returns: the active one, or the shadow as R65 defines it, with every change of the earliest beat that is pending. -/
def readBank (s : State) (n bank : Nat) : Bank :=
  if bank = 0 then (s.esc n).active
  else match earliest (s.affectedBeats n) with
    | some b => s.bankAt n b
    | none => (s.esc n).active

def tableReadDef : CmdDef where
  opcode := 0x0102
  reads := true
  fields := [fN 4, fD 1 0, fD 1 0, fD 2 0, fD 2 16, fRD 2]
  checks := fun e =>
    let seg := e.at 2 == 1
    e.vw.siteChecks (e.at 0) (isMediaCluster (e.at 0)) 0 ++
    [ range (e.at 1) 0 1 4, range (e.at 2) 0 1 5, range (e.at 3) 0 (if seg then 63 else 1023) 6, range (e.at 4) 1 (if seg then 64 else 16) 8 ]
  effect := fun e =>
    let b := readBank e.s (clusterNo (e.at 0)) (e.at 1)
    let items := if e.at 2 = 1 then (page b.segments (e.at 3) (e.at 4)).map Segment.bytes else (page b.entries (e.at 3) (e.at 4)).map Descriptor.bytes
    { result := beBytes 2 items.length ++ zeros 2 ++ items.flatten }

/-- CMD_TABLE_READ (R65, R66, Table 3.8). -/
def execCmdTableRead (r : CmdRef) (b : List Byte) (s : State) : Out := runCmd tableReadDef r b s

def poolStatusDef : CmdDef where
  opcode := 0x0103
  reads := true
  fields := [fN 4]
  checks := fun e => e.vw.siteChecks (e.at 0) (isTp (e.at 0)) 0
  effect := fun e =>
    let d := siteDie (e.at 0)
    let p := e.s.pool d
    { result := beBytes 2 p.insts.length ++ beBytes 2 p.peak ++ beBytes 2 (poolBound e.s d) ++ zeros 2 ++ beBytes 4 p.poolStalls ++ beBytes 4 p.queueStalls,
      atOnce := [.sched (.peakReset d)] }

/-- CMD_POOL_STATUS (R69, Table 3.9). -/
def execCmdPoolStatus (r : CmdRef) (b : List Byte) (s : State) : Out := runCmd poolStatusDef r b s

/-- The trace's part of Table 3.10. An idle or armed trace shows no stamps (R79). -/
def Trace.bytes (t : Trace) : List Byte :=
  if t.state = 2 then
    beBytes 1 2 ++ beBytes 1 t.outcome ++ zeros 2 ++ timeBytes t.beat ++ timeBytes t.issued ++ timeBytes t.ready ++ timeBytes t.started ++ timeBytes t.completed
  else beBytes 1 t.state ++ zeros 83

def traceFields : List Fld := [fN 4, fN 2, fD 1 1, fRD 1]

def traceChecks (e : Env) : List (Bool × Err) :=
  e.vw.siteChecks (e.at 0) (isMediaCluster (e.at 0)) 0 ++ [ range (e.at 1) 0 1023 4, range (e.at 2) 0 1 6 ]

def traceArmDef : CmdDef where
  opcode := 0x0104
  fields := traceFields
  mine := fun b => actionAt 6 b == some 0
  checks := traceChecks
  effect := fun e => { result := beBytes 1 1 ++ zeros 83, stage := [(.instant, .sched (.traceArm (clusterNo (e.at 0)) (e.at 1)))] }

/-- CMD_TASK_TRACE with action arm (R79, Table 3.10). -/
def execCmdTaskTraceArm (r : CmdRef) (b : List Byte) (s : State) : Out := runCmd traceArmDef r b s

def traceReadDef : CmdDef where
  opcode := 0x0104
  reads := true
  fields := traceFields
  mine := fun b => actionAt 6 b != some 0
  checks := traceChecks
  effect := fun e => { result := (e.s.esc (clusterNo (e.at 0))).trace.bytes }

/-- CMD_TASK_TRACE with action read (R79, Table 3.10). -/
def execCmdTaskTraceRead (r : CmdRef) (b : List Byte) (s : State) : Out := runCmd traceReadDef r b s

end Sys2Proof.Machine
end

