-- ==== Sys2Proof/Machine/Audio.lean ====
section
/-! DEFINITION. Audio legs: RECEIVE and SEND tasks, and the commands of the range 0x08xx (10_audio_path.md).
Corners of the audio path: DEDUCED (log entries 5, 6, 34). -/

namespace Sys2Proof.Machine

/- The converter (R234, R235). -/

/-- The synthesiser's step (R234). -/
def converterStep (fIn : Nat) (delta : Int) : Nat :=
  (floorDiv ((fIn : Int) * (10 ^ 9 + delta) * 2 ^ 40 + 24000 * 10 ^ 9) (48000 * 10 ^ 9)).toNat

/-- Coefficient k of phase row ph; row 256 is row 0 advanced by one tap (R234). -/
def converterRow (ph k : Nat) : Int :=
  if ph < 256 then Config.converterCoef ph k else if k = 0 then 0 else Config.converterCoef 0 (k - 1)

/-- One output sample at position p of the buffer that begins 31 samples before the FIFO. -/
def converterSample (buf : List Int) (p : Nat) : Int :=
  let ipos := p / 2 ^ 40
  let ph := p / 2 ^ 32 % 256
  let fr : Int := (p / 2 ^ 16 % 65536 : Nat)
  store (sumI (((buf.drop ipos).take 64).zip (List.range 64) |>.map (fun q =>
    (converterRow ph q.2 + floorDiv ((converterRow (ph + 1) q.2 - converterRow ph q.2) * fr + 32768) 65536) * q.1))) 0

/-- Convert up to n samples; answers the samples, the position after them, and whether the FIFO ran out. -/
def convertRun (buf : List Int) (step : Nat) : Nat → Nat → List Int × Nat × Bool
  | 0, p => ([], p, false)
  | n + 1, p =>
    if buf.length < p / 2 ^ 40 + 64 then (List.replicate (n + 1) 0, p, true)
    else
      let r := convertRun buf step n (p + step)
      (converterSample buf p :: r.1, r.2.1, r.2.2)

/-- The converter's 120 samples of a beat (R234, R235): an underrun starts it again as at an anchor. -/
def AudioLeg.convert (x : AudioLeg) : List Int × AudioLeg × Bool :=
  if !x.started then (List.replicate 120 0, x, false)
  else
    let hist := List.replicate (31 - x.history.length) 0 ++ x.history
    let buf := hist ++ x.fifo
    let (out, p, short) := convertRun buf (converterStep (codecRate x.cfg.codec) x.delta) 120 x.p
    if short then
      (out, { x with fifo := [], history := [], p := 0, completions := 0, started := false, frameUnderrun := true, ctrs := { x.ctrs with underruns := x.ctrs.underruns + 1 } }, true)
    else
      let k := p / 2 ^ 40
      (out, { x with fifo := x.fifo.drop k, history := (buf.drop k).take 31, p := p % 2 ^ 40 }, false)

/- Stages (R226). -/

/-- One sample through an equaliser section (Table 10.8). -/
def Biquad.run (b : Biquad) : List Int → List Int × Biquad
  | [] => ([], b)
  | v :: vs =>
    let y := store (b.b0 * v + b.b1 * b.x1 + b.b2 * b.x2 - b.a1 * b.y1 - b.a2 * b.y2) 1
    let r := Biquad.run { b with x1 := v, x2 := b.x1, y1 := y, y2 := b.y1 } vs
    (y :: r.1, r.2)

/-- The sections of an equaliser in order. -/
def runEq : List Biquad → List Int → List Int × List Biquad
  | [], v => (v, [])
  | b :: bs, v =>
    let (y, b1) := b.run v
    let (z, bs1) := runEq bs y
    (z, b1 :: bs1)

/-- The configurable stages of a path: 0x11, 0x10 and 0x12 in this order. -/
def Stages.run (x : Stages) (v : List Int) : List Int × Stages :=
  let (v1, eq) := match x.eq with
    | some l => let r := runEq l v; (r.1, some r.2)
    | none => (v, none)
  let lib := fun (code token : Nat) (params w : List Int) => (fitWords 120 (libraryStage code token params w), Config.stageNext code token params w)
  let (v2, ns) := match x.ns with
    | some d => lib 0x10 x.nsState [(d : Int)] v1
    | none => (v1, x.nsState)
  let (v3, agc) := match x.agc with
    | some (t, g) => lib 0x12 x.agcState [t, (g : Int)] v2
    | none => (v2, x.agcState)
  (v3, { x with eq := eq, nsState := ns, agcState := agc })

/-- The band-limiter (R262) over a beat's samples; `hist` holds the latest 94 before them, newest first. -/
def bandLimit : List Int → List Int → List Int × List Int
  | hist, [] => ([], hist)
  | hist, v :: vs =>
    let h := v :: hist
    let y := store (sumI ((h.zip (List.range 95)).map (fun q => Config.bandLimiterCoef q.2 * q.1))) 0
    let r := bandLimit (h.take 94) vs
    (y :: r.1, r.2)

/- The meter (R240). -/

/-- 2,560 × log10 is compared through powers of 5,120. -/
def meterExp : Nat := 5120

/-- Bisection for the number of quarter steps: the least k below 2^f whose level lies at or below the mean square. -/
def meterBits (S D : Nat) : Nat → Nat → Nat
  | 0, r => r
  | f + 1, r =>
    let t := r + 2 ^ f
    meterBits S D f (if S ^ meterExp * 10 ^ (2 * (t - 1) + 1) < D ^ meterExp then t else r)

/-- Level in Q8.8 dBFS of a sum of squares over 960 samples: 2,560 × log10 of the mean square, to nearest. -/
def meterLevel (S : Nat) : Int :=
  if S = 0 then -32768 else max (-32768) (-(meterBits S (960 * 2 ^ 62) 16 0 : Int))

/- Steering (R237). -/

/-- A lock or unlock takes effect at a beat: a change of source raises STEER_CHANGE (R237). -/
def State.steerSource (id : Nat) (beat : Instant) (s : State) (p : Instant × Bool) : State :=
  match s.audioLeg id with
  | none => s
  | some x =>
    if x.steerBeacon = p.2 then s
    else (s.setLegA id { x with steerBeacon := p.2 }).audioEvent beat id 0x0003 (dCode 80 8 (b2n p.2))

/-- At a beat with i mod 8 = 0, the updates and the changes of source made at or before it take effect. -/
def State.steerBeat (s : State) (id : Nat) (beat : Instant) : State :=
  match s.audioLeg id with
  | none => s
  | some x =>
    let due := fun {α : Type} (l : List (Instant × α)) => l.filter (fun p => decide (p.1 ≤ beat))
    let rest := fun {α : Type} (l : List (Instant × α)) => l.filter (fun p => decide (beat < p.1))
    let d := match (due x.deltaNext).getLast? with | some p => p.2 | none => x.delta
    (due x.lockNext).foldl (State.steerSource id beat) (s.setLegA id { x with delta := d, deltaNext := rest x.deltaNext, lockNext := rest x.lockNext })

/- RECEIVE (R222 to R240). -/

/-- The decode stage of a beat (R227, R235): skip, one slice, or a second one. -/
def AudioLeg.decodeBeat (x : AudioLeg) (id : Nat) (beat : Instant) (i : Nat) : AudioLeg :=
  let n := codecSamples x.cfg.codec
  let e := x.fifo.length + x.slice * n / 8
  let y := { x with eLevel := sat 16 e }
  let runs := match y.anchor with | some a => decide (a.start ≤ beat) | none => y.everAnchored
  if !runs then y
  else if 2 * n < e then { y with ctrs := { y.ctrs with skips := y.ctrs.skips + 1 }, frameSkips := y.frameSkips + 1 }
  else
    let z := y.runSlice beat
    if 4 * e < 7 * n ∧ i % 12 = legSlot id then
      let w := z.runSlice beat
      { w with ctrs := { w.ctrs with catchups := w.ctrs.catchups + 1 }, frameCatchups := w.frameCatchups + 1 }
    else z

/-- The report at the end of a codec frame (Table 10.4); what it gathers starts anew. -/
def AudioLeg.writeReport (x : AudioLeg) (i : Nat) : AudioLeg :=
  let level := meterLevel x.sumSquares
  let flags := b2n (decide (x.cfg.vadThreshold ≤ level)) + 2 * b2n x.frameConcealed + 4 * b2n x.frameFec + 8 * b2n x.frameSilence +
    16 * b2n x.anchor.isSome + 32 * b2n x.frameMixMissing + 64 * b2n x.frameUnderrun + 128 * b2n x.beacon.locked
  let r : LegReport := { codecFrame := i / 8 % 2 ^ 32, level := level, flags := flags, steer := b2n x.steerBeacon, jbFrames := x.jb.length, eLevel := x.eLevel, delta := x.delta, jbDelay := x.jbDelay, skips := sat 8 x.frameSkips, catchups := sat 8 x.frameCatchups }
  { x with report := r, sumSquares := 0, frameConcealed := false, frameFec := false, frameSilence := false, frameMixMissing := false, frameUnderrun := false, frameSkips := 0, frameCatchups := 0 }

/-- CONVERTER_UNDERRUN, at most once a second (R241). -/
def State.underrunEvent (s : State) (id : Nat) : State :=
  match s.audioLeg id with
  | none => s
  | some x =>
    let (fire, lim) := x.underEvent.hit s.now (sec 1)
    let s1 := s.setLegA id { x with underEvent := lim }
    match fire with
    | some n => s1.audioEvent s.now id 0x0004 (dBits 56 32 n)
    | none => s1

/-- The receive path of a leg over one beat (R226, R240). -/
def State.receiveBeat (s : State) (id : Nat) (beat : Instant) : State :=
  let i := audioIndex beat
  let s0 := if i % 8 = 0 then s.steerBeat id beat else s
  match s0.audioLeg id with
  | none => s0
  | some x =>
    let (conv, y, short) := (x.decodeBeat id beat i).convert
    let s1 := if x.nextFrame / 64 < y.nextFrame / 64 then (s0.setLegA id y).closeBlock id else s0.setLegA id y
    let s2 := if short then s1.underrunEvent id else s1
    let s3 := s2.beaconListen id (120 * i) conv
    match s3.audioLeg id with
    | none => s3
    | some z =>
      let (lim, hist) := bandLimit z.limiter conv
      let (out, stages) := z.rx.run lim
      let sq := sumN (out.map (fun v => v.natAbs * v.natAbs))
      let w := { z with limiter := hist, rx := stages, sumSquares := z.sumSquares + sq, outs := ((beat, s.now, out) :: z.outs).take 4 }
      s3.setLegA id (if i % 8 = 7 then w.writeReport i else w)

/-- RECEIVE_TASK (R222): a RECEIVE task completes. -/
def execReceiveTask (dt die inst : Nat) (haps : List Hap) (s0 : State) : Out :=
  let s := s0.advance dt
  if !s.dieUp die then .next s
  else match s.inService die inst with
    | none => .next s
    | some i =>
      match i.desc.op with
      | .receive id =>
        if s.xAlone (legUnit id) then .next s
        else
        let s1 := (s.haps haps).takeScoped (.audioTask id) i.beat
        .next ((s1.receiveBeat id i.beat).complete die i [])
      | _ => .next s

/- SEND (R238). -/

/-- A beat's samples with the poisoned ones taken as zero (R322). -/
def zeroAt (poison : List Nat) (v : List Int) : List Int :=
  if poison.isEmpty then v else ((List.range v.length).zip v).map (fun p => if poison.contains p.1 then 0 else p.2)

/-- The samples that the crosspoint gives a leg for a beat: the mix of the beat before (R222, R245). -/
def State.mixFor (s : State) (id : Nat) (beat : Instant) : List Int :=
  let before := Grid.audio.beatAt (audioIndex beat - 1)
  match (s.xp (legDie id)).outputs.find? (fun o => o.1 == before) with
  | some o => o.2.getD (legIndex id) (List.replicate 120 0)
  | none => List.replicate 120 0

/-- The encoder's windows advance by one beat (R238, R239). Answers the window that is posted. -/
def AudioLeg.window_ (x : AudioLeg) (i : Nat) (v : List Int) : AudioLeg × Option (Nat × List Int × AudioCfg) :=
  let w := if i % 8 = 0 then some (i, v, x.cfg) else x.window.map (fun p => (p.1, p.2.1 ++ v, p.2.2))
  if i % 8 = 7 then
    ({ x with window := none, encoding := w }, x.encoding.bind (fun p => if p.1 + 15 = i then some p else none))
  else ({ x with window := w }, none)

/-- A frame is posted and packetised (R100, R238). -/
def State.postAudio (s : State) (id : Nat) (p : Nat × List Int × AudioCfg) : State :=
  match s.audioLeg id with
  | none => s
  | some x =>
    let ts := p.2.2.rtpBase + BitVec.ofNat 32 (p.1 * (if x.cfg.codec = 5 then 120 else 20))
    let (frame, c) := x.encoder.encode p.2.2 p.2.1
    match frame with
    | none => (s.setLegA id { x with encoder := c }).skipAudio x.bitstream
    | some bytes =>
      (s.setLegA id { x with encoder := c, ctrs := { x.ctrs with framesSent := x.ctrs.framesSent + 1 } }).sendAudio x.bitstream bytes ts

/-- The send path of a leg over one beat (R222, R226). Answers the window that is posted. -/
def State.sendBeat (s : State) (id : Nat) (beat : Instant) (missing : Bool) (poison : List Nat) : State × Option (Nat × List Int × AudioCfg) :=
  let i := audioIndex beat
  match s.audioLeg id with
  | none => (s, none)
  | some x =>
    let v := if missing then List.replicate 120 0 else zeroAt poison (s.mixFor id beat)
    let c := if missing then { x.ctrs with mixMissing := x.ctrs.mixMissing + 1 } else x.ctrs
    let (v1, stages) := x.tx.run v
    let s1 := (s.setLegA id { x with tx := stages, ctrs := c, frameMixMissing := x.frameMixMissing || missing }).beaconDue id beat i
    match s1.audioLeg id with
    | none => (s1, none)
    | some y =>
      let (v2, b) := y.beacon.modulate v1
      let (z, post) := { y with beacon := b }.window_ i v2
      (s1.setLegA id z, post)

/-- SEND_TASK (R238): a SEND task completes. `poison` lists samples that were delivered with a poison tag (R322). -/
def execSendTask (dt die inst : Nat) (haps : List Hap) (poison : List Nat) (s0 : State) : Out :=
  let s := s0.advance dt
  if !s.dieUp die then .next s
  else match s.inService die inst with
    | none => .next s
    | some i =>
      match i.desc.op with
      | .send id =>
        if s.xAlone (legUnit id) then .next s
        else
        let s1 := (s.haps haps).takeScoped (.audioTask id) i.beat
        let (s2, post) := s1.sendBeat id i.beat i.inputsIncomplete poison
        let s3 := s2.complete die i []
        match post with
        | some p => .next (s3.postAudio id p)
        | none => .next s3
      | _ => .next s

/- Commands. -/

/-- Legs of a unit. -/
def unitAudio (s : State) (u : Nat) : List (Nat × AudioLeg) := s.audio.legs.filter (fun p => legUnit p.1 == u)

def legCycles (x : AudioLeg) : Nat := rxCycles x + txCycles x

/-- Cycles that a unit's legs commit, without the reserve (R228). -/
def unitCycles (s : State) (u : Nat) : Nat := sumN ((unitAudio s u).map (fun p => legCycles p.2))
def unitReserve (s : State) (u : Nat) : Nat := audioReserve ((unitAudio s u).map (·.2))

/-- The limit of R228. -/
def cycleLimit : Nat := 3600000

/-- The check of R228 on a configuration. -/
def budgetCheck (s : State) (u : Nat) : Bool × Err :=
  let c := unitCycles s u + unitReserve s u
  needsD (decide (c ≤ cycleLimit)) .cycleBudget (c - cycleLimit)

/-- The identifier of slot k of a unit (R221). -/
def legIdOf (u k : Nat) : Nat :=
  siteDie u * 2 ^ 11 + 12 * (16 * (2 * siteQuad u + (siteCluster u - 4)) + siteUnit u) + k

/-- The slot that a CMD_AUDIO_LEG_CREATE takes: the one named, or the lowest free. -/
def newSlot (e : Env) : Nat :=
  if e.at 8 ≠ 0xFF then e.at 8
  else
    let used := (e.used (fun s => (unitAudio s (e.at 0)).map (·.1))).map legSlot
    lowestFree used 0

def audioCfgOf (e : Env) : AudioCfg :=
  { codec := e.at 1, flags := e.at 2, bandwidth := e.at 3, lossPct := e.at 4, bitrate := e.at 5, jbTarget := e.at 6,
    vadThreshold := signed 16 (e.at 7), rtpBase := BitVec.ofNat 32 (e.at 9), sendDeadline := e.at 10 }

def newAudioLeg (e : Env) : AudioLeg :=
  let d := siteDie (e.at 0)
  { cfg := audioCfgOf e, stateHandle := e.all.mem.nextHandle 0x09 d, jitterBuffer := e.all.mem.nextHandle 0x0A d, bitstream := e.all.mem.nextHandle 0x08 d,
    params := e.all.mem.nextHandle 0x0B d }

def legCreateStage (e : Env) : List (Scope × Change) :=
  let x := newAudioLeg e
  let q := siteQuad (e.at 0)
  [ (.instant, .audio (.legCreate (legIdOf (e.at 0) (newSlot e)) x)), (.instant, .mem (.alloc x.stateHandle 65536 q)),
    (.instant, .mem (.alloc x.jitterBuffer 49152 q)), (.instant, .mem (.alloc x.bitstream Config.audioBitstreamBytes q)) ] ++ allocParams x.params 2

/-- The encoder fields in field order (R242): those of a leg that is not Opus are left at 0 or at their defaults. -/
def encoderChecks (c : AudioCfg) : List (Bool × Err) :=
  if c.codec = 5 then
    [ needsSt (decide (c.bandwidth ≤ 4)) .rateUnsupported 6, needs (decide (c.lossPct ≤ 100)) 7,
      needsSt (decide (6000 ≤ c.bitrate ∧ c.bitrate ≤ 510000)) .rateUnsupported 8 ]
  else
    [ needs (c.flags == 0 || c.flags == 1) 5, needs (c.bandwidth == 0 || c.bandwidth == 4) 6, needs (c.lossPct == 0 || c.lossPct == 10) 7,
      needs (c.bitrate == 0 || c.bitrate == 32000) 8 ]

/-- A vad_threshold lies from −32,768 to 0. -/
def vadOk (raw : Nat) : Bool := decide (signed 16 raw ≤ 0)

def jbTargetOk (v : Nat) : Bool := decide (5000000 ≤ v ∧ v ≤ 200000000)

def audioLegCreateDef : CmdDef where
  opcode := 0x0801
  fields := [fN 4, fN 1, fFD 1 0x0F 1, fD 1 4, fD 1 10, fD 4 32000, fD 4 40000000, fD 2 (65536 - 12800), fD 1 0xFF, fRD 1, fD 4 0, fD 4 2000000]
  checks := fun e =>
    let c := audioCfgOf e
    let u := e.at 0
    let used := (e.used (fun s => (unitAudio s u).map (·.1))).map legSlot
    e.vw.siteChecks u (isAu u) 0 ++
    [ needsSt (e.at 8 == 0xFF || !used.contains (e.at 8)) .exists_ 18,
      range c.codec 5 8 4 ] ++
    encoderChecks c ++
    [ needs (jbTargetOk c.jbTarget) 12,
      needs (vadOk (e.at 7)) 16,
      needs (e.at 8 == 0xFF || decide (e.at 8 ≤ 11)) 18,
      needs (decide (1000000 ≤ c.sendDeadline ∧ c.sendDeadline + audioService (txCycles (newAudioLeg e)) ≤ 2500000)) 24,
      needsSt (decide (newSlot e ≤ 11)) .legCapacity 0xFFFF,
      budgetCheck (e.after (legCreateStage e)) u ] ++
    e.tables (legCreateStage e)
  effect := fun e =>
    let x := newAudioLeg e
    { result := beBytes 4 (legIdOf (e.at 0) (newSlot e)) ++ beBytes 4 x.jitterBuffer ++ beBytes 4 x.bitstream ++ beBytes 4 (legCycles x),
      stage := legCreateStage e }

/-- CMD_AUDIO_LEG_CREATE (R221, R228, R242, Table 10.6). -/
def execCmdAudioLegCreate (r : CmdRef) (b : List Byte) (s : State) : Out := runCmd audioLegCreateDef r b s

def vwLeg (e : Env) : AudioLeg := (e.vw.audioLeg (e.at 0)).getD {}
def legFound (e : Env) : Bool × Err := needsSt (e.vw.audio.legs.has (e.at 0)) .notFound 0

def legDeleteStage (e : Env) : List (Scope × Change) :=
  let x := vwLeg e
  [ (.instant, .audio (.legDelete (e.at 0))), (.instant, .mem (.free x.stateHandle)), (.instant, .mem (.free x.jitterBuffer)),
    (.instant, .mem (.free x.bitstream)) ] ++ freeParams x.params 2

def audioLegDeleteDef : CmdDef where
  opcode := 0x0802
  fields := [fN 4]
  checks := fun e =>
    let x := vwLeg e
    [ legFound e, needs (!(streamNames e.vw x.jitterBuffer || streamNames e.vw x.bitstream)) 0 ] ++ e.tables (legDeleteStage e)
  effect := fun e => { stage := legDeleteStage e }

/-- CMD_AUDIO_LEG_DELETE (R242, R403). -/
def execCmdAudioLegDelete (r : CmdRef) (b : List Byte) (s : State) : Out := runCmd audioLegDeleteDef r b s

/-- A field that a value keeps. -/
def keepAt (keep v : Nat) : Option Nat := if v = keep then none else some v

def audioSetStage (e : Env) : List (Scope × Change) :=
  let vad := if e.at 7 = 0x7FFF then none else some (signed 16 (e.at 7))
  [ (.audioTask (e.at 0), .audio (.legSet (e.at 0) { flags := keepAt 0xFF (e.at 1), bandwidth := keepAt 0xFF (e.at 2), lossPct := keepAt 0xFF (e.at 3), bitrate := keepAt 0 (e.at 5), vadThreshold := vad })),
    (.instant, .audio (.legSet (e.at 0) { jbTarget := keepAt 0 (e.at 6), resync := e.at 4 == 1 })) ]

def audioSetDef : CmdDef where
  opcode := 0x0803
  fields := [fN 4, fD 1 0xFF, fD 1 0xFF, fD 1 0xFF, fD 1 0, fD 4 0, fD 4 0, fD 2 0x7FFF, fRD 2]
  zero := fun v _ => [(fv v 1 != 0xFF && decide (16 ≤ fv v 1), 4)]
  checks := fun e =>
    let x := vwLeg e
    let opus := x.cfg.codec == 5
    [ legFound e,
      needs (opus || e.at 1 == 0xFF || e.at 1 == 0) 4,
      (if opus then needsSt (e.at 2 == 0xFF || decide (e.at 2 ≤ 4)) .rateUnsupported 5 else needs (e.at 2 == 0xFF || e.at 2 == 0) 5),
      needs (e.at 3 == 0xFF || (if opus then decide (e.at 3 ≤ 100) else e.at 3 == 0)) 6,
      range (e.at 4) 0 1 7,
      (if opus then needsSt (e.at 5 == 0 || decide (6000 ≤ e.at 5 ∧ e.at 5 ≤ 510000)) .rateUnsupported 8 else needs (e.at 5 == 0) 8),
      needs (e.at 6 == 0 || jbTargetOk (e.at 6)) 12,
      needs (e.at 7 == 0x7FFF || vadOk (e.at 7)) 16 ] ++
    e.tables (audioSetStage e)
  effect := fun e => { result := beBytes 4 (legCycles (vwLeg e)), stage := audioSetStage e }

/-- CMD_AUDIO_SET (R230, R239, R242, Table 10.7). -/
def execCmdAudioSet (r : CmdRef) (b : List Byte) (s : State) : Out := runCmd audioSetDef r b s

/-- The sections of a CMD_AUDIO_STAGE (Table 10.8). -/
def biquadsOf (n : Nat) (b : List Byte) : List Biquad :=
  (List.range n).map (fun k =>
    let c := fun i => signed 32 (beNat ((b.drop (20 * k + 4 * i)).take 4))
    { b0 := c 0, b1 := c 1, b2 := c 2, a1 := c 3, a2 := c 4 : Biquad })

def audioStageStage (e : Env) : List (Scope × Change) :=
  let send := e.at 1 == 1
  let v : StageValue := match e.at 2 with
    | 0x11 => .eq (biquadsOf (e.at 4) e.tail)
    | 0x10 => .ns (e.at 5)
    | _ => .agc (signed 16 (e.at 5)) (e.at 6)
  [(.audioTask (e.at 0), .audio (if e.at 3 = 0 then .stageSet (e.at 0) send v else .stageRemove (e.at 0) send (e.at 2)))]

def audioStageDef : CmdDef where
  opcode := 0x0804
  fields := [fN 4, fN 1, fN 1, fN 1, fD 1 0, fD 2 0, fD 2 0]
  tail := some (fun v => 20 * fv v 4)
  zero := fun v _ =>
    let st := fv v 2
    let off := fv v 3 == 1
    [ ((st != 0x11 || off) && fv v 4 != 0, 7), ((st == 0x11 || off) && fv v 5 != 0, 8), ((st != 0x12 || off) && fv v 6 != 0, 10) ]
  checks := fun e =>
    let st := e.at 2
    let set := e.at 3 == 0
    [ legFound e,
      range (e.at 1) 0 1 4,
      needsSt (st == 0x10 || st == 0x11 || st == 0x12) .stageUnsupported 5,
      range (e.at 3) 0 1 6,
      needs (!(set && st == 0x11) || decide (1 ≤ e.at 4 ∧ e.at 4 ≤ 8)) 7,
      needs (!(set && st == 0x10) || decide (e.at 5 ≤ 10240)) 8,
      needs (!(set && st == 0x12) || decide (e.at 6 ≤ 7680)) 10,
      budgetCheck (e.after (audioStageStage e)) (legUnit (e.at 0)) ] ++
    e.tables (audioStageStage e)
  effect := fun e =>
    { result := beBytes 4 (match (e.after (audioStageStage e)).audioLeg (e.at 0) with | some x => legCycles x | none => 0), stage := audioStageStage e }

/-- CMD_AUDIO_STAGE (R226, R228, R239, R242, Table 10.8). -/
def execCmdAudioStage (r : CmdRef) (b : List Byte) (s : State) : Out := runCmd audioStageDef r b s

def audioSteerDef : CmdDef where
  opcode := 0x0805
  fields := [fN 4, fD 1 128, fD 1 32, fRD 2]
  checks := fun e => [ legFound e ]
  effect := fun e => { stage := [(.instant, .audio (.steer (e.at 0) (e.at 1) (e.at 2)))] }

/-- CMD_AUDIO_STEER (R237). -/
def execCmdAudioSteer (r : CmdRef) (b : List Byte) (s : State) : Out := runCmd audioSteerDef r b s

/-- The result of Table 10.9. -/
def audioStatus (x : AudioLeg) : List Byte :=
  let k := x.ctrs
  beBytes 2 x.jb.length ++ beBytes 2 x.eLevel ++ beInt 4 x.delta ++ beBytes 1 (b2n x.steerBeacon) ++ beBytes 1 (b2n x.anchor.isSome) ++ zeros 2 ++
  (([k.packets, k.late, k.duplicate, k.badDuration, k.oversize, k.concealed, k.fecRecovered, k.dtx, k.silence, k.reanchors, k.skips,
     k.catchups, k.underruns, k.mixMissing, k.framesSent].map (fun c => beBytes 8 c.toNat)).flatten)

def audioStatusDef : CmdDef where
  opcode := 0x0806
  reads := true
  fields := [fN 4]
  checks := fun e => [ legFound e ]
  effect := fun e => { result := audioStatus ((e.s.audioLeg (e.at 0)).getD (vwLeg e)) }

/-- CMD_AUDIO_STATUS (Table 10.9). -/
def execCmdAudioStatus (r : CmdRef) (b : List Byte) (s : State) : Out := runCmd audioStatusDef r b s

def audioLoadDef : CmdDef where
  opcode := 0x0807
  reads := true
  fields := [fN 4]
  checks := fun e => e.vw.siteChecks (e.at 0) (isAu (e.at 0)) 0
  effect := fun e =>
    { result := beBytes 4 (unitCycles e.vw (e.at 0)) ++ beBytes 4 (unitReserve e.vw (e.at 0)) ++ beBytes 1 (unitAudio e.vw (e.at 0)).length ++ zeros 3 }

/-- CMD_AUDIO_LOAD (R228). -/
def execCmdAudioLoad (r : CmdRef) (b : List Byte) (s : State) : Out := runCmd audioLoadDef r b s

/-- Words of a coefficient table. -/
def audioTableSize (t : Nat) : Nat := if t = 0 then 256 * 64 else 96
def audioTableWord (t k : Nat) : Int := if t = 0 then Config.converterCoef (k / 64) (k % 64) else Config.decimatorCoef t k

def audioTableDef : CmdDef where
  opcode := 0x0808
  reads := true
  fields := [fN 1, fR 1, fN 2, fN 2, fR 2]
  checks := fun e =>
    [ range (e.at 0) 0 2 0, needs (decide (e.at 1 < audioTableSize (e.at 0))) 2, range (e.at 2) 1 256 4,
      needs (decide (e.at 1 + e.at 2 ≤ audioTableSize (e.at 0))) 4 ]
  effect := fun e =>
    { result := beBytes 2 (e.at 2) ++ zeros 2 ++ ((List.range (e.at 2)).map (fun k => beInt 4 (audioTableWord (e.at 0) (e.at 1 + k)))).flatten }

/-- CMD_AUDIO_TABLE_READ (R234, R238). -/
def execCmdAudioTableRead (r : CmdRef) (b : List Byte) (s : State) : Out := runCmd audioTableDef r b s

end Sys2Proof.Machine
end

