-- ==== Sys2Proof/Machine/Fwd.lean ====
section
/-! DEFINITION. Stream contexts and targets: the commands of the range 0x02xx (04_forwarding_and_layers.md).
Corners of forwarding: DEDUCED (log entry 26). -/

namespace Sys2Proof.Machine

/-- The package of the IO die on which a new context lives (R87): its port's, or that of the bitstream buffer's die. -/
def newCtxPkg (e : Env) : Nat := if e.at 0 = 0 then e.at 1 else pkgOfDie (handleStack (e.at 14))

/-- The default payload type of a die-sourced context (Table 4.8). -/
def defaultPt (format : Nat) : Nat := match format with | 6 => 8 | 7 => 0 | 8 => 9 | _ => 96

/-- The configuration that CMD_STREAM_CREATE asks for (Table 4.8). Of a die-sourced context, `port` names its package. -/
def streamCfgOf (e : Env) : StreamCfg :=
  { sourceKind := e.at 0, port := newCtxPkg e, family := e.at 2, stun := e.at 3 == 1, dstAddress := e.at 4,
    dstUdpPort := e.at 5, ssrc := BitVec.ofNat 32 (e.at 6), keyCtx := e.at 7, payloadFormat := e.at 8, ddExtId := e.at 9,
    rtExtIdIn := e.at 10, missingLayerAction := e.at 11, delivery := e.at 12, die := e.at 13, bufferHandle := e.at 14,
    policer := e.at 15, maxPayload := e.at 16,
    pt := if e.at 0 = 1 ∧ e.at 17 = 0xFF then defaultPt (e.at 8) else e.at 17 }

def ctxTarget (e : Env) : Nat :=
  lowestFree (e.used (fun s => s.fwd.streams.keys)) (newCtxPkg e * 2 ^ 19)

/-- The codec of the decode stream or audio leg that a stream or jitter buffer belongs to, or of the leg that a bitstream
buffer belongs to; codecs are numbered as payload formats. -/
def handleCodec (s : State) (h : Nat) : Option Nat :=
  match s.video.decodes.find? (fun p => p.2.streamBuffer == h) with
  | some p => some p.2.cfg.codec
  | none =>
    match s.video.encodes.find? (fun p => p.2.bitstream == h) with
    | some p => some p.2.cfg.codec
    | none => (s.audio.legs.find? (fun p => p.2.jitterBuffer == h || p.2.bitstream == h)).map (fun p => p.2.cfg.codec)

/-- R109's check of buffer_handle against delivery. -/
def bufferFits (e : Env) : Bool :=
  let h := e.at 14
  if e.at 0 = 0 then
    if e.at 12 = 0 then h == 0
    else (handleKind h == 0x01 || handleKind h == 0x0A) && handleStack h == e.at 13
  else handleKind h == 0x08 && decide (handleStack h ≤ 7)

/-- The payload format agrees with the codec of the buffer's owner, for audio buffers and bitstream buffers (the opcode
sections of 09 and 10). -/
def formatFits (e : Env) : Bool :=
  let h := e.at 14
  if handleKind h == 0x0A || handleKind h == 0x08 then
    match handleCodec e.vw h with
    | some c => c == e.at 8
    | none => true
  else true

/-- The claim, if any, that binds a policer. -/
def policerClaim (v : VcpState) (id : Nat) : Option Claim :=
  v.claims.find? (fun c => match c.res with | .policer p _ => p == id | _ => false)

/-- The claim that pins a context. -/
def pinClaim (v : VcpState) (ctx : Nat) : Option Claim := v.holder (.pin ctx)

def streamCreateStage (e : Env) : List (Scope × Change) := [(.instant, .fwd (.streamCreate (ctxTarget e) (streamCfgOf e)))]

def streamCreateDef : CmdDef where
  opcode := 0x0201
  fields := [fN 1, fN 1, fN 1, fF 1 1, fN 16, fN 2, fR 2, fN 4, fN 4, fN 1, fD 1 0, fD 1 0, fD 1 1, fD 1 0, fD 1 0, fRD 2,
             fD 4 0, fD 4 0, fD 2 1200, fD 1 0xFF, fRD 1]
  zero := fun v _ =>
    if fv v 0 = 1 then
      [(fv v 1 != 0, 1), (fv v 2 != 0, 2), (fv v 4 != 0, 4), (fv v 5 != 0, 20), (fv v 7 != 0, 28)]
    else [(fv v 2 == 4 && decide (2 ^ 32 ≤ fv v 4), 4)]
  checks := fun e =>
    let kind := e.at 0
    let h := e.at 14
    [ needsSt (e.at 7 == 0 || (e.vw.key (e.at 7)).isSome) .notFound 28,
      needsSt (h == 0 || !handleOk h || e.vw.mem.buffers.has h) .notFound 40,
      needsSt (e.at 15 == 0 || e.vw.egress.policers.has (e.at 15)) .notFound 44,
      ((policerClaim e.s.vcp (e.at 15)).isSome,
        match policerClaim e.s.vcp (e.at 15) with
        | some c => e.s.heldErr c c.site 44
        | none => badAt .resourceHeld 44),
      range kind 0 1 0,
      range (e.at 1) 0 1 1,
      needs (kind == 1 || e.at 2 == 4 || e.at 2 == 6) 2,
      needs (kind == 1 || e.at 5 != 0) 20,
      range (e.at 8) 0 8 32,
      range (e.at 11) 0 1 35,
      range (e.at 12) 0 2 36,
      range (e.at 13) 0 7 37,
      needs (kind == 0 || decide (200 ≤ e.at 16 ∧ e.at 16 ≤ 8900)) 48,
      needs (e.at 17 == 0xFF || (kind == 1 && decide (e.at 17 ≤ 127))) 50,
      needs (bufferFits e) 40,
      needs (formatFits e) 32,
      needs (e.at 7 == 0 || keyPkg (e.at 7) == newCtxPkg e) 28,
      needs (e.at 15 == 0 || e.at 15 / 2 ^ 19 == newCtxPkg e) 44,
      (kind == 0 && (e.vw.fwd.bound (e.at 1) (e.at 2) (e.at 4) (e.at 5)).any (fun p => p.2.cfg.ssrc.toNat == e.at 6),
        badAt .duplicateSsrc 24),
      needsSt (decide (ctxTarget e < (newCtxPkg e + 1) * 2 ^ 19)) .contextFull 0xFFFF,
      (!placementOk e.vw (e.after (streamCreateStage e)), badAt .noPlacement 0xFFFF) ]
  effect := fun e =>
    { result := beBytes 4 (ctxTarget e),
      claims := if e.at 15 = 0 then [] else [(ioSite (newCtxPkg e), .policer (e.at 15) (ctxTarget e))],
      stage := streamCreateStage e }

/-- CMD_STREAM_CREATE (R87 to R89, R109, R114, R142, Table 4.8). -/
def execCmdStreamCreate (r : CmdRef) (b : List Byte) (s : State) : Out := runCmd streamCreateDef r b s

def streamDeleteDef : CmdDef where
  opcode := 0x0202
  fields := [fN 4]
  checks := fun e => [ needsSt (e.vw.fwd.streams.has (e.at 0)) .notFound 0 ]
  effect := fun e =>
    let pol := ((e.vw.stream (e.at 0)).map (·.cfg.policer)).getD 0
    { stage := (.instant, .fwd (.streamDelete (e.at 0))) ::
        (e.vw.vcp.release (.pin (e.at 0)) ++ e.vw.vcp.release (.policer pol (e.at 0))) }

/-- CMD_STREAM_DELETE (R109): the targets go with the context, and its pin and policer claims are released. -/
def execCmdStreamDelete (r : CmdRef) (b : List Byte) (s : State) : Out := runCmd streamDeleteDef r b s

/-- A selection that fits the context (R110). -/
def layerMapOk (x : Stream) (dt : Nat) : Bool :=
  dt == 0xFF || (x.cfg.ddExtId != 0 && (match x.structure_ with | some t => t.hasTarget dt | none => true))

def layerRange (v off : Nat) : Bool × Err := needs (v == 0xFF || decide (v ≤ 7)) off
def decodeTargetRange (v off : Nat) : Bool × Err := needs (v == 0xFF || decide (v ≤ 31)) off

def targetCfgOf (e : Env) : TargetCfg :=
  { port := e.at 1, iface := e.at 2, family := e.at 3, markerFixup := bitOf (e.at 4) 0, addRt := bitOf (e.at 4) 1,
    zeroUdpChecksum := bitOf (e.at 4) 2, dstAddress := e.at 5, dstUdpPort := e.at 6, srcUdpPort := e.at 7, leg := e.at 8,
    keyCtx := e.at 9, ssrcOut := BitVec.ofNat 32 (e.at 10), seqStart := BitVec.ofNat 16 (e.at 11), ptOut := e.at 12,
    dscp := e.at 13, tsOffset := BitVec.ofNat 32 (e.at 14),
    sel := { maxSpatial := e.at 15, maxTemporal := e.at 16, decodeTarget := e.at 17 }, rtExtIdOut := e.at 18 }

/-- Targets of an IO die (R88). -/
def FwdState.targetCount (f : FwdState) (pkg : Nat) : Nat :=
  sumN ((f.streams.filter (fun p => ctxPkg p.1 == pkg)).map (fun p => p.2.targets.length))

/-- The number of a new target: 0 to 1,023 (R88); above them where none is free now and after the packet. -/
def targetNumber (e : Env) : Nat :=
  lowestFree (e.used (fun s => ((s.stream (e.at 0)).map (·.targets.keys)).getD [])) 0

/-- The mode that the result reports: conditions 1 and 2 of R105 decide between 1 and 2. -/
def targetMode (x : Stream) (c : TargetCfg) : Nat :=
  if !x.pinned then 0 else if c.port == x.cfg.port && c.family == 4 && c.zeroUdpChecksum then 1 else 2

def targetAddDef : CmdDef where
  opcode := 0x0203
  fields := [fN 4, fN 1, fN 1, fN 1, fF 1 7, fN 16, fN 2, fN 2, fN 4, fN 4, fN 4, fN 2, fD 1 0xFF, fD 1 0, fD 4 0, fD 1 0xFF,
             fD 1 0xFF, fD 1 0xFF, fD 1 0]
  zero := fun v _ => [(fv v 3 == 4 && decide (2 ^ 32 ≤ fv v 5), 8)]
  checks := fun e =>
    let x := (e.vw.stream (e.at 0)).getD {}
    let leg := e.vw.egress.legs.find (e.at 8)
    let pkg := ctxPkg (e.at 0)
    [ needsSt (e.vw.stream (e.at 0)).isSome .notFound 0,
      needsSt (leg.isSome && decide (e.at 8 < 2 ^ 19)) .notFound 28,
      needsSt (e.at 9 == 0 || (e.vw.key (e.at 9)).isSome) .notFound 32,
      range (e.at 1) 0 1 4,
      needs ((e.vw.port (e.at 1)).hasIface (e.at 2)) 5,
      needs (e.at 3 == 4 || e.at 3 == 6) 6,
      needs (e.at 3 == 4 || !bitOf (e.at 4) 2) 7,
      needs (e.at 12 == 0xFF || decide (e.at 12 ≤ 127)) 42,
      range (e.at 13) 0 63 43,
      layerRange (e.at 15) 48, layerRange (e.at 16) 49, decodeTargetRange (e.at 17) 50,
      needsSt (decide (x.targets.length < if x.pinned then 8 else 1024) && decide (targetNumber e < 1024) && decide (e.vw.fwd.targetCount pkg < 2097152))
        .contextFull 0xFFFF,
      needsSt (layerMapOk x (e.at 17)) .badLayerMap 50,
      needs (e.at 9 == 0 || keyPkg (e.at 9) == pkg) 32,
      needs (match leg with | some l => l.cfg.port == e.at 1 && l.cfg.iface == e.at 2 | none => false) 28 ]
  effect := fun e =>
    let x := (e.vw.stream (e.at 0)).getD {}
    { result := beBytes 2 (targetNumber e) ++ beBytes 1 (targetMode x (targetCfgOf e)) ++ zeros 1,
      stage := [(.instant, .fwd (.targetAdd (e.at 0) (targetNumber e) (targetCfgOf e)))] }

/-- CMD_TARGET_ADD (R88, R96, R109, R110, R114, R136, Table 4.9). -/
def execCmdTargetAdd (r : CmdRef) (b : List Byte) (s : State) : Out := runCmd targetAddDef r b s

/-- The target that a block names by its first two fields. -/
def targetOf (s : State) (e : Env) : Option Target := (s.stream (e.at 0)).bind (fun x => x.targets.find (e.at 1))

def targetSelectDef : CmdDef where
  opcode := 0x0204
  fields := [fN 4, fN 2, fN 1, fN 1, fN 1, fRD 1, fRD 2]
  checks := fun e =>
    let x := (e.vw.stream (e.at 0)).getD {}
    [ needsSt (e.vw.stream (e.at 0)).isSome .notFound 0,
      needsSt (targetOf e.vw e).isSome .notFound 4,
      layerRange (e.at 2) 6, layerRange (e.at 3) 7, decodeTargetRange (e.at 4) 8,
      needsSt (layerMapOk x (e.at 4)) .badLayerMap 8 ]
  effect := fun e =>
    { stage := [(.instant, .fwd (.targetSelect (e.at 0) (e.at 1)
        { maxSpatial := e.at 2, maxTemporal := e.at 3, decodeTarget := e.at 4 }))] }

/-- CMD_TARGET_SELECT (R93, R109, R110, Table 4.10). -/
def execCmdTargetSelect (r : CmdRef) (b : List Byte) (s : State) : Out := runCmd targetSelectDef r b s

def targetRemoveDef : CmdDef where
  opcode := 0x0205
  fields := [fN 4, fN 2, fR 2]
  checks := fun e =>
    [ needsSt (e.vw.stream (e.at 0)).isSome .notFound 0, needsSt (targetOf e.vw e).isSome .notFound 4 ]
  effect := fun e => { stage := [(.instant, .fwd (.targetRemove (e.at 0) (e.at 1)))] }

/-- CMD_TARGET_REMOVE (R109). -/
def execCmdTargetRemove (r : CmdRef) (b : List Byte) (s : State) : Out := runCmd targetRemoveDef r b s

/-- A key context runs in counter mode, so it may serve the express path (R104). -/
def counterKey (s : State) (key : Nat) : Bool :=
  match s.key key with
  | some k => transformCounter k.transform
  | none => false

/-- The conditions of R104 on a context that is to be pinned. -/
def pinnable (s : State) (x : Stream) : Bool :=
  x.cfg.sourceKind == 0 && counterKey s x.cfg.keyCtx && x.targets.all (fun t => counterKey s t.2.cfg.keyCtx) &&
  decide (x.targets.length ≤ 8) && (x.cfg.delivery == 0 || x.cfg.delivery == 2)

/-- Key contexts that the pinned contexts of a package use, together with those of one more context (R115). -/
def onDieKeys (f : FwdState) (pkg : Nat) (more : Stream) : List Nat :=
  let xs := more :: (f.streams.filter (fun p => ctxPkg p.1 == pkg && p.2.pinned)).map (·.2)
  ((xs.map (fun x => x.cfg.keyCtx :: x.targets.map (fun t => t.2.cfg.keyCtx))).flatten.filter (· != 0)).eraseDups

def pinFields : List Fld := [fN 4, fN 1, fR 3]

def streamPinDef : CmdDef where
  opcode := 0x0206
  fields := pinFields
  mine := selects 4 0 2
  checks := fun e =>
    let x := (e.vw.stream (e.at 0)).getD {}
    let pkg := ctxPkg (e.at 0)
    let pinned := (e.vw.fwd.streams.filter (fun p => ctxPkg p.1 == pkg && p.2.pinned)).length
    [ needsSt (e.vw.stream (e.at 0)).isSome .notFound 0,
      ((pinClaim e.s.vcp (e.at 0)).isSome, heldBy e.s (.pin (e.at 0)) 0),
      needs (e.at 1 == 0) 4,
      needsSt (decide (pinned < 65536)) .pinFull 0,
      needs (pinnable e.vw x) 0,
      needsSt (decide ((onDieKeys e.vw.fwd pkg x).length ≤ 262144)) .pinFull 0 ]
  effect := fun e =>
    { claims := [(ioSite (ctxPkg (e.at 0)), .pin (e.at 0))], stage := [(.instant, .fwd (.pin (e.at 0)))] }

/-- CMD_STREAM_PIN action 0 (R104, R115): takes the pin's claim. -/
def execCmdStreamPin (r : CmdRef) (b : List Byte) (s : State) : Out := runCmd streamPinDef r b s

def streamUnpinDef : CmdDef where
  opcode := 0x0206
  fields := pinFields
  mine := selects 4 1 2
  checks := fun e => [ needsSt (e.vw.stream (e.at 0)).isSome .notFound 0, needs (e.at 1 == 1) 4 ]
  effect := fun e => { stage := (.instant, .fwd (.unpin (e.at 0))) :: e.vw.vcp.release (.pin (e.at 0)) }

/-- CMD_STREAM_PIN action 1 (R104): frees the pin's claim. Unpinning a context that is not pinned changes nothing. -/
def execCmdStreamUnpin (r : CmdRef) (b : List Byte) (s : State) : Out := runCmd streamUnpinDef r b s

def streamStatusDef : CmdDef where
  opcode := 0x0207
  reads := true
  fields := [fN 4]
  checks := fun e => [ needsSt (e.s.stream (e.at 0)).isSome .notFound 0 ]
  effect := fun e =>
    let x := (e.s.stream (e.at 0)).getD {}
    let c := x.ctrs
    { result := beBytes 1 (b2n x.pinned) ++ zeros 1 ++ beBytes 2 x.targets.length ++ zeros 4 ++
        ([c.packetsIn, c.bytesIn, c.copies, c.layerDrops, c.replay, c.authFail, c.poisoned, c.fcsStomped, c.policed,
          c.keySpent, c.rtSkipped].map (fun n => beBytes 8 n.toNat)).flatten ++ timeBytes c.lastArrival }

/-- CMD_STREAM_STATUS (Table 4.11). -/
def execCmdStreamStatus (r : CmdRef) (b : List Byte) (s : State) : Out := runCmd streamStatusDef r b s

def FwdState.parse (f : FwdState) (p : Nat) : ParseCtrs := if p = 0 then f.parseA else f.parseB
def FwdState.setParse (f : FwdState) (p : Nat) (c : ParseCtrs) : FwdState :=
  if p = 0 then { f with parseA := c } else { f with parseB := c }

def parseCountersDef : CmdDef where
  opcode := 0x0208
  reads := true
  fields := [fN 1, fR 3]
  checks := fun e => [ range (e.at 0) 0 1 0 ]
  effect := fun e =>
    let c := e.s.fwd.parse (e.at 0)
    { result := ([c.frames, c.vlanStacked, c.notIp, c.ipBad, c.ipOptions, c.ipFragment, c.notUdp, c.unmatched, c.stunDropped,
        c.notRtp, c.rtcpFwDrops, c.unknownSsrc, c.udpChecksum, c.clusterOverrun].map (fun n => beBytes 8 n.toNat)).flatten }

/-- CMD_PARSE_COUNTERS (Table 4.12). -/
def execCmdParseCounters (r : CmdRef) (b : List Byte) (s : State) : Out := runCmd parseCountersDef r b s

end Sys2Proof.Machine
end

