-- ==== Sys2Proof/Machine/RtpWire.lean ====
section
/-! DEFINITION. What the parser reads of a received frame (R84, R85, R105). -/

namespace Sys2Proof

open Sys2Proof.Machine

/- A frame. -/

def FrameRx.eth (f : FrameRx) : EthFrame := ethOf f.bytes
def FrameRx.ip (f : FrameRx) : IpPkt := f.eth.ip
/-- From destination MAC through FCS. -/
def FrameRx.len (f : FrameRx) : Nat := f.bytes.length
def FrameRx.fcsOk (f : FrameRx) : Bool := fcsGood f.bytes
/-- A PAUSE or priority flow control frame (R331). -/
def FrameRx.pause (f : FrameRx) : Bool := f.eth.isPause
def FrameRx.dstUdp (f : FrameRx) : Nat := f.ip.dstUdp
/-- The payload of its UDP datagram. -/
def FrameRx.udp (f : FrameRx) : List Byte := f.ip.udpPayload
/-- The sender's SSRC of an RTP packet, and of an RTCP compound (R404). -/
def FrameRx.ssrc (f : FrameRx) : W32 := BitVec.ofNat 32 (fieldAt f.udp 8 4)
def FrameRx.rtcpSsrc (f : FrameRx) : W32 := BitVec.ofNat 32 (fieldAt f.udp 4 4)
/-- A VCP packet of the frame: where it came from and arrived, and its bytes (R28). -/
def FrameRx.vcp (f : FrameRx) : VcpRx :=
  { dt := f.dt
    peer := { port := f.port, iface := f.iface, vid := f.eth.vid, addr := f.ip.src, udp := f.ip.srcUdp, localAddr := f.ip.dst, localUdp := f.dstUdp }
    bytes := f.udp }

/- An RTP packet. -/

/-- The packet as a frame. -/
def RtpRx.frame (p : RtpRx) : FrameRx := { dt := p.dt, port := p.port, iface := p.iface, bytes := p.bytes, haps := p.haps }
def RtpRx.eth (p : RtpRx) : EthFrame := ethOf p.bytes
def RtpRx.ip (p : RtpRx) : IpPkt := p.eth.ip
def RtpRx.family (p : RtpRx) : Nat := p.ip.family
def RtpRx.dstAddr (p : RtpRx) : Nat := p.ip.dst
def RtpRx.dstUdp (p : RtpRx) : Nat := p.ip.dstUdp
/-- The UDP payload, and the RTP packet in it. -/
def RtpRx.udp (p : RtpRx) : List Byte := p.ip.udpPayload
def RtpRx.rtp (p : RtpRx) : RtpPkt := rtpOf p.udp
def RtpRx.ssrc (p : RtpRx) : W32 := p.rtp.ssrc
def RtpRx.seq (p : RtpRx) : W16 := p.rtp.seq
def RtpRx.ts (p : RtpRx) : W32 := p.rtp.ts
/-- From destination MAC through FCS, and the IP packet. -/
def RtpRx.len (p : RtpRx) : Nat := p.bytes.length
def RtpRx.ipLen (p : RtpRx) : Nat := p.ip.len
def RtpRx.dscp (p : RtpRx) : Nat := p.ip.dscp
def RtpRx.udpOk (p : RtpRx) : Bool := p.ip.udpSumOk
/-- The RTP header with its extension block, as received. -/
def RtpRx.header (p : RtpRx) : List Byte := p.udp.take (p.udp.length - p.rtp.body.length)
/-- The frame's length agrees with what its IP header states (R108); a short frame is padded to 64 bytes. -/
def RtpRx.lengthOk (p : RtpRx) : Bool :=
  let whole := p.bytes.length - p.eth.rest.length + p.ipLen
  p.bytes.length == whole || (p.bytes.length == 64 && decide (whole ≤ 64))
/-- The bytes of a payload that hold its layer information (Table 4.2). -/
def layerBytes (format : Nat) : Nat := match format with | 2 => 4 | 3 => 5 | _ => 0
/-- The fields that the rewriter writes and the layer information lie in the frame's first 128 bytes (R105). -/
def RtpRx.inWindow (p : RtpRx) (format : Nat) : Bool :=
  decide (p.bytes.length - 4 - p.eth.rest.length + (p.ipLen - p.ip.body.length) + 8 + p.header.length + layerBytes format ≤ 128)
/-- The packet in clear: its payload as a key context opens it, as received where there is none. -/
def RtpRx.clear (p : RtpRx) (k : Option KeyCtx) (index : Nat) : RtpPkt :=
  match k with
  | some k => { p.rtp with body := k.srtpOpen index p.header p.rtp.body }
  | none => p.rtp
/-- What the packet delivers (R99): its payload without the padding that its header announces. -/
def RtpRx.delivered (p : RtpRx) (r : RtpPkt) : Delivered :=
  { seq := r.seq, ts := r.ts, m := r.m, data := r.payload, start := p.start, au := p.au, twentyMs := p.twentyMs, fecNext := p.fecNext }

end Sys2Proof
end

