-- ==== Sys2Proof/Machine/Packet.lean ====
section
/-! DEFINITION. Packets on the standard path and on the express path (R101 to R108).
Corners of forwarding: DEDUCED (log entry 26). -/

namespace Sys2Proof.Machine

/-- The port context of a lookup key (R87). -/
def FwdState.lookup (f : FwdState) (port family addr udp : Nat) (ssrc : W32) : Option (Nat × Stream) :=
  (f.bound port family addr udp).find? (fun p => p.2.cfg.ssrc == ssrc)

def State.modParse (s : State) (port : Nat) (f : ParseCtrs → ParseCtrs) : State :=
  { s with fwd := s.fwd.setParse port (f (s.fwd.parse port)) }

/-- A packet of a context fails before its copies are made: its provisional mark is cleared. -/
def State.unmark (s : State) (ctx i : Nat) : State := s.modStream ctx (fun x => x.unmark i)

/-- A packet passes authentication under the key context `key` (R102, R122): its mark is final, and the first packet under next_ctx
rolls the stream. -/
def State.authenticate (s : State) (ctx i key : Nat) : State :=
  s.modStream ctx (fun x =>
    let y := x.authenticated i
    if key != 0 && key != x.cfg.keyCtx && key == s.nextKey x then { y with prevKey := y.cfg.keyCtx, cfg := { y.cfg with keyCtx := key } } else y)

/-- An armed import takes the UDP packets to its address and port, ahead of rule 11 of Table 4.1 (R132). -/
def State.importTakes (s : State) (f : FrameRx) : Bool :=
  let x := s.cipher.imp f.port
  (x.state == 1 || x.state == 2) && x.port == f.port && x.family == f.ip.family && x.dstAddress == f.ip.dst && x.dstUdpPort == f.dstUdp

/-- The package of the port is up, and a UDP packet of the frame reaches the packet clusters (Table 4.1). -/
def State.reachesClusters (s : State) (f : FrameRx) : Bool :=
  s.serving && decide (f.port ≤ 1) && s.pkgUp f.port && f.ip.isUdp && !f.ip.bad && !s.importTakes f

/-- The context that a packet is looked up under. -/
def State.contextOf (s : State) (p : RtpRx) : Option (Nat × Stream) := s.fwd.lookup p.port p.family p.dstAddr p.dstUdp p.ssrc

/-- A packet that passed its ingress checks, in clear, is delivered and copied (R99, R101). -/
def State.passPacket (s : State) (ctx : Nat) (p : RtpRx) (r : RtpPkt) : State :=
  match s.stream ctx with
  | none => s
  | some x =>
    let f := rtpFwd r x s.now
    let s1 := (s.seenPacket ctx r.seq r.ts (rtpStruct r x) f.layers).modStream ctx (fun y => { y with sender := some (p.ip.src, p.ip.srcUdp) })
    (s1.deliver x.cfg (p.delivered r) s.now).forward ctx f

/-- The message that opens a packet under a key context becomes ready. -/
def State.openRtp (s : State) (ctx i : Nat) (c : StreamCfg) (key : Nat) (p : RtpRx) : State :=
  match s.key key with
  | some k => s.streamWork ctx c (k.srtpIn i p.header p.rtp.body)
  | none => s

/-- A packet that passed its header-time checks with index i is judged by its key context: spent, unknown MKI, failed tag, or good (R101, R116, R122). -/
def State.judgeRtp (s : State) (ctx i : Nat) (x : Stream) (p : RtpRx) : State :=
  if p.poison then (s.unmark ctx i).authFailed ctx p.seq 1 x.targets.length
  else if x.cfg.keyCtx = 0 then (s.authenticate ctx i 0).passPacket ctx p p.rtp
  else match s.namedKey x p.rtp.body with
    | none => (s.unmark ctx i).mkiUnknown ctx x.cfg.keyCtx (s.mkiOf x p.rtp.body) 1
    | some key =>
      let (s1, ok) := s.grant key false
      if !ok then (s1.unmark ctx i).countStream ctx (fun c => { c with keySpent := c.keySpent + 1 })
      else
        let s2 := s1.openRtp ctx i x.cfg key p
        if s.verifies key i p.header p.rtp.body then (s2.authenticate ctx i key).passPacket ctx p (p.clear (s.key key) i)
        else (s2.unmark ctx i).authFailed ctx p.seq 1 x.targets.length

/-- A packet of a context on the standard path (R86, R101, R102). -/
def State.standardPath (s : State) (ctx : Nat) (x : Stream) (p : RtpRx) : State :=
  let s1 := (s.haps p.haps).countArrival ctx p.len
  if x.cfg.keyCtx = 0 ∧ !p.udpOk then s1.modParse p.port (fun c => { c with udpChecksum := c.udpChecksum + 1 })
  else
    let (s2, idx) := s1.letIn ctx p.seq p.ipLen p.dscp
    match idx with
    | none => s2
    | some i => s2.judgeRtp ctx i x p

/-- RTP_PACKET: a packet of an unpinned context, received in full (R86, R101, R102). -/
def execRtpPacket (p : RtpRx) (s0 : State) : Out :=
  let s := s0.advance p.dt
  if !(s.reachesClusters p.frame && fcsGood p.bytes) then .next s
  else match s.contextOf p with
    | none => .next s
    | some (ctx, x) => if x.pinned then .next s else .next (s.standardPath ctx x p)

/- The express path (R105 to R108). -/

/-- From the ingress to the egress time-stamp point on the express path (R106), by the rate of the port's interfaces. -/
def cutDelay (rateIf : Nat) : Instant := if rateIf = 800 then ns 36 else if rateIf = 400 then ns 376 / 10 else ns 448 / 10

/-- The time that n bytes take at a rate. -/
def byteTime (rateIf n : Nat) : Instant := if rateIf = 0 then 0 else n * 8 * 65536 / rateIf

/-- A key context that can serve the express path: none, or one in counter mode (R104, R113). -/
def State.counterKey (s : State) (key : Nat) : Bool := key == 0 || (match s.key key with | some k => transformCounter k.transform | none => false)

/-- Whether a copy may leave cut-through (R105, R138). -/
def State.cutAllowed (s : State) (p : RtpRx) (x : StreamCfg) (struct : Bool) (t : TargetCfg) (len : Nat) : Bool :=
  let l := s.egress.leg t.leg
  let port := s.port t.port
  let e := s.egress.iface (ifNo t.port t.iface)
  let first := s.now + cutDelay port.rateIf
  let last := first + wireTime port.rateIf len
  t.port == p.port && decide (port.rateIf ≤ (s.port p.port).rateIf) &&
  t.family == 4 && t.zeroUdpChecksum &&
  p.inWindow x.payloadFormat && !struct &&
  s.egress.legs.has t.leg && l.queue.isEmpty && (match e.tx with | some f => f.cls != l.cfg.cls && decide (f.until_ ≤ first) | none => true) &&
  e.cuts.all (fun f => !(f.cls == l.cfg.cls && decide (f.start ≤ s.now ∧ s.now < f.until_)) && (decide (f.until_ ≤ first) || decide (last ≤ f.start))) &&
  decide (0 ≤ (l.bucketAt s.now).level) && decide (0 ≤ (s.egress.classBucketAt t.port t.iface l.cfg.cls s.now).level) && !l.cfg.timed &&
  s.counterKey x.keyCtx && s.counterKey t.keyCtx && (t.keyCtx == 0 || (match s.key t.keyCtx with | some k => !k.spentSrtp | none => false)) &&
  decide (p.len ≤ len + 32) &&
  (s.egress.guarded t.port t.iface none first).all (fun w => decide (last ≤ w.1) || decide (w.2 ≤ first))

/-- A cut-through copy leaves with a UDP checksum of zero (Table 4.3). -/
def Copy.unsummed (c : Copy) : Copy :=
  match c.payload with
  | .media h => { c with payload := .media { h with net := { h.net with sum := false } } }
  | _ => c

/-- A cut-through copy is committed (R106, R138): it debits its buckets, takes no part in the round robin, and leaves at a fixed
delay. -/
def State.commitCut (s : State) (cut : Nat) (t : TargetCfg) (c : Copy) : State :=
  let n := ifNo t.port t.iface
  let rate := (s.port t.port).rateIf
  let first := s.now + cutDelay rate
  let l := s.egress.leg t.leg
  let x := s.egress.iface n
  let copy := (c.committed first (s.fwd.ipId t.port)).unsummed
  let tx : InTx := { leg := some t.leg, cls := l.cfg.cls, copy := copy, start := first, until_ := first + wireTime rate c.len, cut := some cut }
  let l1 := { l with bucket := if l.shaped then (l.bucketAt s.now).debit c.len x.overhead else l.bucket, sent := l.sent + 1 }
  let k := x.cls l.cfg.cls
  let cb := (s.egress.classBucketAt t.port t.iface l.cfg.cls s.now).debit c.len x.overhead
  let x1 := { x with cuts := x.cuts ++ [tx], classes := if k.rate == noRate then x.classes else x.classes.put l.cfg.cls { k with bucket := cb } }
  { s with egress := { s.egress with ifaces := s.egress.ifaces.put n x1, legs := s.egress.legs.put t.leg l1 }, fwd := s.fwd.bumpIpId t.port }

def State.modCut (s : State) (id : Nat) (f : Cut → Cut) : State :=
  { s with fwd := { s.fwd with cuts := s.fwd.cuts.map (fun c => if c.id = id then f c else c) } }

/-- One target of a packet on the express path: its copy is committed cut-through, or enters its leg queue, which keeps it until the verdict
(R105). Its key use is granted here in either case (DEDUCED, log entry 62). -/
def State.expressOne (p : RtpRx) (f : FwdPkt) (struct : Bool) (ctx cut : Nat) (s0 : State) (num : Nat) : State :=
  let (s, fw) := s0.selectFor ctx num f
  if !fw then s
  else match s.stream ctx with
    | none => s
    | some x =>
      match x.targets.find num with
      | none => s
      | some t =>
        let (s1, copy) := s.copyFor ctx num x t f
        if s1.cutAllowed p x.cfg struct t.cfg copy.len then
          let (s2, _) := s1.grantOut t.cfg.keyCtx
          let ingress := (s2.key x.cfg.keyCtx).map (fun k => k.srtpIn ((s2.fwd.cuts.find? (fun c => c.id == cut)).map (·.index) |>.getD 0) p.header p.rtp.body)
          let s3 := s2.cutWork (ctxPkg ctx) (clusterOfStream ctx x.cfg) ingress copy.message
          ((s3.commitCut cut t.cfg copy).sentFor ctx num f.seq copy).modCut cut (fun c => { c with targets := c.targets ++ [num] })
        else
          let (s2, queued) := s.queueFor ctx num f (some cut)
          if queued then s2.modCut cut (fun c => { c with waiting := c.waiting ++ [num] }) else s2

/-- What is known of a pinned packet at its layer decision, and what its last bytes will say (R107, R122, R123). -/
def State.cutOf (s : State) (ctx i : Nat) (x : Stream) (p : RtpRx) (r : RtpPkt) : Cut :=
  let rate := (s.port p.port).rateIf
  let named := s.namedKey x p.rtp.body
  { id := s.fwd.nextCut, ctx := ctx, seq := p.seq, index := i, keyUsed := x.cfg.keyCtx, keyNamed := named,
    tagOk := match named with | some k => s.verifies k i p.header p.rtp.body | none => false,
    frameOk := fcsGood p.bytes && p.lengthOk, tagAt := s.now + byteTime rate (p.len - 4), endAt := s.now + byteTime rate p.len,
    cfg := x.cfg, next := s.nextKey x, mki := s.mkiOf x p.rtp.body, targets := [], waiting := [], arrival := s.now, payload := p.delivered r }

/-- A packet of a pinned context at its layer decision. -/
def State.expressPath (s : State) (ctx : Nat) (x : Stream) (p : RtpRx) : State :=
  let (s1, idx) := ((s.haps p.haps).countArrival ctx p.len).letIn ctx p.seq p.ipLen p.dscp
  match idx with
  | none => s1
  | some i =>
    let (s2, ok) := if x.cfg.keyCtx = 0 then (s1, true) else s1.grant x.cfg.keyCtx false
    if !ok then (s2.unmark ctx i).countStream ctx (fun c => { c with keySpent := c.keySpent + 1 })
    else
      let r := p.clear (s2.key x.cfg.keyCtx) i
      let cut := s2.cutOf ctx i x p r
      let f := rtpFwd r x s.now
      let struct := rtpStruct r x
      let s3 := (s2.seenPacket ctx r.seq r.ts struct f.layers).modStream ctx (fun y => { y with sender := some (p.ip.src, p.ip.srcUdp) })
      let s4 := { s3 with fwd := { s3.fwd with cuts := s3.fwd.cuts ++ [cut], nextCut := cut.id + 1 } }
      x.targets.keys.foldl (State.expressOne p f struct.isSome ctx cut.id) s4

/-- EXPRESS_PACKET: a packet of a pinned context at its layer decision (R105, R108, R123). `dt` brings the clock to its ingress stamp. -/
def execExpressPacket (p : RtpRx) (s0 : State) : Out :=
  let s := s0.advance p.dt
  if !s.reachesClusters p.frame then .next s
  else match s.contextOf p with
    | none => .next s
    | some (ctx, x) => if x.pinned then .next (s.expressPath ctx x p) else .next s

/-- Mark the cut-through copies of a packet that have not ended (R107, R108). -/
def State.markCuts (s : State) (cut : Nat) (f : MediaHdr → MediaHdr) : State :=
  let mark := fun (t : InTx) =>
    if t.cut == some cut then
      match t.copy.payload with
      | .media h => { t with copy := { t.copy with payload := .media (f h) } }
      | _ => t
    else t
  { s with egress := { s.egress with ifaces := s.egress.ifaces.mapVals (fun _ x => { x with cuts := x.cuts.map mark }) } }

/-- The copies of a packet that wait for its verdict may leave. -/
def State.releaseHeld (s : State) (cut : Nat) : State :=
  { s with egress := { s.egress with legs := s.egress.legs.mapVals (fun _ l =>
      { l with queue := l.queue.map (fun c => if c.hold == some cut then { c with hold := none } else c) }) } }

/-- The copies of a packet that wait for its verdict are discarded, and their cells are freed (R107). -/
def State.discardHeld (s : State) (cut : Nat) : State :=
  let held := fun (port : Nat) => sumN ((s.egress.legs.filter (fun q => q.2.cfg.port == port)).map (fun q =>
    sumN ((q.2.queue.filter (fun c => c.hold == some cut)).map (fun c => cellsOf c.len))))
  let e := { s.egress with legs := s.egress.legs.mapVals (fun _ l => { l with queue := l.queue.filter (fun c => c.hold != some cut) }) }
  let e0 := (e.setCells 0 (e.cells 0 - held 0)).admitWaiting 0 s.now 64
  { s with egress := (e0.setCells 1 (e0.cells 1 - held 1)).admitWaiting 1 s.now 64 }

/-- Drop a cut-through packet's record once its verdict and its end are known. -/
def State.closeCut (s : State) (id : Nat) : State :=
  { s with fwd := { s.fwd with cuts := s.fwd.cuts.filter (fun c => !(c.id == id && c.verdict.isSome && c.ended)) } }

/-- Bitmap of targets 0 to 7. -/
def targetBits (l : List Nat) : Nat := sumN (((List.range 8).filter (fun k => l.contains k)).map (fun k => 2 ^ k))

/-- The verdict on a packet (R107, R123): its tag verifies under the key context whose keystream was used. A packet without a key has none. -/
def Cut.good (c : Cut) : Bool := c.keyUsed == 0 || (c.keyNamed == some c.keyUsed && c.tagOk)

/-- A good verdict: the mark is final, the payload is delivered, and the copies that waited may leave. -/
def State.passCut (s : State) (c : Cut) : State :=
  ((s.authenticate c.ctx c.index c.keyUsed).deliver c.cfg c.payload c.arrival).releaseHeld c.id

/-- A packet whose tag verifies under next_ctx rolls the stream although its copies are poisoned (R123). -/
def State.rollByCut (s : State) (c : Cut) : State :=
  if c.tagOk && c.next != 0 && c.keyNamed == some c.next then
    s.modStream c.ctx (fun y => if y.cfg.keyCtx = c.keyUsed then { y with prevKey := y.cfg.keyCtx, cfg := { y.cfg with keyCtx := c.next } } else y)
  else s

/-- A failed verdict (R107, R122): cut-through copies are poisoned, counted and reported once; the others are discarded and counted. -/
def State.failCut (s : State) (c : Cut) : State :=
  let n := c.targets.length
  let s1 := ((s.unmark c.ctx c.index).rollByCut c).countStream c.ctx (fun k => { k with poisoned := k.poisoned + BitVec.ofNat 64 n })
  let s2 := if n = 0 then s1 else
    (s1.markCuts c.id (fun h => { h with poisoned := true })).raise (fwdSource (ctxPkg c.ctx)) 0x0003
      (ctxSeqData c.ctx c.seq + dCode 76 8 (targetBits c.targets)) (ctxPkg c.ctx)
  let failed := if n = 0 then max 1 c.waiting.length else c.waiting.length
  let s3 := s2.discardHeld c.id
  match c.keyNamed with
  | none => s3.mkiUnknown c.ctx c.keyUsed c.mki failed
  | some _ => if failed = 0 then s3 else s3.authFailed c.ctx c.seq failed c.waiting.length

/-- TAG_VERDICT: the late verdict of a pinned context's packet, once the last bit of its tag is in (R107, R123). -/
def execTagVerdict (dt cut : Nat) (s0 : State) : Out :=
  let s := s0.advance dt
  match s.fwd.cuts.find? (fun c => c.id == cut && c.verdict.isNone) with
  | none => .next s
  | some c =>
    if s.now < c.tagAt then .next s
    else
      let s1 := s.modCut cut (fun c => { c with verdict := some c.good })
      .next ((if c.good then s1.passCut c else s1.failCut c).closeCut cut)

/-- A frame that ends badly: its cut-through copies are stomped, counted and reported (R108). -/
def State.stompCut (s : State) (c : Cut) : State :=
  if c.frameOk || c.targets.isEmpty then s
  else
    ((s.markCuts c.id (fun h => { h with stomped := true })).countStream c.ctx
      (fun k => { k with fcsStomped := k.fcsStomped + BitVec.ofNat 64 c.targets.length })).raise (fwdSource (ctxPkg c.ctx)) 0x0004
        (ctxSeqData c.ctx c.seq + dCode 76 8 (targetBits c.targets)) (ctxPkg c.ctx)

/-- INGRESS_FRAME_END: the ingress frame of a cut-through packet ends (R108). -/
def execIngressFrameEnd (dt cut : Nat) (s0 : State) : Out :=
  let s := s0.advance dt
  match s.fwd.cuts.find? (fun c => c.id == cut && !c.ended) with
  | none => .next s
  | some c =>
    if s.now < c.endAt then .next s
    else .next (((s.modCut cut (fun c => { c with ended := true })).stompCut c).closeCut cut)

/- RTCP and classification (R84, R90, R404). -/

/-- A packet on a bound address and port matches no context (R90): dropped, counted, and reported at most once a second for each port,
address and UDP port. -/
def State.unknownSsrc (s : State) (port addr udp : Nat) (ssrc : W32) : State :=
  let s1 := s.modParse port (fun c => { c with unknownSsrc := c.unknownSsrc + 1 })
  let recent := s.fwd.ssrcEvents.any (fun e => e.1 == port && e.2.1 == addr && e.2.2.1 == udp && decide (s.now < e.2.2.2 + sec 1))
  if recent then s1
  else
    let kept := s1.fwd.ssrcEvents.filter (fun e => decide (s.now < e.2.2.2 + sec 1))
    ({ s1 with fwd := { s1.fwd with ssrcEvents := kept ++ [(port, addr, udp, s.now)] } }).raise (fwdSource port) 0x0001
      (dCode 88 32 ssrc.toNat + dCode 72 16 udp + dCode 64 8 port) port

/-- CLUSTER_OVERRUN (R82): the distributor drops a frame that a cluster's FIFO cannot accept. -/
def State.clusterOverrun (s : State) (port cluster : Nat) : State :=
  let k := 8 * port + cluster
  let (fire, lim) := (s.fwd.overrunEvents.getD k {}).hit s.now (ms 1)
  let s1 := (s.modParse port (fun c => { c with clusterOverrun := c.clusterOverrun + 1 }))
  let s2 := { s1 with fwd := { s1.fwd with overrunEvents := s1.fwd.overrunEvents.put k lim } }
  match fire with
  | some n => s2.raise (fwdSource port) 0x0007 (dCode 112 8 cluster + dBits 80 32 n) port
  | none => s2

/-- One more RTCP packet for firmware in this second (Table 4.1 rule 14): whether it may pass. -/
def State.rtcpBudget (s : State) (port : Nat) : State × Bool :=
  let f := if s.fwd.rtcpSecond = secOf s.now then s.fwd else { s.fwd with rtcpSecond := secOf s.now, rtcpCount0 := 0, rtcpCount1 := 0 }
  let n := if port = 0 then f.rtcpCount0 else f.rtcpCount1
  if 1000000 ≤ n then (({ s with fwd := f }).modParse port (fun c => { c with rtcpFwDrops := c.rtcpFwDrops + 1 }), false)
  else
    let g := if port = 0 then { f with rtcpCount0 := n + 1 } else { f with rtcpCount1 := n + 1 }
    ({ s with fwd := { g with toFirmware := g.toFirmware + 1 } }, true)

/-- The die-sourced contexts that a receiver's message names: a target of theirs is sent under that SSRC. -/
def FwdState.sentUnder (f : FwdState) (ssrc : W32) : List (Nat × Stream) :=
  f.streams.filter (fun p => p.2.cfg.sourceKind == 1 && p.2.targets.any (fun t => t.2.cfg.ssrcOut == ssrc))

/-- The port contexts whose copies leave under an SSRC. -/
def FwdState.relayedAs (f : FwdState) (ssrc : W32) : List (Nat × Stream) :=
  f.streams.filter (fun p => p.2.cfg.sourceKind == 0 && p.2.targets.any (fun t => t.2.cfg.ssrcOut == ssrc))

/-- Firmware receives a PLI or FIR (R216): a leg with auto_key schedules a key frame. -/
def State.keyRequest (s : State) (ssrc : W32) : State :=
  let bufs := (s.fwd.sentUnder ssrc).map (fun p => p.2.cfg.bufferHandle)
  { s with video := { s.video with encodes := s.video.encodes.mapVals (fun _ x =>
      if x.cfg.autoKey && bufs.contains x.bitstream then { x with keyPli := x.keyPli ++ [s.now + ms 2] } else x) } }

/-- The packets of an RTCP compound: format, type and whole packet (on fuel). -/
def rtcpPackets : Nat → List Byte → List (Nat × Nat × List Byte)
  | 0, _ => []
  | f + 1, b =>
    let n := 4 * (fieldAt b 2 2 + 1)
    if b.length < n then [] else (fieldAt b 0 1 % 32, fieldAt b 1 1, b.take n) :: rtcpPackets f (b.drop n)

/-- A feedback message (RFC 4585, RFC 5104): 1 PLI, 2 FIR, 3 NACK, with the SSRCs of the media that it is about. -/
def feedbackOf (p : Nat × Nat × List Byte) : Option (Nat × List W32) :=
  let ssrc := fun off => BitVec.ofNat 32 (fieldAt p.2.2 off 4)
  if p.2.1 = 206 ∧ p.1 = 1 then some (1, [ssrc 8])
  else if p.2.1 = 206 ∧ p.1 = 4 then some (2, (List.range ((p.2.2.length - 12) / 8)).map (fun k => ssrc (12 + 8 * k)))
  else if p.2.1 = 205 ∧ p.1 = 1 then some (3, [ssrc 8])
  else none

/-- Firmware sends a feedback message toward the sender of a context, from the address and port at which the context receives: under the
context's key where it has one, with a use of that key (R116). What the message says is firmware's (DESIGN CHOICE, log entry 63). -/
def State.sendRtcp (s : State) (ctx kind : Nat) (x : Stream) (m : List Byte) : State :=
  match x.sender with
  | none => s
  | some (addr, udp) =>
    let (s1, ok) := if x.cfg.keyCtx = 0 then (s, true) else s.grant x.cfg.keyCtx true
    if !ok then s1.countStream ctx (fun c => { c with keySpent := c.keySpent + 1 })
    else
      let clear := Config.relayMessage ctx kind m
      let i := s1.fwd.rtcpIndex.getD x.cfg.keyCtx 0
      let body := match s1.key x.cfg.keyCtx with | some k => k.srtcpSeal i clear | none => clear
      let s1w := match s1.key x.cfg.keyCtx with | some k => s1.streamWork ctx x.cfg (k.srtcpOut i clear) | none => s1
      let s2 := { s1w with fwd := { s1w.fwd with rtcpIndex := s1w.fwd.rtcpIndex.put x.cfg.keyCtx (i + 1) } }
      s2.sendInternal x.cfg.port 0
        { len := frameOverhead x.cfg.family + body.length, enq := s.now, arrival := s.now, dstUdp := udp, dstAddr := addr,
          srcUdp := x.cfg.dstUdpPort, srcAddr := x.cfg.dstAddress, body := body, payload := .rtcp ctx kind }

/-- Firmware takes one packet of an RTCP compound (R84, R216): a key frame that it asks a leg of the module for is scheduled, and it is relayed
toward the senders of the media that it is about where the controller's policy says so. -/
def State.feedback (s : State) (p : Nat × Nat × List Byte) : State :=
  match feedbackOf p with
  | none => s
  | some (kind, media) =>
    media.foldl (fun (t : State) ssrc =>
      let t1 := if kind = 3 then t else t.keyRequest ssrc
      (t1.fwd.relayedAs ssrc).foldl (fun (u : State) q => if Config.relays q.1 kind then u.sendRtcp q.1 kind q.2 p.2.2 else u) t1) s

/-- An RTCP packet of a context reaches firmware, in clear (Table 4.1 rule 14). -/
def State.toRtcp (s : State) (port : Nat) (rtcp : List Byte) : State :=
  let (s1, pass) := s.rtcpBudget port
  if pass then (rtcpPackets rtcp.length rtcp).foldl State.feedback s1 else s1

/-- An RTCP packet of a context: decrypted under its ingress key (R404). -/
def State.rtcpOf (s : State) (ctx : Nat) (x : Stream) (f : FrameRx) : State :=
  if x.cfg.keyCtx = 0 then s.toRtcp f.port f.udp
  else
    let (s1, ok) := s.grant x.cfg.keyCtx true
    if !ok then s1.countStream ctx (fun c => { c with keySpent := c.keySpent + 1 })
    else
      let s2 := match s1.key x.cfg.keyCtx with | some k => s1.streamWork ctx x.cfg (k.srtcpIn f.udp) | none => s1
      match (s1.key x.cfg.keyCtx).bind (fun k => k.srtcpOpen f.udp) with
      | none => s2.countStream ctx (fun c => { c with authFail := c.authFail + 1 })
      | some clear => s2.toRtcp f.port clear

/-- RTCP_PACKET (R404, Table 4.1 rule 14). -/
def execRtcpPacket (f : FrameRx) (s0 : State) : Out :=
  let s := s0.advance f.dt
  let t := fieldAt f.udp 1 1
  if !(s.reachesClusters f && f.fcsOk && fieldAt f.udp 0 1 / 64 == 2 && decide (192 ≤ t ∧ t ≤ 223)) then .next s
  else if (s.fwd.bound f.port f.ip.family f.ip.dst f.dstUdp).isEmpty then .next s
  else match s.fwd.lookup f.port f.ip.family f.ip.dst f.dstUdp f.rtcpSsrc with
    | none => .next ((s.haps f.haps).unknownSsrc f.port f.ip.dst f.dstUdp f.rtcpSsrc)
    | some (ctx, x) => .next ((s.haps f.haps).rtcpOf ctx x f)

end Sys2Proof.Machine
end

