-- ==== Sys2Proof/Machine/Cipher.lean ====
section
/-! DEFINITION. Key contexts, rolls and migration images: the commands of the range 0x03xx (05_cipher_engine.md).
Corners of the cipher engine: DEDUCED (log entry 27). -/

namespace Sys2Proof.Machine

/- Key contexts. -/

/-- The key context that CMD_KEY_INSTALL asks for: its session keys are derived once (R113). Keys and salts stand first in their fields. -/
def keyOf (e : Env) : KeyCtx :=
  let t := e.at 1
  let k : KeyCtx := { transform := t, mkiLength := e.at 4, mki := e.at 5, masterKey := e.at 6 / 256 ^ (32 - e.at 2),
                      masterSalt := e.at 7 / 256 ^ (16 - e.at 3), srtcpLimit := e.at 8,
                      srtpLimit := if e.at 9 = 2 ^ 64 then srtpCeiling t else e.at 9, nextCtx := e.at 10 }
  k.derive

/-- Identifiers are package[21] and index[20:0]; index 0 is never assigned (R114). -/
def keyTarget (e : Env) : Nat :=
  lowestFree (e.used (fun s => s.cipher.keys.keys)) (e.at 0 * 2 ^ 21 + 1)

/-- Two contexts have the same MKI (R121). -/
def sameMki (a b : KeyCtx) : Bool := a.mkiLength == b.mkiLength && a.mkiLength != 0 && a.mki == b.mki

/-- The refusals of a link from context k of package p to `next` (R121), at an offset. -/
def linkChecks (vw : State) (k : KeyCtx) (p next off : Nat) : List (Bool × Err) :=
  match vw.key next with
  | none => []
  | some n =>
    [ (sameMki k n, badAt .mkiInUse off), (n.spent, badAt .keySpent off), needs (keyPkg next == p) off ]

def keyInstallDef : CmdDef where
  opcode := 0x0301
  fields := [fN 1, fN 1, fN 1, fN 1, fN 1, fR 3, fN 4, fN 32, fN 16, fD 4 2147483648, fD 8 (2 ^ 64), fD 4 0]
  zero := fun v _ =>
    [ (decide (fv v 4 < 4 ∧ 256 ^ fv v 4 ≤ fv v 5), 8),
      (decide (fv v 2 < 32 ∧ fv v 6 % 256 ^ (32 - fv v 2) ≠ 0), 12),
      (decide (fv v 3 < 16 ∧ fv v 7 % 256 ^ (16 - fv v 3) ≠ 0), 44) ]
  checks := fun e =>
    let k := keyOf e
    [ needsSt (k.nextCtx == 0 || (e.vw.key k.nextCtx).isSome) .notFound 72,
      range (e.at 0) 0 1 0,
      range k.transform 1 7 1,
      needsSt (e.at 2 == transformKeyLen k.transform) .badKeyLength 2,
      needsSt (e.at 3 == transformSaltLen k.transform) .badKeyLength 3,
      range k.mkiLength 0 4 4,
      needsSt (decide (k.srtcpLimit ≤ srtcpCeiling)) .limitTooHigh 60,
      needs (decide (2048 ≤ k.srtcpLimit)) 60,
      needsSt (decide (k.srtpLimit ≤ srtpCeiling k.transform)) .limitTooHigh 64,
      needs (decide (2048 ≤ k.srtpLimit)) 64 ] ++
    linkChecks e.vw k (e.at 0) k.nextCtx 72 ++
    [ needsSt (decide (keyTarget e < (e.at 0 + 1) * 2 ^ 21)) .keyContextFull 0xFFFF ]
  effect := fun e =>
    { result := beBytes 4 (keyTarget e), stage := [(.instant, .cipher (.keyInstall (keyTarget e) (keyOf e)))] }

/-- CMD_KEY_INSTALL (R113, R114, R117, R121, Table 5.6). -/
def execCmdKeyInstall (r : CmdRef) (b : List Byte) (s : State) : Out := runCmd keyInstallDef r b s

def keyDeleteDef : CmdDef where
  opcode := 0x0302
  fields := [fN 4]
  checks := fun e => [ needsSt (e.vw.key (e.at 0)).isSome .notFound 0 ]
  effect := fun e => { stage := [(.instant, .cipher (.keyDelete (e.at 0)))] }

/-- CMD_KEY_DELETE (R115): the key material goes with the context. -/
def execCmdKeyDelete (r : CmdRef) (b : List Byte) (s : State) : Out := runCmd keyDeleteDef r b s

/-- The key context is used by a pinned stream context or its targets, so it is held on the die (R115). -/
def FwdState.onDie (f : FwdState) (key : Nat) : Bool :=
  f.streams.any (fun p => p.2.pinned && (p.2.cfg.keyCtx == key || p.2.targets.any (fun t => t.2.cfg.keyCtx == key)))

def keyStatusDef : CmdDef where
  opcode := 0x0303
  reads := true
  fields := [fN 4]
  checks := fun e => [ needsSt (e.s.key (e.at 0)).isSome .notFound 0 ]
  effect := fun e =>
    let k := (e.s.key (e.at 0)).getD {}
    let st := if k.spent then 2 else if k.near then 1 else 0
    { result := beBytes 1 k.transform ++ beBytes 1 k.mkiLength ++ beBytes 1 st ++ beBytes 1 (b2n (e.s.fwd.onDie (e.at 0))) ++
        beBytes 4 k.mki ++ beBytes 8 k.srtpCount ++ beBytes 8 k.srtpLimit ++ beBytes 4 k.srtcpCount ++
        beBytes 4 k.srtcpLimit ++ beBytes 4 k.nextCtx ++ beBytes 4 (e.s.fwd.keyRefs (e.at 0)) ++ beBytes 8 k.refused.toNat }

/-- CMD_KEY_STATUS (Table 5.7); a spent context is still valid for it (R118). -/
def execCmdKeyStatus (r : CmdRef) (b : List Byte) (s : State) : Out := runCmd keyStatusDef r b s

def keyLimitDef : CmdDef where
  opcode := 0x0304
  fields := [fN 4, fN 4, fN 8]
  checks := fun e =>
    let t := ((e.vw.key (e.at 0)).getD {}).transform
    [ needsSt (e.vw.key (e.at 0)).isSome .notFound 0,
      needsSt (decide (e.at 1 ≤ srtcpCeiling)) .limitTooHigh 4, needs (decide (2048 ≤ e.at 1)) 4,
      needsSt (decide (e.at 2 ≤ srtpCeiling t)) .limitTooHigh 8, needs (decide (2048 ≤ e.at 2)) 8 ]
  effect := fun e => { stage := [(.instant, .cipher (.keyLimit (e.at 0) (e.at 1) (e.at 2)))] }

/-- CMD_KEY_LIMIT (R117, R119). -/
def execCmdKeyLimit (r : CmdRef) (b : List Byte) (s : State) : Out := runCmd keyLimitDef r b s

def keyLinkDef : CmdDef where
  opcode := 0x0305
  fields := [fN 4, fN 4]
  checks := fun e =>
    [ needsSt (e.vw.key (e.at 0)).isSome .notFound 0,
      needsSt (e.at 1 == 0 || (e.vw.key (e.at 1)).isSome) .notFound 4 ] ++
    (if e.at 1 = 0 then [] else linkChecks e.vw ((e.vw.key (e.at 0)).getD {}) (keyPkg (e.at 0)) (e.at 1) 4)
  effect := fun e => { stage := [(.instant, .cipher (.keyLink (e.at 0) (e.at 1)))] }

/-- CMD_KEY_LINK (R121). -/
def execCmdKeyLink (r : CmdRef) (b : List Byte) (s : State) : Out := runCmd keyLinkDef r b s

def keyRollDef : CmdDef where
  opcode := 0x0306
  fields := [fN 4, fN 2, fR 2, fN 4]
  checks := fun e =>
    let x := e.vw.fwd.streams.find (e.at 0)
    let t := x.bind (fun y => y.targets.find (e.at 1))
    let ingress := e.at 1 == 0xFFFF
    let old := if ingress then (x.map (·.cfg.keyCtx)).getD 0 else (t.map (·.cfg.keyCtx)).getD 0
    let k := e.vw.key (e.at 2)
    [ needsSt x.isSome .notFound 0,
      needsSt (ingress || t.isSome) .notFound 4,
      needsSt (e.at 2 == 0 || k.isSome) .notFound 8,
      ((k.map KeyCtx.spent).getD false, badAt .keySpent 8),
      needs (e.at 2 != 0) 8,
      needs (old != 0) 8,
      needs (keyPkg (e.at 2) == ctxPkg (e.at 0)) 8 ]
  effect := fun e =>
    if e.at 1 = 0xFFFF then { stage := [(.instant, .fwd (.rollIngress (e.at 0) (e.at 2)))] }
    else { stage := [(.instant, .fwd (.rollTarget (e.at 0) (e.at 1) (e.at 2)))] }

/-- CMD_KEY_ROLL (R125, R133). -/
def execCmdKeyRoll (r : CmdRef) (b : List Byte) (s : State) : Out := runCmd keyRollDef r b s

/- Seal keys and images. -/

def sealKeyDef : CmdDef where
  opcode := 0x0307
  fields := [fN 1, fR 3, fN 4, fN 32, fN 48]
  checks := fun e =>
    let t := e.vw.cipher.sealKeys (e.at 0)
    [ range (e.at 0) 0 1 0, needs (t.has (e.at 1) || decide (t.length < 16)) 4 ]
  effect := fun e => { stage := [(.instant, .cipher (.sealKey (e.at 0) (e.at 1) (e.at 2) (e.at 3)))] }

/-- CMD_SEAL_KEY (R133): 16 keys to an IO die; a seventeenth identifier gets BAD_VALUE (the spec names no status). -/
def execCmdSealKey (r : CmdRef) (b : List Byte) (s : State) : Out := runCmd sealKeyDef r b s

def exportFields : List Fld := [fN 1, fN 1, fN 1, fN 1, fN 4, fN 4, fN 16, fN 2, fN 2, fN 4, fN 4, fN 4, fN 2, fR 2]

/-- Offsets of the fields of Table 5.8, in order. -/
def exportOffsets : List Nat := [0, 1, 2, 3, 4, 8, 12, 28, 30, 32, 36, 40, 44]

/-- The listed fields (by index) must be zero (Table 5.8: fields that an action does not use are zero). -/
def unusedZero (v : List Nat) (offsets unused : List Nat) : List (Bool × Nat) :=
  unused.map (fun i => (fv v i != 0, nth offsets i 0))

/-- An IPv4 address field has its first 12 bytes zero (Table 2.11, R49). -/
def v4Zero (family addr off : Nat) : Bool × Nat := (family == 4 && decide (2 ^ 32 ≤ addr), off)

def listedObjects (tl : List Byte) : List (Nat × Nat) :=
  (chunks 8 128 tl).map (fun c => (beNat (c.take 4), beNat (c.drop 4)))

/-- Result of CMD_SEAL_EXPORT (Table 5.8). -/
def exportResult (x : Export) : List Byte :=
  beBytes 1 x.state ++ zeros 3 ++ beBytes 8 (if x.state < 2 then 0 else x.imageLen) ++ beBytes 8 x.bytesSent

/-- A buffer is named by an entry of the table bank that is active in some cluster at an instant (R130): the bank of the latest beat whose walk
has begun by then. -/
def inActiveBank (s : State) (t : Instant) (h : Nat) : Bool :=
  s.escs.any (fun p => (s.bankAt p.1 (t + walkLead)).entries.any (fun d => d.inHandle == h || d.outHandle == h || d.paramHandle == h))

def exportSendDef : CmdDef where
  opcode := 0x0308
  fields := exportFields
  tail := some (fun v => 8 * fv v 12)
  zero := fun v _ => v4Zero (fv v 2) (fv v 6) 12 :: unusedZero v exportOffsets [10, 11]
  mine := selects 0 0 4
  checks := fun e =>
    let objs := listedObjects e.tail
    let pkg := e.at 1
    let names := objs.map (·.1)
    [ needsSt ((e.vw.cipher.sealKeys pkg).has (e.at 5)) .notFound 8,
      needsSt (names.all (fun h => !handleOk h || e.vw.mem.buffers.has h)) .notFound 48,
      ((e.s.vcp.holder (.sealExport pkg)).isSome,
        match e.s.vcp.holder (.sealExport pkg) with | some c => e.s.heldErr c c.site 1 | none => badAt .resourceHeld 1),
      needs (e.at 0 == 0) 0,
      range pkg 0 1 1,
      needs (e.at 2 == 4 || e.at 2 == 6) 2,
      range (e.at 3) 0 7 3,
      range (e.at 9) 100 100000 32,
      range (e.at 12) 1 128 44,
      needs (names.all handleOk) 48,
      needs (objs.all (fun o => o.2 == handleKind o.1 && kindExportable o.2)) 48,
      needs (decide (imageBytes e.vw.mem names ≤ 2 ^ 32)) 48,
      needs (names.all (fun h => !inActiveBank e.s (max e.applyAt e.s.now) h)) 48 ]
  effect := fun e =>
    let x : Export := { port := e.at 1, family := e.at 2, trafficClass := e.at 3, imageId := e.at 4, sealKeyId := e.at 5,
                        dstAddress := e.at 6, dstUdpPort := e.at 7, srcUdpPort := e.at 8, rate := e.at 9,
                        handles := (listedObjects e.tail).map (·.1) }
    { result := exportResult { x with state := 1 }, claims := [(ioSite (e.at 1), .sealExport (e.at 1))],
      stage := [(.instant, .cipher (.exportStart (e.at 1) x))] }

/-- CMD_SEAL_EXPORT action 0 (R128, R130, R131, R311): takes the claim, seals and sends. -/
def execCmdSealExportSend (r : CmdRef) (b : List Byte) (s : State) : Out := runCmd exportSendDef r b s

/-- Actions 1 to 3 name an export by port and image; none there gets NOT_FOUND. -/
def exportExists (s : State) (e : Env) : Bool := (s.cipher.exp (e.at 1)).state != 0

def exportResendDef : CmdDef where
  opcode := 0x0308
  fields := exportFields
  tail := some (fun v => 8 * fv v 12)
  zero := fun v _ => unusedZero v exportOffsets [2, 3, 5, 6, 7, 8, 9, 12]
  mine := selects 0 1 4
  checks := fun e =>
    let x := e.vw.cipher.exp (e.at 1)
    let n := segmentCount x.imageLen
    [ needsSt (exportExists e.vw e && x.imageId == e.at 4) .notFound 4,
      needs (e.at 0 == 1) 0,
      range (e.at 1) 0 1 1,
      needs (decide (e.at 10 < n)) 36,
      needs (decide (e.at 10 + e.at 11 ≤ n)) 40 ]
  effect := fun e =>
    let x := e.vw.cipher.exp (e.at 1)
    let n := segmentCount x.imageLen
    let until_ := if e.at 11 = 0 then n else e.at 10 + e.at 11
    { result := exportResult (e.s.cipher.exp (e.at 1)),
      stage := [(.instant, .cipher (.exportResend (e.at 1) (e.at 10) until_))] }

/-- CMD_SEAL_EXPORT action 1 (R131): sends segments again. -/
def execCmdSealExportResend (r : CmdRef) (b : List Byte) (s : State) : Out := runCmd exportResendDef r b s

def exportStatusDef : CmdDef where
  opcode := 0x0308
  reads := true
  fields := exportFields
  tail := some (fun v => 8 * fv v 12)
  zero := fun v _ => unusedZero v exportOffsets [2, 3, 5, 6, 7, 8, 9, 10, 11, 12]
  mine := selects 0 2 4
  checks := fun e => [ needs (e.at 0 == 2) 0, range (e.at 1) 0 1 1 ]
  effect := fun e => { result := exportResult (e.s.cipher.exp (e.at 1)) }

/-- CMD_SEAL_EXPORT action 2: state 0 where no export is there. -/
def execCmdSealExportStatus (r : CmdRef) (b : List Byte) (s : State) : Out := runCmd exportStatusDef r b s

def exportDiscardDef : CmdDef where
  opcode := 0x0308
  fields := exportFields
  tail := some (fun v => 8 * fv v 12)
  zero := fun v _ => unusedZero v exportOffsets [2, 3, 5, 6, 7, 8, 9, 10, 11, 12]
  mine := selects 0 3 4
  checks := fun e =>
    [ needsSt (exportExists e.vw e && (e.vw.cipher.exp (e.at 1)).imageId == e.at 4) .notFound 4, needs (e.at 0 == 3) 0, range (e.at 1) 0 1 1 ]
  effect := fun e =>
    { result := exportResult {},
      stage := (.instant, .cipher (.exportDiscard (e.at 1))) :: e.vw.vcp.release (.sealExport (e.at 1)) }

/-- CMD_SEAL_EXPORT action 3 (R130): discards the export and releases its claim. -/
def execCmdSealExportDiscard (r : CmdRef) (b : List Byte) (s : State) : Out := runCmd exportDiscardDef r b s

def importFields : List Fld := [fN 1, fN 1, fN 1, fR 1, fN 4, fN 16, fN 16, fN 2, fR 2, fN 8, fN 2, fR 2]

def importOffsets : List Nat := [0, 1, 2, 4, 8, 24, 40, 44, 52]

def importResult (x : Import) : List Byte :=
  beBytes 1 x.state ++ zeros 3 ++ beBytes 8 x.received ++ beBytes 4 x.firstMissing

def importArmDef : CmdDef where
  opcode := 0x0309
  fields := importFields
  tail := some (fun v => 4 * fv v 8)
  zero := fun v _ => [v4Zero (fv v 2) (fv v 4) 8, v4Zero (fv v 2) (fv v 5) 24] ++ unusedZero v importOffsets [8]
  mine := selects 0 0 4
  checks := fun e =>
    let pkg := e.at 1
    [ ((e.s.vcp.holder (.sealImport pkg)).isSome,
        match e.s.vcp.holder (.sealImport pkg) with | some c => e.s.heldErr c c.site 1 | none => badAt .resourceHeld 1),
      needs (e.at 0 == 0) 0,
      range pkg 0 1 1,
      needs (e.at 2 == 4 || e.at 2 == 6) 2,
      needs (decide (e.at 7 ≤ 2 ^ 32)) 44 ]
  effect := fun e =>
    let x : Import := { port := e.at 1, family := e.at 2, imageId := e.at 3, srcAddress := e.at 4, dstAddress := e.at 5,
                        dstUdpPort := e.at 6, imageLength := e.at 7 }
    { result := importResult { x with state := 1 }, claims := [(ioSite (e.at 1), .sealImport (e.at 1))],
      stage := [(.instant, .cipher (.importArm (e.at 1) x))] }

/-- CMD_SEAL_IMPORT action 0 (R130, R132): arms an import and takes its claim. -/
def execCmdSealImportArm (r : CmdRef) (b : List Byte) (s : State) : Out := runCmd importArmDef r b s

def importStatusDef : CmdDef where
  opcode := 0x0309
  reads := true
  fields := importFields
  tail := some (fun v => 4 * fv v 8)
  zero := fun v _ => unusedZero v importOffsets [2, 4, 5, 6, 7, 8]
  mine := selects 0 1 4
  checks := fun e => [ needs (e.at 0 == 1) 0, range (e.at 1) 0 1 1 ]
  effect := fun e => { result := importResult (e.s.cipher.imp (e.at 1)) }

/-- CMD_SEAL_IMPORT action 1 (Table 5.9). -/
def execCmdSealImportStatus (r : CmdRef) (b : List Byte) (s : State) : Out := runCmd importStatusDef r b s

/-- The import of the port that the block names, for action 2. -/
def importOf (e : Env) : Import := e.s.cipher.imp (e.at 1)

def importHandles (e : Env) : List Nat := (chunks 4 128 e.tail).map beNat

/-- The opened objects, under the seal key that the image's header names (Table 5.4). -/
def openedObjects (e : Env) : Option (Option (List (Nat × List Byte))) :=
  let x := importOf e
  let id := beNat ((x.bytes.drop 12).take 4)
  match (e.vw.cipher.sealKeys (e.at 1)).find id with
  | none => none
  | some k => openImage x k

def importOpenDef : CmdDef where
  opcode := 0x0309
  fields := importFields
  tail := some (fun v => 4 * fv v 8)
  zero := fun v _ => unusedZero v importOffsets [2, 4, 5, 6, 7]
  mine := selects 0 2 4
  checks := fun e =>
    let x := importOf e
    let hs := importHandles e
    let sealId := beNat ((x.bytes.drop 12).take 4)
    let objs := (openedObjects e).bind (fun o => o)
    [ needsSt (x.state != 0 && x.imageId == e.at 3) .notFound 4,
      needsSt ((e.vw.cipher.sealKeys (e.at 1)).has sealId) .notFound 4,
      needsSt (hs.all (fun h => !handleOk h || e.vw.mem.buffers.has h)) .notFound 56,
      needs (e.at 0 == 2) 0,
      range (e.at 1) 0 1 1,
      range (e.at 8) 1 128 52,
      (x.state == 1 || (openedObjects e).isNone, badAt .sealFailed 0xFFFF),
      needs (match objs with
        | none => false
        | some os => os.length == hs.length && (os.zip hs).all (fun p =>
            handleOk p.2 && p.1.1 == handleKind p.2 && decide (p.1.2.length ≤ e.vw.mem.bufferSize p.2))) 56 ]
  onFail := fun e err =>
    if err.status == .sealFailed || (err.status == .badValue && err.off == 56) then
      [.vcp (.raise 75 0x0004 (dCode 88 32 (importOf e).imageId + dCode 80 8 4) (e.at 1))]
    else []
  effect := fun e =>
    let objs := ((openedObjects e).bind (fun o => o)).getD []
    let contents := (importHandles e).zip (objs.map (·.2))
    { result := importResult { importOf e with state := 3 },
      stage := [(.instant, .cipher (.importOpen (e.at 1) contents))] }

/-- CMD_SEAL_IMPORT action 2 (R129, R311): the tag is verified first, then every object against its buffer; nothing is
written unless all match. -/
def execCmdSealImportOpen (r : CmdRef) (b : List Byte) (s : State) : Out := runCmd importOpenDef r b s

def importDiscardDef : CmdDef where
  opcode := 0x0309
  fields := importFields
  tail := some (fun v => 4 * fv v 8)
  zero := fun v _ => unusedZero v importOffsets [2, 4, 5, 6, 7, 8]
  mine := selects 0 3 4
  checks := fun e =>
    let x := e.vw.cipher.imp (e.at 1)
    [ needsSt (x.state != 0 && x.imageId == e.at 3) .notFound 4, needs (e.at 0 == 3) 0, range (e.at 1) 0 1 1 ]
  effect := fun e =>
    { result := importResult {},
      stage := (.instant, .cipher (.importDiscard (e.at 1))) :: e.vw.vcp.release (.sealImport (e.at 1)) }

/-- CMD_SEAL_IMPORT action 3 (R130): discards the import and releases its claim. -/
def execCmdSealImportDiscard (r : CmdRef) (b : List Byte) (s : State) : Out := runCmd importDiscardDef r b s

/- Engine events. -/

/-- KEY_AUTO_ROLL (R124): firmware rolls to next_ctx every target that names the context as its egress key, within 200,000 ns
of the near-limit event that promised it. The module keeps that bound, so a roll given later does nothing. -/
def execKeyAutoRoll (dt key : Nat) (s0 : State) : Out :=
  let s := s0.advance dt
  match s.key key with
  | none => .next s
  | some k =>
    match k.rollDue.filter (fun t => decide (s.now ≤ t + ns 200000)) with
    | none => .next s
    | some _ =>
      let s1 := s.setKey key { k with rollDue := none }
      match s.rollNext k with
      | none => .next s1
      | some n => .next (applyAll ((s.fwd.targetsOfKey key).map (fun t => .fwd (.rollTarget t.1 t.2 n))) s1)

/-- SEAL_COMPLETE (R128, R131, R134): the image unit has sealed the image, at most at 16 Gbit/s, and its sending begins. -/
def execSealComplete (dt pkg : Nat) (s0 : State) : Out :=
  let s := s0.advance dt
  let x := s.cipher.exp pkg
  let u := (s.cipher.unit (imageUnit pkg)).workTo s.now
  match u.sealed_ with
  | none => .next s
  | some m =>
    if !(s.serving && decide (pkg ≤ 1) && x.state == 1) then .next s
    else
      let s1 := s.setExport pkg { x with state := 2, next := 0, lastSend := 0, image := x.header m.output.length ++ m.output ++ m.tag }
      .next ((s1.setUnit (imageUnit pkg) { u with sealed_ := none }).raise 75 0x0004 (dCode 88 32 x.imageId + dCode 80 8 0) pkg)

/-- A segment as a UDP payload (Table 5.5). -/
def segmentBytes (imageId index : Nat) (data : List Byte) : List Byte :=
  beBytes 2 0x564D ++ beBytes 2 data.length ++ beBytes 4 imageId ++ beBytes 4 index ++ zeros 4 ++ data

/-- Bytes of the frame that carries segment k. -/
def segmentFrame (x : Export) (k : Nat) : Nat := frameOverhead x.family + 16 + segmentLen x.imageLen k

/-- SEGMENT_SEND (R131, R134): the next segment of an export leaves on its traffic class, no earlier than the stated rate
lets it. -/
def execSegmentSend (dt pkg : Nat) (s0 : State) : Out :=
  let s := s0.advance dt
  let x := s.cipher.exp pkg
  let k := x.next
  let gap := if x.rate = 0 then 0 else segmentFrame x k * 8 * 1000 * 65536 / x.rate
  if !(s.serving && decide (pkg ≤ 1) && x.state == 2 && decide (k < x.until_) && (x.lastSend == 0 || decide (x.lastSend + gap ≤ s.now))) then
    .next s
  else
    let len := segmentLen x.imageLen k
    let data := (x.image.drop (1024 * k)).take len
    let c : Copy := { len := segmentFrame x k, enq := s.now, arrival := s.now, dstUdp := x.dstUdpPort, dstAddr := x.dstAddress,
                      srcUdp := x.srcUdpPort, srcAddr := s.routable x.port x.family, body := segmentBytes x.imageId k data,
                      payload := .segment pkg k data }
    let leg := s.egress.legs.getD (exportLegNo pkg) { cfg := { port := x.port, iface := 0, cls := x.trafficClass, maxDepth := 2 ^ 32 } }
    let s1 := ((s.setLeg (exportLegNo pkg) { leg with cfg := { leg.cfg with cls := x.trafficClass } }).enqueue (exportLegNo pkg) c).1
    let last := k + 1 == x.until_
    let s2 := s1.setExport pkg { x with next := k + 1, lastSend := s.now, bytesSent := x.bytesSent + len, state := if last then 3 else 2 }
    .next (s2.raiseIf last 75 0x0004 (dCode 88 32 x.imageId + dCode 80 8 1) pkg)

/-- MIGRATION_SEGMENT (R132): a frame at an armed import's address and port is taken as a segment of Table 5.5; one that is none, is not
from the import's source, not of its image or not within it is dropped and counted. -/
def execMigrationSegment (f : FrameRx) (s0 : State) : Out :=
  let s := s0.advance f.dt
  let port := f.port
  let x := s.cipher.imp port
  let u := f.udp
  let index := fieldAt u 8 4
  let data := u.drop 16
  if !(s.serving && decide (port ≤ 1) && f.fcsOk && f.ip.isUdp && s.importTakes f) then .next s
  else if !(fieldAt u 0 2 == 0x564D && fieldAt u 2 2 == data.length && f.ip.src == x.srcAddress && fieldAt u 4 4 == x.imageId &&
            decide (16 ≤ data.length ∧ data.length ≤ 1024) && decide (1024 * index + data.length ≤ x.imageLength)) then
    .next (s.setImport port { x with dropped := x.dropped + 1 })
  else
    let old := x.segments.getD index []
    let x1 := { x with segments := x.segments.put index (data ++ old.drop data.length) }
    let whole := x1.firstMissing == segmentCount x1.imageLength
    let done := whole && x.state == 1
    .next ((s.setImport port { x1 with state := if whole then 2 else 1 }).raiseIf done 75 0x0004
      (dCode 88 32 x.imageId + dCode 80 8 2) port)

end Sys2Proof.Machine
end

