-- ==== Sys2Proof/Machine/Crosspoint.lean ====
section
/-! DEFINITION. The crosspoint: mixing, ramps, tie lines, talker selection, and the commands of the range 0x09xx
(11_audio_crosspoint.md).
Corners of the crosspoint: DEDUCED (log entry 35). -/

namespace Sys2Proof.Machine

/- The gain law (R247, R248). -/

/-- A valid gain code: −24,576 to 4,608, or off (R247). -/
def gainOk (q : Int) : Bool := q == gainOff || decide (-24576 ≤ q ∧ q ≤ 4608)

/-- lin(q) is compared through powers of 5,120. -/
def gainExp : Nat := 5120

/-- The word n does not exceed 2^28 × 10^(q / 5120) by more than a half. -/
def gainFits (q : Int) (n : Nat) : Bool :=
  let l := (2 * n - 1) ^ gainExp
  let r := 2 ^ (29 * gainExp)
  if q < 0 then decide (l * 10 ^ (-q).toNat ≤ r) else decide (l ≤ r * 10 ^ q.toNat)

/-- Bisection for the largest fitting word. -/
def gainBits (q : Int) : Nat → Nat → Nat
  | 0, r => r
  | f + 1, r => gainBits q f (if gainFits q (r + 2 ^ f) then r + 2 ^ f else r)

/-- lin(q) (R248), Q4.28. -/
def lin (q : Int) : Nat := if q = gainOff then 0 else gainBits q 32 0

/- Ramps (R250). -/

/-- An end of a ramp: off counts as −24,576. -/
def rampEnd (q : Int) : Int := if q = gainOff then -24576 else q

/-- Code of sample n of a ramp, n from 1 to its length. -/
def Ramp.code (r : Ramp) (n : Nat) : Int :=
  rampEnd r.s + floorDiv ((rampEnd r.t - rampEnd r.s) * (2 * n : Nat) + r.r) (2 * r.r)

/-- Code of a node at sample k (1 to 120) of the beat being mixed. -/
def Node.code (x : Node) (k : Nat) : Int :=
  match x.ramp with
  | none => x.target
  | some r => if r.n + k ≤ r.r then r.code (r.n + k) else r.t

/-- A node after a beat's mix; none when it is freed (R252). -/
def Node.afterBeat (x : Node) : Option Node :=
  let last := x.code 120
  match x.ramp with
  | none => if x.removing then none else some { x with current := last, fresh := false }
  | some r =>
    if r.r ≤ r.n + 120 then
      if x.removing then none else some { x with current := last, ramp := none, fresh := false }
    else some { x with current := last, ramp := some { r with n := r.n + 120 }, fresh := false }

/- Talker statuses (R257, R259). -/

/-- A group's members take the statuses of a judged frame; their nodes follow over attack or release. -/
def Crosspoint.applyTalkers (x : Crosspoint) (num : Nat) (talkers : List Nat) : Crosspoint :=
  match x.groups.find num with
  | none => x
  | some g =>
    let now := fun (m : Member) => m.pinned || talkers.contains m.port
    let turned := g.members.filter (fun m => now m != m.talker)
    let x1 := x.modGroup num (fun h => { h with members := h.members.map (fun m => { m with talker := now m }) })
    turned.foldl (fun y m => y.retarget m.port (if m.talker then g.release else g.attack)) x1

/-- Every status that is due at the beat of index i takes effect. -/
def Crosspoint.dueTalkers (x : Crosspoint) (i : Nat) : Crosspoint :=
  x.groups.keys.foldl (fun y num =>
    match y.groups.find num with
    | none => y
    | some g =>
      match (g.pending.filter (fun p => decide (p.1 ≤ i))).getLast? with
      | none => y
      | some p => (y.modGroup num (fun h => { h with pending := h.pending.filter (fun q => decide (i < q.1)) })).applyTalkers num p.2) x

/- The mix (R244 to R246, R255, R256). -/

def silence : List Int := List.replicate 120 0

/-- A leg port whose RECEIVE task of the beat had not completed when the mix started (R246). -/
def portLate (s : State) (d : Nat) (b start : Instant) (p : Nat) : Bool :=
  match s.audioLeg (d * 2 ^ 11 + p) with
  | none => false
  | some x => !(x.outs.any (fun o => o.1 == b && decide (o.2.1 ≤ start)))

/-- Samples of input port p for the beat of index i: of a leg, the beat's own; of a tie port, those sent in the beat before. `late`
ports read as zeros. A node with delay1 reads the beat before (R256). -/
def inputOf (s : State) (d i : Nat) (late : Nat → Bool) (p : Nat) (delay1 : Bool) : List Int :=
  let k := if delay1 then 1 else 0
  if p < 1536 then
    if late p then silence
    else match s.audioLeg (d * 2 ^ 11 + p) with
      | none => silence
      | some x => match x.outs.find? (fun o => o.1 == Grid.audio.beatAt (i - k)) with
        | some o => o.2.2
        | none => silence
  else match s.audio.ties.find? (fun t => t.dstDie == d && t.dstPort == p) with
    | none => silence
    | some t => match t.arrived.find? (fun a => a.1 == Grid.audio.beatAt (i - 1 - k)) with
      | some a => a.2
      | none => silence

/-- The sum of an output's terms, narrowed (R245). -/
def narrow (acc : Int) : Int := satSample (floorDiv (acc + 2 ^ 27) (2 ^ 28))

/-- The 120 samples of an output port: its nodes with their input samples. -/
def mixOutput (nodes : List (Node × List Int)) : List Int :=
  (List.range 120).map (fun k => narrow (sumI (nodes.map (fun p => (lin (p.1.code (k + 1)) : Int) * nth p.2 k 0))))

/-- Every output with a held node. -/
def mixAll (x : Crosspoint) (input : Nat → Bool → List Int) : Tab (List Int) :=
  let outs := dedup (x.nodes.map (fun p => nodeOut p.1))
  outs.foldl (fun t o => t.put o (mixOutput ((x.nodes.filter (fun p => nodeOut p.1 == o)).map (fun p => (p.2, input (nodeIn p.1) p.2.delay1))))) []

/-- INPUT_LATE (R246, R260), at the instant t at which the mix started without its inputs. -/
def State.inputLate (s : State) (d n : Nat) (t : Instant) : State :=
  if n = 0 then s
  else
    let x := s.xp d
    let lim0 := { x.lateEvent with pending := x.lateEvent.pending + (n - 1) }
    let (fire, lim) := lim0.hit t (sec 1)
    let s1 := s.setXp d { x with lateInputs := x.lateInputs + BitVec.ofNat 64 n, lateEvent := lim }
    match fire with
    | some k => s1.xpEvent t d 0x0002 (dBits 104 16 n + dBits 72 32 k)
    | none => s1

/-- Samples that a tie line carries arrive at t; late ones are discarded (R255). -/
def State.tieArrive (s : State) (tie : TieLine) (b : Instant) (i : Nat) (t : Instant) (v : List Int) : State :=
  if t ≤ Grid.audio.beatAt (i + 1) then
    { s with audio := { s.audio with ties := s.audio.ties.map (fun q => if q.srcDie = tie.srcDie ∧ q.srcPort = tie.srcPort then { q with arrived := ((b, v) :: q.arrived).take 3 } else q) } }
  else
    let x := s.xp tie.dstDie
    let (fire, lim) := x.tieEvent.hit t (sec 1)
    let s1 := s.setXp tie.dstDie { x with tieLate := x.tieLate + 1, tieEvent := lim }
    match fire with
    | some k => s1.xpEvent t tie.dstDie 0x0003 (dCode 104 16 tie.dstPort + dBits 72 32 k)
    | none => s1

/-- Ties that leave a die, in ascending port. -/
def insertTie (t : TieLine) : List TieLine → List TieLine
  | [] => [t]
  | u :: us => if t.srcPort < u.srcPort then t :: u :: us else u :: insertTie t us

def tiesFrom (s : State) (d : Nat) : List TieLine := (s.audio.ties.filter (fun t => t.srcDie == d)).foldl (fun a t => insertTie t a) []

/-- The mix of beat b on die d completes. -/
def State.mixBeat (s0 : State) (d : Nat) (b start : Instant) (incomplete : Bool) (poison : List (Nat × Nat)) (transit : List Nat) : State :=
  let i := audioIndex b
  let s := (s0.takeScoped (.mixing d) b).modXp d (fun x => x.dueTalkers i)
  let late := fun p => incomplete && portLate s d b start p
  let x := s.xp d
  let input := fun p k => zeroAt ((poison.filter (fun w => w.1 == p)).map (·.2)) (inputOf s d i late p k)
  let outs := mixAll x input
  let nodes := x.nodes.filterMap (fun p => p.2.afterBeat.map (fun n => (p.1, n)))
  let s1 := s.setXp d { x with nodes := nodes, outputs := ((b, outs) :: x.outputs).take 3, mixes := x.mixes + 1 }
  let lates := ((s.audio.legs.filter (fun p => legDie p.1 == d)).filter (fun p => late (legIndex p.1))).length
  let s2 := s1.inputLate d lates start
  let ts := tiesFrom s2 d
  ((List.range ts.length).zip ts).foldl (fun t p =>
    if t.linked (pkgOfDie d) (pkgOfDie p.2.dstDie) then t.tieArrive p.2 b i (t.now + nth transit p.1 0) (outs.getD p.2.srcPort silence) else t) s2

/-- MIX (R245): a die's mix completes. `transit` gives, for each tie line out of the die in ascending port, the time that its samples
take to the receiving die; `poison` lists input ports with samples that were delivered with a poison tag (R322). -/
def execMix (dt die inst : Nat) (haps : List Hap) (poison : List (Nat × Nat)) (transit : List Nat) (s0 : State) : Out :=
  let s := s0.advance dt
  if !s.dieUp die then .next s
  else match s.inService die inst with
    | none => .next s
    | some i =>
      match i.desc.op with
      | .mix =>
        let start := match i.phase with | .inService t => t | _ => s.now
        .next (((s.haps haps).mixBeat die i.beat start i.inputsIncomplete poison transit).complete die i [])
      | _ => .next s

/- Talker selection (R258, R259). -/

/-- What firmware knows of a port in frame m: its level, and whether it is active. -/
structure Voice where
  port : Nat
  level : Int
  active : Bool
deriving DecidableEq, Repr, Inhabited

/-- Louder first, then the lower port. -/
def insertVoice (v : Voice) : List Voice → List Voice
  | [] => [v]
  | w :: ws => if w.level < v.level ∨ (w.level = v.level ∧ v.port < w.port) then v :: w :: ws else w :: insertVoice v ws

def sortVoices (l : List Voice) : List Voice := l.foldl (fun a v => insertVoice v a) []

/-- Member p's report of frame m. -/
def voiceOf (s : State) (d m port : Nat) : Voice :=
  match s.audioLeg (d * 2 ^ 11 + port) with
  | none => { port := port, level := -32768, active := false }
  | some x =>
    if x.report.codecFrame = m % 2 ^ 32 then
      { port := port, level := x.report.level, active := x.report.flags.testBit 0 && x.report.flags.testBit 4 }
    else { port := port, level := -32768, active := false }

/-- The unpinned talker of lowest level, the highest port on a tie. -/
def weakest (pinned : List Nat) (t : List Voice) : Option Voice :=
  (t.filter (fun v => !pinned.contains v.port)).foldl (fun a v =>
    match a with
    | none => some v
    | some w => if v.level < w.level ∨ (v.level = w.level ∧ w.port < v.port) then some v else some w) none

/-- One challenger (R258). -/
def challenge (max margin : Nat) (pinned : List Nat) (t : List Voice) (c : Voice) : List Voice :=
  if t.length < max then t ++ [c]
  else match weakest pinned t with
    | some w => if w.level + (margin : Int) ≤ c.level then t.filter (fun v => v.port != w.port) ++ [c] else t
    | none => t

def insertPort (p : Nat) : List Nat → List Nat
  | [] => [p]
  | q :: qs => if p < q then p :: q :: qs else q :: insertPort p qs

def sortPorts (l : List Nat) : List Nat := l.foldl (fun a p => insertPort p a) []

/-- The talker set of frame m, in ascending port; `last` is already that of frame m. -/
def TalkerGroup.select (g : TalkerGroup) (voices : List Voice) (m : Nat) : List Nat :=
  let of_ := fun p => (voices.find? (fun v => v.port == p)).getD { port := p, level := -32768, active := false }
  let pinned := (g.members.filter (·.pinned)).map (·.port)
  let held := g.members.filter (fun x => !x.pinned && g.talkers.contains x.port && (match x.last with | some l => decide (m - l ≤ g.holdFrames) | none => false))
  let first := pinned.map of_
  let incumbents := (sortVoices (held.map (fun x => of_ x.port))).take (g.maxTalkers - first.length)
  let base := first ++ incumbents
  let challengers := sortVoices (voices.filter (fun v => v.active && !base.any (fun t => t.port == v.port)))
  sortPorts ((challengers.foldl (challenge g.maxTalkers g.margin pinned) base).map (·.port))

/-- Index of the latest beat whose mix has started on a die. -/
def latestMix (s : State) (d : Nat) : Nat :=
  max (match (s.xp d).outputs.head? with | some o => audioIndex o.1 | none => 0)
    (maxN (((s.pool d).insts.filter (fun i => i.desc.op == .mix && (match i.phase with | .inService _ => true | _ => false))).map (fun i => audioIndex i.beat)))

/-- Judge one group for frame m and write its statuses. -/
def State.judgeGroup (d m : Nat) (s : State) (num : Nat) : State :=
  match (s.xp d).groups.find num with
  | none => s
  | some g0 =>
    if (match g0.codecFrame with | some k => decide (m ≤ k) | none => false) then s
    else
      let voices := g0.members.map (fun x => voiceOf s d m x.port)
      let g := { g0 with codecFrame := some m, members := g0.members.map (fun x => if voices.any (fun v => v.port == x.port && v.active) then { x with last := some m } else x) }
      let set := g.select voices m
      let same := set == g.talkers
      let due := 8 * m + 9
      let latest := latestMix s d
      let late := !same && decide (due ≤ latest)
      let at_ := if late then latest + 1 else due
      let g1 := if same then g else { g with talkers := set, pending := g.pending ++ [(at_, set)] }
      let joined := (set.filter (fun p => !g.talkers.contains p)).length
      let left := (g.talkers.filter (fun p => !set.contains p)).length
      let s1 := s.modXp d (fun x => { (x.modGroup num (fun _ => g1)) with talkerLate := if late then x.talkerLate + 1 else x.talkerLate })
      let s2 := if same then s1 else s1.xpEvent s.now d 0x0001 (dCode 112 8 num + dCode 80 32 m + dBits 72 8 set.length + dBits 64 8 joined + dBits 56 8 left)
      if late then s2.xpEvent s.now d 0x0004 (dCode 112 8 num + dCode 80 32 m) else s2

/-- TALKER_SELECTION (R258, R259): firmware judges the codec frame whose last beat is over, once for each group. -/
def execTalkerSelection (dt die : Nat) (s0 : State) : Out :=
  let s := s0.advance dt
  if !(s.live && s.dieUp die) then .next s
  else
    let i := Grid.audio.indexAtOrBefore s.now
    if i < 8 then .next s else .next ((s.xp die).groups.keys.foldl (State.judgeGroup die (i / 8 - 1)) s)

/- Commands. -/

/-- The die field of these commands. -/
def dieChecks (s : State) (d : Nat) : List (Bool × Err) :=
  [(decide (d ≤ 7) && !s.dieUp d, badSite .siteFenced 0 (dieSite d))]

/-- One node of a CMD_XP_NODE. -/
structure NodeArg where
  inPort : Nat
  outPort : Nat
  gain : Int
  ramp : Nat
  flags : Nat
  rsv : Nat
deriving DecidableEq, Repr, Inhabited

def nodeArgs (n : Nat) (b : List Byte) : List NodeArg :=
  (List.range n).map (fun k =>
    let f := fun o w => beNat ((b.drop (12 * k + o)).take w)
    { inPort := f 0 2, outPort := f 2 2, gain := signed 16 (f 4 2), ramp := f 6 2, flags := f 8 1, rsv := f 9 3 : NodeArg })

def NodeArg.removes (a : NodeArg) : Bool := a.flags.testBit 0

/-- A tie line is claimed with this output or input port of a die. -/
def tieOut (v : VcpState) (d p : Nat) : Option Claim :=
  v.claims.find? (fun c => match c.res with | .tieLine sd sp _ _ => sd == d && sp == p | _ => false)
def tieIn (v : VcpState) (d p : Nat) : Option Claim :=
  v.claims.find? (fun c => match c.res with | .tieLine _ _ dd dp => dd == d && dp == p | _ => false)

def isTiePort (p : Nat) : Bool := decide (1536 ≤ p ∧ p < 1664)

/-- Ranges of a node's fields, in field order; a remote leg's identifier is left to the rows of R261. -/
def nodeRanges (k : Nat) (a : NodeArg) : List (Bool × Err) :=
  let o := 4 + 12 * k
  [ needs (decide (a.inPort < xpPorts) || decide (2 ^ 11 ≤ a.inPort ∧ a.inPort < 2 ^ 14 ∧ a.inPort % 2 ^ 11 < 1536)) o,
    needs (decide (a.outPort < xpPorts)) (o + 2),
    needs (gainOk a.gain) (o + 4),
    needsSt (a.ramp == 0 || decide (24 ≤ a.ramp ∧ a.ramp ≤ 24000)) .badRamp (o + 6) ]

/-- The rows of R261 for a node that is set. -/
def nodeRules (s : State) (d k : Nat) (a : NodeArg) : List (Bool × Err) :=
  let o := 4 + 12 * k
  if a.removes then []
  else
    [ needsSt (decide (a.inPort < xpPorts) || a.inPort / 2 ^ 11 == d) .crossDieRoute o,
      needsSt (!isTiePort a.inPort || (tieIn s.vcp d a.inPort).isSome) .crossDieRoute o,
      needsSt (!isTiePort a.outPort || (tieOut s.vcp d a.outPort).isSome) .crossDieRoute (o + 2),
      needs (isTiePort a.inPort || a.inPort % 2 ^ 11 != a.outPort) o,
      needs (isTiePort a.inPort || s.audio.legs.has (d * 2 ^ 11 + a.inPort % 2 ^ 11)) o,
      needs (isTiePort a.outPort || s.audio.legs.has (d * 2 ^ 11 + a.outPort)) (o + 2) ]

def numbered {α : Type} (l : List α) : List (Nat × α) := (List.range l.length).zip l

def xpNodeStage (e : Env) : List (Scope × Change) :=
  (nodeArgs (e.at 1) e.tail).map (fun a =>
    (.mixing (e.at 0), .audio (.node (e.at 0) (a.inPort % 2 ^ 11) a.outPort a.gain a.ramp a.removes (a.flags.testBit 1))))

def xpNodeDef : CmdDef where
  opcode := 0x0901
  fields := [fN 1, fR 1, fN 2]
  tail := some (fun v => 12 * fv v 1)
  zero := fun v b => ((numbered (nodeArgs (fv v 1) b)).map (fun p => [(decide (4 ≤ p.2.flags), 4 + 12 * p.1 + 8), (p.2.rsv != 0, 4 + 12 * p.1 + 9)])).flatten
  checks := fun e =>
    let as := numbered (nodeArgs (e.at 1) e.tail)
    dieChecks e.vw (e.at 0) ++
    as.map (fun p => needsSt (!p.2.removes || (e.vw.xp (e.at 0)).nodes.has (nodeNo p.2.inPort p.2.outPort)) .notFound (4 + 12 * p.1)) ++
    [ range (e.at 0) 0 7 0, range (e.at 1) 1 64 2 ] ++
    (as.map (fun p => nodeRanges p.1 p.2)).flatten ++
    (as.map (fun p => nodeRules e.vw (e.at 0) p.1 p.2)).flatten ++
    e.tables (xpNodeStage e)
  effect := fun e => { result := beBytes 4 (mixService (e.after (xpNodeStage e)) (e.at 0)), stage := xpNodeStage e }

/-- CMD_XP_NODE (R243 to R253, R261, Table 11.3). -/
def execCmdXpNode (r : CmdRef) (b : List Byte) (s : State) : Out := runCmd xpNodeDef r b s

/-- The lowest tie port of a die that no tie line claims, from the claims of one direction. -/
def freeTie (used : Nat → Bool) : Option Nat := ((List.range 128).map (1536 + ·)).find? (fun p => !used p)

/-- The ports of a tie line: as named, or the lowest free. -/
def tieSrc (e : Env) : Option Nat :=
  if e.at 3 ≠ 0xFFFF then some (e.at 3) else freeTie (fun p => (tieOut e.vw.vcp (e.at 1) p).isSome || (tieOut e.s.vcp (e.at 1) p).isSome)
def tieDst (e : Env) : Option Nat :=
  if e.at 4 ≠ 0xFFFF then some (e.at 4) else freeTie (fun p => (tieIn e.vw.vcp (e.at 2) p).isSome || (tieIn e.s.vcp (e.at 2) p).isSome)

def tieFields : List Fld := [fN 1, fN 1, fN 1, fR 1, fD 2 0xFFFF, fD 2 0xFFFF]

def tiePortOk (v : Nat) : Bool := v == 0xFFFF || isTiePort v

def tieRanges (e : Env) : List (Bool × Err) :=
  [ range (e.at 0) 0 1 0, range (e.at 1) 0 7 1, needs (decide (e.at 2 ≤ 7) && e.at 2 != e.at 1) 2, needs (tiePortOk (e.at 3)) 4,
    needs (tiePortOk (e.at 4)) 6 ]

def tieSites (e : Env) : List (Bool × Err) :=
  [ (decide (e.at 1 ≤ 7) && !e.vw.dieUp (e.at 1), badSite .siteFenced 1 (dieSite (e.at 1))),
    (decide (e.at 2 ≤ 7) && !e.vw.dieUp (e.at 2), badSite .siteFenced 2 (dieSite (e.at 2))) ]

/-- The error that names a claim's holder. -/
def heldClaim (s : State) (c : Option Claim) (off : Nat) : Bool × Err :=
  match c with
  | some k => (true, s.heldErr k k.site off)
  | none => (false, default)

def tieConnectStage (e : Env) : List (Scope × Change) :=
  [(.instant, .audio (.tieConnect { srcDie := e.at 1, srcPort := (tieSrc e).getD 0, dstDie := e.at 2, dstPort := (tieDst e).getD 0 }))]

def tieConnectDef : CmdDef where
  opcode := 0x0902
  fields := tieFields
  mine := selects 0 0 2
  checks := fun e =>
    tieSites e ++
    [ heldClaim e.s (if e.at 3 = 0xFFFF then none else tieOut e.s.vcp (e.at 1) (e.at 3)) 4,
      heldClaim e.s (if e.at 4 = 0xFFFF then none else tieIn e.s.vcp (e.at 2) (e.at 4)) 6 ] ++
    tieRanges e ++
    [ needsSt ((tieSrc e).isSome && (tieDst e).isSome) .tieLinesFull 0xFFFF ] ++
    e.tables (tieConnectStage e)
  effect := fun e =>
    let a := (tieSrc e).getD 0
    let b := (tieDst e).getD 0
    { result := beBytes 4 e.s.vcp.nextClaim ++ beBytes 2 a ++ beBytes 2 b,
      claims := [(xpSite (e.at 1), .tieLine (e.at 1) a (e.at 2) b)], stage := tieConnectStage e }

/-- CMD_XP_TIE with action connect (R254, R261, Table 11.4). -/
def execCmdXpTieConnect (r : CmdRef) (b : List Byte) (s : State) : Out := runCmd tieConnectDef r b s

/-- The claim of the tie line that a free command names by its ports; a port given as 0xFFFF is left open. -/
def tieNamed (e : Env) : Option Claim :=
  if e.at 3 = 0xFFFF ∧ e.at 4 = 0xFFFF then none
  else e.vw.vcp.claims.find? (fun c => match c.res with
    | .tieLine sd sp dd dp => sd == e.at 1 && dd == e.at 2 && (e.at 3 == 0xFFFF || sp == e.at 3) && (e.at 4 == 0xFFFF || dp == e.at 4)
    | _ => false)

/-- A node names a tie line's port: on the sending die as an output, on the receiving die as an input. -/
def tieNamedByNode (s : State) (r : Resource) : Bool :=
  match r with
  | .tieLine sd sp dd dp => (s.xp sd).nodes.any (fun p => nodeOut p.1 == sp) || (s.xp dd).nodes.any (fun p => nodeIn p.1 == dp)
  | _ => false

/-- What freeing a tie line changes. -/
def tieFreeStage (v : VcpState) (r : Resource) : List (Scope × Change) :=
  match r with
  | .tieLine sd sp _ _ => (.instant, .audio (.tieFree sd sp)) :: v.release r
  | _ => []

def tieFreeDef : CmdDef where
  opcode := 0x0902
  fields := tieFields
  mine := fun b => actionAt 0 b == some 1
  checks := fun e =>
    tieSites e ++ [ needsSt (tieNamed e).isSome .notFound 4 ] ++ tieRanges e ++
    [ needs (match tieNamed e with | some c => !tieNamedByNode e.vw c.res | none => true) 4 ]
  effect := fun e =>
    match tieNamed e with
    | some c =>
      let ports := match c.res with | .tieLine _ sp _ dp => beBytes 2 sp ++ beBytes 2 dp | _ => []
      { result := beBytes 4 c.id ++ ports, stage := tieFreeStage e.vw.vcp c.res }
    | none => {}

/-- CMD_XP_TIE with action free (R254, R261). -/
def execCmdXpTieFree (r : CmdRef) (b : List Byte) (s : State) : Out := runCmd tieFreeDef r b s

def groupFields : List Fld := [fN 1, fN 1, fN 1, fD 1 3, fD 2 25, fD 2 1536, fD 2 (65536 - 32768), fD 2 240, fD 2 4800, fRD 2]

def groupRanges (e : Env) : List (Bool × Err) :=
  let duck := signed 16 (e.at 6)
  [ range (e.at 0) 0 7 0, needs (decide (e.at 1 ≤ 63) || e.at 1 == 0xFF) 1, range (e.at 2) 0 1 2, range (e.at 3) 1 16 3,
    range (e.at 4) 0 250 4, range (e.at 5) 0 5120 6, needs (duck == gainOff || decide (-24576 ≤ duck ∧ duck ≤ 0)) 8,
    range (e.at 7) 24 24000 10, range (e.at 8) 24 24000 12 ]

def groupNo (e : Env) : Nat :=
  if e.at 1 ≠ 0xFF then e.at 1 else lowestFree (e.used (fun s => (s.xp (e.at 0)).groups.keys)) 0

def groupSetStage (e : Env) : List (Scope × Change) :=
  [(.mixing (e.at 0), .audio (.groupSet (e.at 0) (groupNo e)
    { maxTalkers := e.at 3, holdFrames := e.at 4, margin := e.at 5, duck := signed 16 (e.at 6), attack := e.at 7, release := e.at 8 }))]

def groupSetDef : CmdDef where
  opcode := 0x0903
  fields := groupFields
  mine := selects 2 0 2
  checks := fun e =>
    dieChecks e.vw (e.at 0) ++
    [ needsSt (e.at 1 == 0xFF || (e.vw.xp (e.at 0)).groups.has (e.at 1)) .notFound 1 ] ++ groupRanges e ++
    [ needs (decide (groupNo e ≤ 63)) 1 ]
  effect := fun e => { result := beBytes 1 (groupNo e) ++ zeros 3, stage := groupSetStage e }

/-- CMD_XP_TALKER_GROUP with action set (R257, R261, Table 11.5). -/
def execCmdXpTalkerGroupSet (r : CmdRef) (b : List Byte) (s : State) : Out := runCmd groupSetDef r b s

def groupDeleteDef : CmdDef where
  opcode := 0x0903
  fields := groupFields
  mine := fun b => actionAt 2 b == some 1
  checks := fun e =>
    dieChecks e.vw (e.at 0) ++ [ needsSt ((e.vw.xp (e.at 0)).groups.has (e.at 1)) .notFound 1 ] ++ groupRanges e
  effect := fun e =>
    { result := beBytes 1 (e.at 1) ++ zeros 3, stage := [(.mixing (e.at 0), .audio (.groupDelete (e.at 0) (e.at 1)))] }

/-- CMD_XP_TALKER_GROUP with action delete (R261). -/
def execCmdXpTalkerGroupDelete (r : CmdRef) (b : List Byte) (s : State) : Out := runCmd groupDeleteDef r b s

def portsOf (n : Nat) (b : List Byte) : List Nat := (List.range n).map (fun k => beNat ((b.drop (2 * k)).take 2))

def memberFields : List Fld := [fN 1, fN 1, fN 1, fF 1 1, fN 2, fR 2]
def memberTail (v : List Nat) : Nat := 4 * ceilDiv (2 * fv v 4) 4
def memberPad (v : List Nat) (b : List Byte) : List (Bool × Nat) := [((b.drop (2 * fv v 4)).any (· != 0), 8 + 2 * fv v 4)]

def memberAddDef : CmdDef where
  opcode := 0x0904
  fields := memberFields
  tail := some memberTail
  zero := memberPad
  mine := selects 2 0 2
  checks := fun e =>
    let x := e.vw.xp (e.at 0)
    let ps := numbered (portsOf (e.at 4) e.tail)
    dieChecks e.vw (e.at 0) ++
    [ needsSt (x.groups.has (e.at 1)) .notFound 1 ] ++
    ps.map (fun p => needsSt (x.groups.all (fun g => g.1 == e.at 1 || !g.2.members.any (fun m => m.port == p.2))) .exists_ (8 + 2 * p.1)) ++
    [ range (e.at 0) 0 7 0, range (e.at 1) 0 63 1, range (e.at 2) 0 1 2, range (e.at 4) 1 256 4 ] ++
    ps.map (fun p => needs (decide (p.2 < 1536) && e.vw.audio.legs.has (e.at 0 * 2 ^ 11 + p.2)) (8 + 2 * p.1))
  effect := fun e =>
    { stage := (portsOf (e.at 4) e.tail).map (fun p => (.mixing (e.at 0), .audio (.memberAdd (e.at 0) (e.at 1) p ((e.at 3).testBit 0)))) }

/-- CMD_XP_TALKER_MEMBER with action add (R257, R261). -/
def execCmdXpTalkerMemberAdd (r : CmdRef) (b : List Byte) (s : State) : Out := runCmd memberAddDef r b s

def memberRemoveDef : CmdDef where
  opcode := 0x0904
  fields := memberFields
  tail := some memberTail
  zero := memberPad
  mine := fun b => actionAt 2 b == some 1
  checks := fun e =>
    let x := e.vw.xp (e.at 0)
    let g := x.groups.getD (e.at 1) {}
    let ps := numbered (portsOf (e.at 4) e.tail)
    dieChecks e.vw (e.at 0) ++
    [ needsSt (x.groups.has (e.at 1)) .notFound 1 ] ++
    ps.map (fun p => needsSt (g.members.any (fun m => m.port == p.2)) .notFound (8 + 2 * p.1)) ++
    [ range (e.at 0) 0 7 0, range (e.at 1) 0 63 1, range (e.at 2) 0 1 2, range (e.at 4) 1 256 4 ]
  effect := fun e =>
    { stage := (portsOf (e.at 4) e.tail).map (fun p => (.mixing (e.at 0), .audio (.memberRemove (e.at 0) (e.at 1) p))) }

/-- CMD_XP_TALKER_MEMBER with action remove. -/
def execCmdXpTalkerMemberRemove (r : CmdRef) (b : List Byte) (s : State) : Out := runCmd memberRemoveDef r b s

/-- The result of Table 11.6. -/
def nodeRead (x : Crosspoint) (k : Nat) : List Byte :=
  let n := x.nodes.getD k {}
  let left := match n.ramp with | some r => r.r - r.n | none => 0
  let st := if !x.nodes.has k then 0 else if n.removing then 3 else if n.ramp.isSome then 2 else 1
  beBytes 1 st ++ beBytes 1 (2 * b2n n.delay1) ++ beInt 2 n.gain ++ beInt 2 n.target ++ beInt 2 n.current ++ beBytes 2 n.rampLen ++ beBytes 2 left

def xpNodeReadDef : CmdDef where
  opcode := 0x0905
  reads := true
  fields := [fN 1, fR 1, fN 2, fN 2, fR 2]
  checks := fun e => dieChecks e.vw (e.at 0) ++ [ range (e.at 0) 0 7 0, range (e.at 1) 0 1663 2, range (e.at 2) 0 1663 4 ]
  effect := fun e => { result := nodeRead (e.s.xp (e.at 0)) (nodeNo (e.at 1) (e.at 2)) }

/-- CMD_XP_NODE_READ (Table 11.6). -/
def execCmdXpNodeRead (r : CmdRef) (b : List Byte) (s : State) : Out := runCmd xpNodeReadDef r b s

/-- The result of Table 11.7. -/
def xpStatus (s : State) (d : Nat) : List Byte :=
  let x := s.xp d
  let ties := fun f => (s.vcp.claims.filter (fun c => f c.res)).length
  beBytes 4 x.nodes.length ++ beBytes 4 (x.nodes.filter (fun p => p.2.ramp.isSome)).length ++
  beBytes 1 (ties (fun r => match r with | .tieLine sd _ _ _ => sd == d | _ => false)) ++
  beBytes 1 (ties (fun r => match r with | .tieLine _ _ dd _ => dd == d | _ => false)) ++
  beBytes 1 x.groups.length ++ zeros 1 ++ beBytes 4 (mixService s d) ++
  (([x.mixes, x.lateInputs, x.tieLate, x.talkerLate].map (fun c => beBytes 8 c.toNat)).flatten)

def xpStatusDef : CmdDef where
  opcode := 0x0906
  reads := true
  fields := [fN 4]
  checks := fun e => e.vw.siteChecks (e.at 0) (isXp (e.at 0)) 0
  effect := fun e => { result := xpStatus e.s (siteDie (e.at 0)) }

/-- CMD_XP_STATUS (Table 11.7). -/
def execCmdXpStatus (r : CmdRef) (b : List Byte) (s : State) : Out := runCmd xpStatusDef r b s

def xpTalkersDef : CmdDef where
  opcode := 0x0907
  reads := true
  fields := [fN 1, fN 1, fR 2]
  checks := fun e => dieChecks e.vw (e.at 0) ++ [ needsSt ((e.vw.xp (e.at 0)).groups.has (e.at 1)) .notFound 1, range (e.at 0) 0 7 0 ]
  effect := fun e =>
    let g := (e.s.xp (e.at 0)).groups.getD (e.at 1) {}
    let n := g.talkers.length
    { result := beBytes 4 (g.codecFrame.getD 0) ++ beBytes 2 n ++ zeros 2 ++ (g.talkers.map (beBytes 2)).flatten ++ zeros (2 * (n % 2)) }

/-- CMD_XP_TALKERS (R258). -/
def execCmdXpTalkers (r : CmdRef) (b : List Byte) (s : State) : Out := runCmd xpTalkersDef r b s

def gainTableDef : CmdDef where
  opcode := 0x0908
  reads := true
  fields := [fN 2, fN 2]
  checks := fun e => [ range (e.at 0) 0 29184 0, range (e.at 1) 1 256 2, needs (decide (e.at 0 + e.at 1 ≤ 29185)) 2 ]
  effect := fun e =>
    { result := beBytes 2 (e.at 1) ++ zeros 2 ++ ((List.range (e.at 1)).map (fun k => beBytes 4 (lin ((e.at 0 + k : Nat) - 24576)))).flatten }

/-- CMD_XP_GAIN_TABLE_READ (R248). -/
def execCmdXpGainTableRead (r : CmdRef) (b : List Byte) (s : State) : Out := runCmd gainTableDef r b s

end Sys2Proof.Machine
end

