-- ==== Sys2Proof/Machine/Event.lean ====
section
/-! DEFINITION. The event merger, event packets, and the commands of the range 0x0Exx (16_events_and_telemetry.md).
Corners of events: DEDUCED (log entries 18, 44). -/

namespace Sys2Proof.Machine

/-- The record may reach the merger now: it has been sent, and no earlier one of its generator is still under way, since the fabric
keeps the order of one source to one destination (R20). One of the other package crosses the link (R342). -/
def State.mayArrive (s : State) (index : Nat) (r : EventRec) : Bool :=
  decide (r.stamp ≤ s.now) && s.linked r.pkg s.role.primary &&
  !(s.events.raised.take index).any (fun x => x.source == r.source && x.pkg == r.pkg && decide (x.stamp ≤ s.now))

/-- EVENT_ARRIVAL (R20, R351, R352, R354): a record that was raised reaches the merger. It is held until its release instant; one that
comes after that instant is discarded, and one that the event FIFO cannot correct is lost. `index` says which of the records under
way it is. -/
def execEventArrival (dt index : Nat) (haps : List Hap) (s0 : State) : Out :=
  let s := s0.advance dt
  match s.events.raised[index]? with
  | none => .next s
  | some r =>
    if !(s.merging && s.mayArrive index r) then .next s
    else
      let s1 := ({ s with events := { s.events with raised := s.events.raised.eraseIdx index } }).haps haps
      let double := haps.any (fun h => match h with | .fifoUncorrected _ _ => true | _ => false)
      if double then
        .next (({ s1 with events := { s1.events with fifoLost := s1.events.fifoLost + 1 } }).lostForAll 4 1)
      else if r.stamp + releaseDelay < s.now then
        .next (({ s1 with events := { s1.events with lateDiscarded := s1.events.lateDiscarded + 1 } }).lostForAll 2 1)
      else .next { s1 with events := { s1.events with held := s1.events.held ++ [r] } }

/-- EVENT_RELEASE (R351, R357, R358): the first record held, in the order of R351, is released at its stamp plus 2,000,000 ns into
the queue of every subscriber whose mask admits it. -/
def execEventRelease (dt : Nat) (s0 : State) : Out :=
  let s := s0.advance dt
  match firstRecord s.events.held with
  | none => .next s
  | some (r, others) =>
    if s.merging && decide (r.stamp + releaseDelay ≤ s.now ∨ r.stamp ≤ s.frontier) then
      let subs := s.events.subs.mapVals (fun n b => b.offer s.now (s.lostRecord n 1) r)
      .next { s with events := { s.events with held := others, released := s.events.released + 1, subs := subs } }
    else .next s

/-- Send an EVENT packet of a session and take its next sequence (R34, R356). -/
def State.sendInSession (s : State) (x : Session) (payload : List Byte) (p : Payload) : State :=
  (s.modSession x.id (fun y => { y with txSeq := y.txSeq + 1 })).sendVcp x.peer (x.keys.protect 6 x.id x.txSeq payload) p

/-- The 112 bits of a stamp (R6). -/
def stampBytes (t : Instant) : List Byte := beBytes 14 (timeRaw t / 65536)

/-- The 32 bytes of a record (Table 16.2). -/
def EventRec.bytes (r : EventRec) : List Byte :=
  stampBytes r.stamp ++ beBytes 2 r.code ++ beBytes 1 r.source ++ beBytes 15 r.data.toNat

/-- The preamble of an EVENT packet (Table 16.4). -/
def eventPreamble (kind pkg count sub firstSeq : Nat) (instant : Instant) : List Byte :=
  beBytes 1 kind ++ beBytes 1 pkg ++ beBytes 2 count ++ beBytes 1 sub ++ zeros 3 ++ beBytes 8 firstSeq ++ timeBytes instant

/-- The payload of a packet of kind 0, and of one of kind 1 (Table 6.3). -/
def eventsPayload (sub firstSeq : Nat) (recs : List EventRec) : List Byte :=
  eventPreamble 0 0 recs.length sub firstSeq 0 ++ (recs.map EventRec.bytes).flatten

def sampleBytes (r : List Nat) : List Byte :=
  beBytes 4 (r.getD 0 0) ++ beBytes 4 (r.getD 1 0) ++ beBytes 2 (r.getD 2 0) ++ zeros 2 ++ beBytes 4 (r.getD 3 0) ++ beBytes 4 (r.getD 4 0)

def samplesPayload (sub pkg pos : Nat) (instant : Instant) (recs : List (List Nat)) : List Byte :=
  eventPreamble 1 pkg recs.length sub pos instant ++ (recs.map sampleBytes).flatten

/-- The kind 0 packet of a subscriber, if one is to be sent (R357): full, or flush_ms after its first record was released, and
within max_pps. -/
def State.sendEvents (s : State) (n : Nat) (b : Subscriber) (x : Session) : State :=
  let cap := eventCap x.maxDatagram
  match b.queue.head? with
  | none => s
  | some (first, at_) =>
    let due := decide (cap ≤ b.queue.length) || decide (at_ + ms b.flushMs ≤ s.now)
    let sent := if b.second = secOf s.now then b.sentInSecond else 0
    if due && decide (sent < b.maxPps) then
      let recs := b.queue.take cap
      let b1 := { b with queue := b.queue.drop cap, copied := b.nextSeq,
                         history := (b.history ++ recs.map Prod.fst).drop (b.history.length + recs.length - queueMax),
                         packets := b.packets + 1, records := b.records + BitVec.ofNat 64 recs.length,
                         second := secOf s.now, sentInSecond := sent + 1 }
      let b2 := b1.noteLost s.now (s.lostRecord n 1)
      ({ s with events := { s.events with subs := s.events.subs.put n b2 } }).sendInSession x
        (eventsPayload n first.seq (recs.map (fun (q : SeqRec × Instant) => q.1.rec_))) (.events x.id x.txSeq n first.seq (recs.map (fun (q : SeqRec × Instant) => q.1.rec_)))
    else s

/-- The next kind 1 packet of a subscriber, if samples wait (R360): samples of one instant and package, in list order. -/
def State.sendSamples (s : State) (n : Nat) (x : Session) : State :=
  match s.egress.samplesWaiting.find? (fun w => w.sub == n) with
  | none => s
  | some w =>
    let cap := sampleCap x.maxDatagram
    let rest := s.egress.samplesWaiting.filter (fun v => !(v.sub == n && v.pkg == w.pkg))
    let left := w.recs.drop cap
    let s1 := { s with egress := { s.egress with samplesWaiting :=
      (if left.isEmpty then [] else [{ w with pos := w.pos + cap, recs := left }]) ++ rest } }
    s1.sendInSession x (samplesPayload n w.pkg w.pos w.instant (w.recs.take cap))
      (.samples x.id x.txSeq n w.pkg w.pos w.instant (w.recs.take cap))

/-- EVENT_PACKET_SEND (R356, R357, R360): a packet of kind 0 or 1 of a subscriber is sent. -/
def execEventPacketSend (dt sub kind : Nat) (s0 : State) : Out :=
  let s := s0.advance dt
  match s.events.subs.find sub with
  | none => .next s
  | some b =>
    match s.vcp.session b.session with
    | none => .next s
    | some x =>
      if !s.live || s.producerWaits x.peer.port then .next s
      else .next (if kind = 0 then s.sendEvents sub b x else s.sendSamples sub x)

/- Commands. -/

/-- Table 16.6. -/
def subscribeFields : List Fld := [fN 1, fFD 1 3 1, fD 2 10, fD 2 1000, fRD 2, fD 32 (2 ^ 256 - 1)]

def subscribeRanges (e : Env) : List (Bool × Err) :=
  [range (e.at 0) 0 1 0, range (e.at 2) 1 1000 2, range (e.at 3) 10 20000 4]

def subscribeResult (num nextSeq : Nat) : List Byte := beBytes 1 num ++ zeros 3 ++ beBytes 8 nextSeq

def cmdEventSubscribe : CmdDef where
  opcode := 0x0E01
  fields := subscribeFields
  mine := selects 0 0 2
  checks e := subscribeRanges e ++
    [(((e.vw.events.subOf e.session).isNone && decide (4 ≤ e.vw.events.subs.length)), badAt .subscriberLimit 0xFFFF)]
  effect e :=
    let num := (e.vw.events.subOf e.session).getD (lowestFree (e.used (fun s => s.events.subs.keys)) 0)
    let next := ((e.vw.events.subs.find num).map (·.nextSeq)).getD 0
    { result := subscribeResult num next,
      stage := [(.instant, .event (.subscribe num e.session (e.at 1) (e.at 2) (e.at 3) (e.at 4)))] }

/-- CMD_EVENT_SUBSCRIBE (R355). -/
def execCmdEventSubscribe (r : CmdRef) (b : List Byte) (s : State) : Out := runCmd cmdEventSubscribe r b s

def cmdEventCancel : CmdDef where
  opcode := 0x0E01
  fields := subscribeFields
  mine b := actionAt 0 b == some 1
  checks e := ((e.vw.events.subOf e.session).isNone, badAt .noClaim 0) :: subscribeRanges e
  effect e :=
    let num := (e.vw.events.subOf e.session).getD 0
    { result := subscribeResult num (((e.vw.events.subs.find num).map (·.nextSeq)).getD 0),
      stage := [(.instant, .event (.cancel e.session))] }

/-- CMD_EVENT_CANCEL (R362). -/
def execCmdEventCancel (r : CmdRef) (b : List Byte) (s : State) : Out := runCmd cmdEventCancel r b s

/-- One subscriber's 48 bytes of Table 16.7. -/
def subStatus (b : Option Subscriber) : List Byte :=
  match b with
  | none => zeros 48
  | some b =>
    beBytes 4 b.session ++ beBytes 1 (b2n b.events + 2 * b2n b.samples) ++ zeros 3 ++ beBytes 4 b.queue.length ++ zeros 4 ++
    beBytes 8 b.nextSeq ++ beBytes 8 b.packets.toNat ++ beBytes 8 b.records.toNat ++ beBytes 8 b.dropped.toNat

def cmdEventStatus : CmdDef where
  opcode := 0x0E02
  reads := true
  checks e := [((e.vw.events.subOf e.session).isNone, badAt .noClaim 0xFFFF)]
  effect e :=
    let v := e.s.events
    { result := beBytes 8 v.released.toNat ++ beBytes 8 v.lateDiscarded.toNat ++ beBytes 8 v.fifoLost.toNat ++
        beBytes 8 v.samplesLost.toNat ++ subStatus (v.subs.find 0) ++ subStatus (v.subs.find 1) ++
        subStatus (v.subs.find 2) ++ subStatus (v.subs.find 3) }

/-- CMD_EVENT_STATUS (R362). -/
def execCmdEventStatus (r : CmdRef) (b : List Byte) (s : State) : Out := runCmd cmdEventStatus r b s

/-- The history of the session's subscriber. -/
def historyOf (s : State) (session : Nat) : List SeqRec :=
  match (s.events.subs.find? (fun p => p.2.session == session)) with
  | some p => p.2.history
  | none => []

def cmdEventReplay : CmdDef where
  opcode := 0x0E03
  reads := true
  fields := [fN 8, fN 2, fR 2]
  checks e :=
    let h := historyOf e.s e.session
    let lo := (h.head?.map (·.seq)).getD 0
    [((e.vw.events.subOf e.session).isNone, badAt .noClaim 0xFFFF), range (e.at 1) 1 32 8,
     (!(!h.isEmpty && decide (lo ≤ e.at 0 ∧ e.at 0 + e.at 1 ≤ lo + h.length)), badAt .notFound 0)]
  effect e :=
    let h := historyOf e.s e.session
    let recs := h.filter (fun r => decide (e.at 0 ≤ r.seq ∧ r.seq < e.at 0 + e.at 1))
    { result := beBytes 2 recs.length ++ zeros 2 ++ (recs.map (fun r => r.rec_.bytes)).flatten }

/-- CMD_EVENT_REPLAY (R358, R362). -/
def execCmdEventReplay (r : CmdRef) (b : List Byte) (s : State) : Out := runCmd cmdEventReplay r b s

def cmdEventRaise : CmdDef where
  opcode := 0x0E04
  fields := [fN 15, fR 1]
  effect e := { stage := [(.instant, .vcp (.raise 226 2 (e.at 0) 0))] }

/-- CMD_EVENT_RAISE (R362). -/
def execCmdEventRaise (r : CmdRef) (b : List Byte) (s : State) : Out := runCmd cmdEventRaise r b s

end Sys2Proof.Machine
end

