-- ==== Sys2Proof/Machine/Mem.lean ====
section
/-! DEFINITION. Refresh, temperature, scrub, audits, and the commands of the range 0x0Cxx (14_memory_and_fifos.md).
Corners of stacks, books and audits: DEDUCED, contents a DESIGN CHOICE (log entries 20, 40, 41). -/

namespace Sys2Proof.Machine

/-- A stack runs: the media-service start has started it, and its die or IO die is in service. -/
def State.stackRuns (s : State) (k : Nat) : Bool :=
  s.serving && decide (k < 10) && (if k < 8 then s.dieUp k else s.pkgUp (k - 8))

/- Refresh (R315 to R317). -/

def tRFC : Instant := ns 410

/-- tREFI and allowance of a mode (R315). -/
def RefreshMode.interval (m : RefreshMode) : Instant := match m with | .doubled => ns 1950 | _ => ns 3900
def RefreshMode.allowance (m : RefreshMode) : Nat := match m with | .doubled => 4 | _ => 8

def Stack.pch (x : Stack) (c : Nat) : Pch := x.pchs.getD c {}

/-- What an arbiter grants (R314). -/
inductive Grant64 where
  | forced | refresh | request (r : MemReq) | idle
deriving DecidableEq, Repr, Inhabited

/-- The request that has waited longest. -/
def oldestReq (l : List MemReq) : Option MemReq :=
  l.foldl (fun a r => match a with | none => some r | some q => if q.age < r.age then some r else some q) none

/-- The grant of a pseudo-channel's arbiter with a refresh due and n postponed: the first rule of R314 that applies. `panics` says which quadrants'
ports assert panic, and panic lifts a port only within its own quadrant's pseudo-channels. -/
def arbiterGrant (due : Bool) (n allowance : Nat) (lastRealTime : Bool) (panics : Nat → Bool) (pch : Nat) (reqs : List MemReq) : Grant64 :=
  let rt := reqs.filter (·.realTime)
  let bulk := reqs.filter (fun r => !r.realTime)
  let panicking := rt.filter (fun r => r.quad == pch / 8 && panics r.quad)
  if due && decide (allowance ≤ n) && !rt.isEmpty then .forced
  else match oldestReq panicking with
    | some r => .request r
    | none =>
      if due && rt.isEmpty then .refresh
      else match oldestReq (if (lastRealTime && !bulk.isEmpty) || rt.isEmpty then bulk else rt) with
        | some r => .request r
        | none => .idle

/-- REFRESH_DUE (R314, R315): a refresh of a pseudo-channel falls due. It is postponed while a real-time request waits there and fewer
than the allowance are postponed; at the allowance it is forced; otherwise it is issued. `reqs` are the requests that wait there; `issued` is how
many postponed refreshes have been issued since the refresh that fell due before. -/
def execRefreshDue (dt stack pch issued : Nat) (reqs : List MemReq) (s0 : State) : Out :=
  let s := s0.advance dt
  let x := s.stack stack
  let p := x.pch pch
  if s.stackRuns stack && decide (pch < 32) && x.mode != .selfRefresh && decide (p.due ≤ s.now) then
    let back := min issued p.postponed
    let n := p.postponed - back
    let g := arbiterGrant true n x.mode.allowance p.lastRealTime (fun q => decide (stack < 8) && s.panics stack q) pch reqs
    let postpone := match g with | .request _ => true | _ => false
    let p1 : Pch := { p with postponed := if postpone then n + 1 else n, due := p.due + x.mode.interval,
                             lastRefresh := if postpone then p.lastRefresh else s.now,
                             lastRealTime := match g with | .request r => r.realTime | _ => p.lastRealTime }
    .next (s.setStack stack { x with
      pchs := x.pchs.put pch p1
      maxPostponed := max x.maxPostponed p1.postponed
      refreshes := x.refreshes + BitVec.ofNat 64 (back + b2n (!postpone))
      forced := x.forced + BitVec.ofNat 64 (b2n (g == .forced)) })
  else .next s

/-- The refreshes of a batch that starts now with n postponed: a refresh that falls due before it ends is added. Answers the number and
the end (R316). At most one falls due within 8 × 410 ns. -/
def batchOf (now due : Instant) (n : Nat) : Nat × Instant :=
  let end_ := now + n * tRFC
  if n ≠ 0 ∧ now < due ∧ due < end_ then (n + 1, end_ + tRFC) else (n, end_)

/-- The batch of one pseudo-channel, after which its refresh is doubled (R316). -/
def Pch.batch (p : Pch) (now : Instant) : Pch × Nat :=
  let (n, end_) := batchOf now p.due p.postponed
  ({ p with postponed := 0, due := end_ + ns 1950, lastRefresh := if n = 0 then p.lastRefresh else end_ - tRFC }, n)

/-- Largest number of postponed refreshes of a stack. -/
def Stack.largest (x : Stack) : Nat := maxN (x.pchs.map (fun c => c.2.postponed))

/-- A stack that reads 85 °C or more in normal mode batches its postponed refreshes and enters doubled mode (R316). -/
def Stack.double (x : Stack) (now : Instant) : Stack :=
  let ns_ := x.pchs.map (fun c => (c.2.batch now).2)
  { x with mode := .doubled, pchs := x.pchs.mapVals (fun _ c => (c.batch now).1), batches := x.batches + 1
           refreshes := x.refreshes + BitVec.ofNat 64 (sumN ns_), maxPostponed := max x.maxPostponed (maxN ns_) }

/-- A stack that reads below 82 °C in doubled mode returns to normal mode (R317). -/
def Stack.single (x : Stack) : Stack :=
  { x with mode := .normal, pchs := x.pchs.mapVals (fun _ c => { c with due := c.lastRefresh + ns 3900 }) }

/-- HBM_OVERTEMP, at most once a second for a stack (R317). -/
def State.overtemp (s : State) (k : Nat) (t : Int) : State :=
  if t < 95 then s
  else
    let x := s.stack k
    let (fire, lim) := x.overtempEvent.hit s.now (sec 1)
    let s1 := s.setStack k { x with overtempEvent := lim }
    match fire with
    | some _ => s1.raise (96 + k) 0x0003 (dInt 112 8 t) (stackPkg k)
    | none => s1

/-- TEMPERATURE_READING (R316, R317): every 10,000 ns the package reads a stack's temperature. -/
def execTemperatureReading (dt stack : Nat) (t : Int) (s0 : State) : Out :=
  let s := s0.advance dt
  if s.stackRuns stack && decide ((s.stack stack).lastReading + ns 10000 ≤ s.now) then
    let x := { s.stack stack with temperature := t, lastReading := s.now }
    let s1 := s.setStack stack x
    let s2 := match x.mode with
      | .normal =>
        if 85 ≤ t then
          (s1.setStack stack (x.double s.now)).raise (96 + stack) 0x0001 (dInt 112 8 t + dBits 104 8 x.largest) (stackPkg stack)
        else s1
      | .doubled =>
        if t < 82 then (s1.setStack stack x.single).raise (96 + stack) 0x0002 (dInt 112 8 t) (stackPkg stack) else s1
      | .selfRefresh => s1
    .next (s2.overtemp stack t)
  else .next s

/- Errors (R319). -/

/-- Newly found errors of a stack: the address of each, and whether it is a double error. -/
def Stack.addFlaws (x : Stack) (found : List (Nat × Bool)) : Stack :=
  { x with flaws := found.foldl (fun t f => t.put (f.1 / 8 * 8) (if f.2 then 2 else 1)) x.flaws }

/-- HBM_SCRUB (R319): once every 4 h the background scrub reads the words of a pseudo-channel and writes the corrected ones back. The pass over a stack
ends with its last pseudo-channel. -/
def execHbmScrub (dt stack pch : Nat) (found : List (Nat × Bool)) (s0 : State) : Out :=
  let s := s0.advance dt
  if s.stackRuns stack && decide (pch < 32) && decide (((s.stack stack).pch pch).lastScrub + sec 14400 ≤ s.now) then
    let x := (s.stack stack).addFlaws (found.filter (fun f => pchOf stack f.1 == pch))
    let here := x.flaws.filter (fun f => pchOf stack f.1 == pch)
    let s1 := s.meetErrors stack here
    let y := s1.stack stack
    .next (s1.setStack stack { y with
      flaws := y.flaws.filter (fun f => !(pchOf stack f.1 == pch && f.2 == 1))
      pchs := y.pchs.put pch { y.pch pch with lastScrub := s.now }
      scrubPasses := if pch = 31 then y.scrubPasses + 1 else y.scrubPasses })
  else .next s

/- Audits (R325, R326). -/

/-- BEAT_AUDIT (R325, R326): at a beat of the audio grid a die audits every book that it holds. `leaks` gives what the books have lost or
gained since the audit before, by book: total less expected. -/
def execBeatAudit (dt die : Nat) (leaks : List (Nat × Int)) (s0 : State) : Out :=
  let s := s0.advance dt
  if s.stackRuns die && Grid.audio.isBeat s.now then
    let mine := leaks.filter (fun l => holdsBook die l.1)
    let errs := mine.foldl (fun (t : Tab Int) l => t.put (bookKey die l.1) (t.getD (bookKey die l.1) 0 + l.2)) s.mem.bookError
    let s1 : State := { s with mem := { s.mem with bookError := errs, beatAudits := s.mem.beatAudits.put die s.now } }
    .next (s1.auditSite die 0 0x1F)
  else .next s

/- Commands. -/

/-- The checks on a stack's site; a stack that has not been started is fenced. -/
def stackChecks (s : State) (c off : Nat) : List (Bool × Err) :=
  s.siteChecks c (isStack c) off ++ [(!s.stackRuns (siteStack c), badSite .siteFenced off c)]

/-- Table 14.10. -/
def hbmStatus (s : State) (k : Nat) : List Byte :=
  let x := s.stack k
  beInt 1 x.temperature ++ beBytes 1 (match x.mode with | .normal => 0 | .doubled => 1 | .selfRefresh => 2) ++
  beBytes 1 x.maxPostponed ++ zeros 5 ++
  ([x.refreshes, x.forced, x.batches, x.corrected, x.uncorrected, x.scrubPasses].map (fun c => beBytes 8 c.toNat)).flatten ++
  ((List.range 4).map (fun q => if k < 8 then beBytes 8 (s.panicNs k q) else zeros 8)).flatten

/-- CMD_HBM_STATUS (R315, Table 14.10): a read starts max_postponed anew, also where ATOMIC undoes the packet's changes: R47 does
not say whether it undoes a clear on read (DESIGN CHOICE, log entry 71). -/
def hbmStatusDef : CmdDef where
  opcode := 0x0C01
  reads := true
  setting := true
  fields := [fN 4]
  checks := fun e => stackChecks e.s (e.at 0) 0
  effect := fun e => { result := hbmStatus e.s (siteStack (e.at 0)), atOnce := [.mem (.postponedReset (siteStack (e.at 0)))] }

def execCmdHbmStatus (r : CmdRef) (b : List Byte) (s : State) : Out := runCmd hbmStatusDef r b s

/-- Bytes of a stack. -/
def stackBytes : Nat := 24 * 2 ^ 30

/-- The key-context region of an IO-die stack, whose regions follow one another as Table 14.3 lists them. -/
def keyRegion : Nat × Nat := (384 * 2 ^ 20, 640 * 2 ^ 20)

/-- What of a media-die stack holds nothing since the start: a region in which nothing has been allocated, of those that hold only
buffers; the reserved parts. -/
def State.untouched (s : State) (k addr : Nat) : Bool :=
  let none_ := fun (kinds : List Nat) => kinds.all (fun kind => !s.mem.nextIndex.has (kind * 16 + k))
  let tested := (s.die k).testState != 0 || s.start.tests.any (fun p => p.1 % 8 == 5 && testDie (p.1 / 8) == k)
  if k < 8 then
    !tested &&
    (if addr < 8 * 2 ^ 30 then none_ [2, 3, 4]
     else if addr < 12 * 2 ^ 30 then none_ [1]
     else if addr < 16 * 2 ^ 30 then none_ [5]
     else if addr < 19 * 2 ^ 30 then false
     else
       let o := (addr - 19 * 2 ^ 30) % (5 * 2 ^ 28)
       if o < 2 ^ 30 then none_ [6, 7, 8] else if o < 2 ^ 30 + 2 ^ 27 then none_ [9, 10] else true)
  else !tested && decide (640 * 2 ^ 20 + 12 * 2 ^ 30 ≤ addr)

/-- A byte of a stack: every region is zero after stage 6 (Table 17.1); where firmware puts what it stores is not given. -/
def State.memByte (s : State) (k addr : Nat) : Byte := if s.untouched k addr then 0 else Config.memByte k addr s.now

/-- Errors of a range of a stack. -/
def Stack.flawsIn (x : Stack) (addr len : Nat) : Tab Nat := x.flaws.filter (fun f => decide (f.1 < addr + len ∧ addr < f.1 + 8))

/-- CMD_MEM_READ (R309, R319, R327). `found` gives errors that the read finds. -/
def memReadDef (found : List (Nat × Bool)) : CmdDef where
  opcode := 0x0C02
  reads := true
  setting := true
  fields := [fN 4, fRD 4, fN 8, fN 2, fRD 2]
  checks := fun e =>
    let a := e.at 1
    let n := e.at 2
    stackChecks e.s (e.at 0) 0 ++
    [ needs (a % 4 == 0) 8, range n 4 1024 16, needs (n % 4 == 0) 16
    , needsSt (decide (a + n ≤ stackBytes)) .badAddress 8
    , needsSt (decide (siteStack (e.at 0) < 8) || decide (a + n ≤ keyRegion.1) || decide (keyRegion.2 ≤ a)) .badAddress 8 ]
  effect := fun e =>
    let k := siteStack (e.at 0)
    let fs := ((e.s.stack k).addFlaws (found.filter (fun f => decide (e.at 1 ≤ f.1 ∧ f.1 < e.at 1 + e.at 2)))).flawsIn (e.at 1) (e.at 2)
    { result := beBytes 1 (b2n (fs.any (fun f => f.2 == 1)) + 2 * b2n (fs.any (fun f => f.2 == 2))) ++ zeros 3 ++
        (List.range (e.at 2)).map (fun i => e.s.memByte k (e.at 1 + i)),
      atOnce := [.mem (.readErrors k fs)] }

def execCmdMemRead (r : CmdRef) (b : List Byte) (found : List (Nat × Bool)) (s : State) : Out := runCmd (memReadDef found) r b s

/-- One entry of Table 14.12. -/
def fifoEntry (s : State) (site n : Nat) : List Byte :=
  let f := s.fifo site n
  beBytes 2 n ++ beBytes 1 (b2n (Config.fifoEcc (siteSort site) n)) ++ beBytes 1 (b2n f.underrun) ++ beBytes 2 (Config.fifoBankWords (siteSort site) n) ++ zeros 2 ++
  beBytes 8 (f.packets + BitVec.ofNat 64 (Config.fifoPackets site n s.now)).toNat ++ beBytes 4 f.errors ++ beBytes 4 f.uncorrected ++ beBytes 4 f.underruns ++ zeros 4

/-- CMD_FIFO_STATUS (R321, Table 14.12). -/
def fifoStatusDef : CmdDef where
  opcode := 0x0C03
  reads := true
  setting := true
  fields := [fN 4, fD 2 0, fRD 2]
  checks := fun e =>
    let c := e.at 0
    e.s.siteChecks c (isUnit c || isMediaCluster c || isPacketCluster c || isIo c || isMediaDie c) 0
  effect := fun e =>
    let all := List.range (Config.fifoCount (siteSort (e.at 0)))
    let p := page all (e.at 1) 32
    { result := beBytes 2 p.length ++ beBytes 2 (pageRest all (e.at 1) 32) ++ (p.map (fifoEntry e.s (e.at 0))).flatten }

def execCmdFifoStatus (r : CmdRef) (b : List Byte) (s : State) : Out := runCmd fifoStatusDef r b s

/-- One book of Table 14.13. -/
def auditEntry (s : State) (site book : Nat) : List Byte :=
  let (e, t) := s.bookSides (auditPlace site) book
  beBytes 1 book ++ beBytes 1 (b2n (e == t)) ++ zeros 2 ++ beBytes 4 (auditHold site s.now) ++ beInt 8 e ++ beInt 8 t

/-- CMD_AUDIT (R325, R326, R328). -/
def auditDef : CmdDef where
  opcode := 0x0C04
  reads := true
  fields := [fN 4, fD 1 0x1F, fRD 3]
  checks := fun e =>
    let c := e.at 0
    e.s.siteChecks c (isMediaDie c || isIo c) 0 ++
    [ needs ((List.range 8).all (fun k => !(e.at 1).testBit k || holdsBook (auditPlace c) k)) 4
    , needsSt (!e.s.auditRuns c) .auditBusy 0 ]
  effect := fun e =>
    let books := (List.range 5).filter (fun k => (e.at 1).testBit k)
    { result := beBytes 1 books.length ++ zeros 3 ++ (books.map (auditEntry e.s (e.at 0))).flatten,
      atOnce := [.mem (.audit (e.at 0) (e.at 1))] }

def execCmdAudit (r : CmdRef) (b : List Byte) (s : State) : Out := runCmd auditDef r b s

end Sys2Proof.Machine
end

