-- ==== Sys2Proof/Machine/Port.lean ====
section
/-! DEFINITION. Optics, bring-up, lanes, the inter-package link, and the commands of the range 0x0Dxx (15_ports_and_lanes.md).
Corners of ports and lanes: DEDUCED (log entries 42, 43). -/

namespace Sys2Proof.Machine

/- Optics (R343). -/

/-- A port is managed: its package runs and takes part. -/
def State.portRuns (s : State) (p : Nat) : Bool := s.live && decide (p ≤ 1) && s.pkgUp p

/-- OPTICS_INSERTED (R343): optics are detected in a cage. `modes` are the port modes whose application they advertise,
`advertisedMs` the duration that they advertise for stage 1. -/
def execOpticsInserted (dt port media : Nat) (modes : List Nat) (advertisedMs : Nat) (highWarning : Int) (s0 : State) : Out :=
  let s := s0.advance dt
  if !(s.portRuns port && (s.port port).optics.isNone) then .next s
  else
    let o : Optics := { media := media, modes := modes, advertisedMs := advertisedMs, highWarning := highWarning, insertedAt := s.now }
    let s1 := (s.modPort port (fun x => { x with optics := some o, mismatchRaised := false, resolved := 0 })).raise (32 + port) 0x0004 (dCode 112 8 media)
    .next ((List.range (s1.port port).ifaceCount).foldl (fun t i => t.startIface port i) s1)

/-- OPTICS_REMOVED (R343): every interface of the port goes down with cause 3. -/
def execOpticsRemoved (dt port : Nat) (s0 : State) : Out :=
  let s := s0.advance dt
  if !(s.portRuns port && (s.port port).optics.isSome) then .next s
  else
    let s1 := s.modPort port (fun x => { x with optics := none, resolved := 0 })
    .next ((s1.portDown port 3).raise (32 + port) 0x0005 0)

/-- Flags of one byte that the previous poll did not find set. -/
def newFlags (old : List (Nat × Nat × Nat × Nat)) (f : Nat × Nat × Nat × Nat) : Nat :=
  match old.find? (fun g => g.1 == f.1 && g.2.1 == f.2.1 && g.2.2.1 == f.2.2.1) with
  | some g => f.2.2.2 &&& (255 - g.2.2.2 % 256)
  | none => f.2.2.2

/-- CMIS_POLL (R335, R343): every 100 ms the module reads the optics' flags, module state and temperature, and advances media
readiness: an interface whose data path is activated leaves stage 1. At the first management access a port in auto selects its mode,
and optics that lack the set mode's application are reported. `activated` lists the interfaces whose data path is activated. -/
def execCmisPoll (dt port moduleState : Nat) (activated : List Nat) (flags : List (Nat × Nat × Nat × Nat)) (temperature : Int)
    (status : Nat) (s0 : State) : Out :=
  let s := s0.advance dt
  match (s.port port).optics with
  | none => .next s
  | some o =>
    let first := o.firstAccess.isNone
    if !(s.portRuns port && (first || decide ((s.port port).lastPoll + ms 100 ≤ s.now))) then .next s
    else
      let o1 := { o with moduleState := moduleState, flags := flags, temperature := temperature, status := status,
                         firstAccess := some (o.firstAccess.getD s.now) }
      let s1 := s.modPort port (fun x => { x with optics := some o1, lastPoll := s.now })
      let s2 := flags.foldl (fun t f =>
        let n := newFlags o.flags f
        t.raiseIf (n != 0) (32 + port) 0x0007 (dCode 112 8 f.1 + dCode 104 8 f.2.1 + dCode 96 8 f.2.2.1 + dCode 88 8 n)) s1
      let s3 := if first then (if s2.serving then s2.selectMode port else s2).opticsMismatch port else s2
      .next (activated.foldl (fun t i =>
        if ((t.port port).iface i).stage = 1 ∧ moduleState = 3 ∧ (t.port port).hasIface i ∧ (t.port port).lacksMode = false then t.ifaceStage port i 4 else t) s3)

/- Bring-up (R333, R334). -/

/-- Timeout of a stage (Table 15.2); none for the hold. -/
def Port.stageTimeout (p : Port) (stage : Nat) : Option Instant :=
  match stage with
  | 1 => some (ms ((p.optics.map (·.advertisedMs)).getD 0 + 1000))
  | 2 => some (ms 3000)
  | 3 => some (ms 12000)
  | 4 => some (ms 100)
  | 5 => some (ms 100)
  | _ => none

/-- BRINGUP_STAGE_COMPLETE (R332, R333): a stage's work completes within its timeout. Auto-negotiation resolves `mode`; `limits` are
the lanes and DFE taps that reach their limit during adaptation (R336). -/
def execBringupStageComplete (dt port iface mode : Nat) (limits : List (Nat × Nat)) (s0 : State) : Out :=
  let s := s0.advance dt
  let p := s.port port
  let x := p.iface iface
  match p.stageTimeout x.stage with
  | none => .next s
  | some t =>
    if !(s.portRuns port && p.hasIface iface && !p.lacksMode && x.retryAt.isNone && decide (s.now ≤ x.since + t)) then .next s
    else match x.stage with
      | 1 => .next (s.ifaceStage port iface 4)
      | 2 =>
        let s1 := s.ifaceStage port iface 3
        if p.cfg.mode = 0 then
          let s2 := s1.modPort port (fun y => { y with resolved := mode })
          .next (if s2.serving then s2.selectMode port else s2)
        else .next s1
      | 3 => .next (s.ifaceStage port iface 4)
      | 4 => .next (limits.foldl (fun t l => t.raise (34 + 8 * port + l.1) 0x0001 (dCode 112 8 l.2)) (s.ifaceStage port iface 5))
      | _ => .next (s.ifaceStage port iface 6)

/-- BRINGUP_STAGE_TIMEOUT (R333, R348): the interface counts bringup_fail and waits 100 ms. -/
def execBringupStageTimeout (dt port iface : Nat) (s0 : State) : Out :=
  let s := s0.advance dt
  let p := s.port port
  let x := p.iface iface
  match p.stageTimeout x.stage with
  | none => .next s
  | some t =>
    if !(s.portRuns port && p.hasIface iface && x.retryAt.isNone && decide (x.since + t ≤ s.now)) then .next s
    else
      let (fire, lim) := x.failEvent.hit s.now (sec 1)
      let s1 := (s.ifaceStage port iface 0).modIface port iface (fun y =>
        { y with bringupFail := y.bringupFail + 1, failEvent := lim, retryAt := some (s.now + ms 100) })
      match fire with
      | some n => .next (s1.raise (32 + port) 0x0003 (dCode 112 8 iface + dCode 104 8 x.stage + dBits 72 32 n))
      | none => .next s1

/-- BRINGUP_RETRY (R333): 100 ms after a timeout the interface restarts at stage 1. -/
def execBringupRetry (dt port iface : Nat) (s0 : State) : Out :=
  let s := s0.advance dt
  match ((s.port port).iface iface).retryAt with
  | none => .next s
  | some t => if s.portRuns port && decide (t ≤ s.now) then .next (s.startIface port iface) else .next s

/-- UP_HOLD_END (R334): alignment has held for up_hold. -/
def execUpHoldEnd (dt port iface : Nat) (s0 : State) : Out :=
  let s := s0.advance dt
  let p := s.port port
  let x := p.iface iface
  if s.portRuns port && p.hasIface iface && x.stage == 6 && decide (x.since + ms p.cfg.upHold ≤ s.now) then .next (s.ifaceUp port iface)
  else .next s

/-- ALIGNMENT_LOSS (R333, R334): alignment or FEC lock is lost (cause 1) or a remote fault is received (cause 2), or, with `lost`
false, the condition ends. It ends the hold unfinished; on an interface that is up it starts the down_hold timer, and takes the
interface down at once where down_hold is 0. -/
def execAlignmentLoss (dt port iface cause : Nat) (lost : Bool) (s0 : State) : Out :=
  let s := s0.advance dt
  let p := s.port port
  let x := p.iface iface
  if !(s.portRuns port && p.hasIface iface) then .next s
  else if x.stage = 6 ∧ lost ∧ cause = 1 then .next (s.startIface port iface)
  else if x.stage = 7 then
    if !lost then .next (s.modIface port iface (fun y => { y with lossSince := none }))
    else if p.cfg.downHold = 0 then .next (s.ifaceDown port iface cause)
    else if x.lossSince.isSome then .next s
    else .next (s.modIface port iface (fun y => { y with lossSince := some (s.now, cause) }))
  else .next s

/-- DOWN_HOLD_END (R334): the loss or the fault has persisted for down_hold. -/
def execDownHoldEnd (dt port iface : Nat) (s0 : State) : Out :=
  let s := s0.advance dt
  let p := s.port port
  let x := p.iface iface
  match x.lossSince with
  | none => .next s
  | some (t, cause) =>
    if s.portRuns port && p.hasIface iface && x.stage == 7 && decide (t + ns (1000 * p.cfg.downHold) ≤ s.now) then
      .next (s.ifaceDown port iface cause)
    else .next s

/-- FEC_WINDOW (R345): the counts of a 1 s window and the estimate of the pre-FEC bit error ratio from its corrected symbols, in
10⁻¹². -/
def execFecWindow (dt port iface estimate corrected uncorrectable : Nat) (s0 : State) : Out :=
  let s := s0.advance dt
  let p := s.port port
  if !(s.portRuns port && p.hasIface iface && decide (5 ≤ (p.iface iface).stage ∧ (p.iface iface).stage ≤ 7)) then .next s
  else
    let x := p.iface iface
    let bad := decide (p.cfg.berAlarm < estimate) || decide (0 < uncorrectable)
    let (fire, lim) := if bad then x.fecEvent.hit s.now (sec 1) else (none, x.fecEvent)
    let s1 := s.modIface port iface (fun y =>
      { y with fecCorrected := y.fecCorrected + BitVec.ofNat 64 corrected,
               fecUncorrectable := y.fecUncorrectable + BitVec.ofNat 64 uncorrectable, fecEvent := lim })
    match fire with
    | some _ => .next (s1.raise (32 + port) 0x0008 (dCode 112 8 iface + dBits 48 64 estimate + dBits 16 32 uncorrectable))
    | none => .next s1

/-- DFE_TAP_LIMIT (R336): a DFE tap of an external lane's receiver reaches its limit in service. -/
def execDfeTapLimit (dt port lane tap : Nat) (s0 : State) : Out :=
  let s := s0.advance dt
  if s.portRuns port && decide (lane ≤ 7) && (s.lane (laneSite port lane)).frozenAt.isNone then
    .next (s.raise (34 + 8 * port + lane) 0x0001 (dCode 112 8 tap))
  else .next s

/- The inter-package link (R340 to R342). -/

/-- IPL_REPLAY (R340): a flit group is replayed. -/
def execIplReplay (dt dir : Nat) (s0 : State) : Out :=
  let s := s0.advance dt
  if !(s.serving && decide (dir ≤ 1) && !s.ports.ipl0.down && !s.ports.ipl1.down) then .next s
  else
    let x := s.ports.ipl dir
    let (fire, lim) := x.retryEvent.hit s.now (sec 1)
    let s1 := s.setIpl dir { x with retryEvent := lim }
    match fire with
    | some n => .next (s1.raise (50 + dir) 0x0004 (dBits 88 32 n) dir)
    | none => .next s1

/-- Committed load of a direction of the link in Gbit/s, rounded up: real-time, and total (R342). -/
def iplLoad (s : State) (dir : Nat) : Nat × Nat :=
  let fs := flows s
  let on := fun (l : List Flow) => sumN (l.map (fun f => f.bps * f.on (.ipl dir))) / 4
  (ceilDiv (on (fs.filter (·.realTime))) 1000000000, ceilDiv (on fs) 1000000000)

/-- A direction moves to the 8 lowest-numbered lanes that are good; with fewer than 8 the link stops (R342). -/
def State.narrowIpl (s : State) (dir : Nat) : State :=
  let good := s.iplGood dir
  if good.length < 8 then
    let x := s.ports.ipl dir
    (s.setIpl dir { x with down := true }).raise (50 + dir) 0x0003 (dCode 112 8 good.length) dir
  else
    let keep := good.take 8
    let s1 := good.foldl (fun t l => t.modLane (mkSite 3 dir 0 0 0 l) (fun y => { y with state := if keep.contains l then 1 else 0 })) s
    let x := s1.ports.ipl dir
    let load := iplLoad s1 dir
    (s1.setIpl dir { x with narrowed := true }).raise (50 + dir) 0x0002 (dBits 88 32 load.1 + dBits 56 32 load.2) dir

/-- The lane can carry traffic: neither of its ends is quiet, and no test runs on it. -/
def Lane.sound (y : Lane) : Bool := !y.quietTx && !y.quietRx && y.test == 0

/-- The lower-numbered spare lane of a direction that can take an active lane's traffic. -/
def State.spareFor (s : State) (dir : Nat) : Option Nat := (s.iplIn dir 2).find? (fun l => (s.lane (mkSite 3 dir 0 0 0 l)).sound)

/-- The lane's symbol errors are counted (R341). -/
def Lane.counted (x : Lane) (errors : Nat) : Lane := { x with symbolErrors := x.symbolErrors + BitVec.ofNat 64 errors }

/-- A lane that has failed carries nothing and is quiet at both ends (R341). -/
def Lane.failed (x : Lane) : Lane := { x with state := 4, quietTx := true, quietRx := true }

/-- LANE_FAILURE (R341, R342): a lane of a direction fails, by loss of clock recovery (1) or by its symbol errors in 1,000,000 ns (2), where
these are more than 1,000. An active lane's traffic moves to the lower-numbered spare, or the direction narrows. -/
def execLaneFailure (dt dir lane cause errors : Nat) (s0 : State) : Out :=
  let s := s0.advance dt
  let site := mkSite 3 dir 0 0 0 lane
  let x := s.lane site
  if !(s.serving && decide (dir ≤ 1 ∧ lane ≤ 17) && x.state != 4) then .next s
  else
    let s1 := s.setLane site (x.counted errors).failed
    if cause != 1 && !decide (1000 < errors) then .next (s.setLane site (x.counted errors))
    else if (s1.ports.ipl0.down || s1.ports.ipl1.down) then .next s1
    else if x.state = 1 then
      match s1.spareFor dir with
      | some sp =>
        .next ((s1.modLane (mkSite 3 dir 0 0 0 sp) (fun y => { y with state := 1 })).raise (50 + dir) 0x0001
          (dCode 112 8 lane + dCode 104 8 sp + dCode 96 8 cause) dir)
      | none => .next (s1.narrowIpl dir)
    else if (s1.iplGood dir).length < 8 then .next (s1.narrowIpl dir)
    else .next s1

/- Commands. -/

def portCfgOf (e : Env) : PortCfg :=
  { mode := e.at 1, adminDown := e.at 2, media := e.at 3, mtu := e.at 4, upHold := e.at 5, downHold := e.at 6, berAlarm := e.at 7 }

/-- The mode that a port's settings would take. -/
def modeUnder (p : Port) (c : PortCfg) : Nat :=
  if c.mode ≠ 0 then c.mode else ({ p with cfg := c } : Port).autoMode.getD (if p.mode = 0 then 3 else p.mode)

/-- Something names an interface of the port that a mode lacks (R335). -/
def namesLacking (s : State) (port mode : Nat) : Bool :=
  let n := modeIfaces mode
  s.egress.legs.any (fun l => decide (l.1 < 2 ^ 32) && l.2.cfg.port == port && decide (n ≤ l.2.cfg.iface)) ||
  s.fwd.streams.any (fun c => c.2.targets.any (fun t => t.2.cfg.port == port && decide (n ≤ t.2.cfg.iface))) ||
  s.egress.timers.any (fun t => t.2.cfg.port == port && decide (n ≤ t.2.cfg.iface))

/-- A port has an interface that is not administratively down. -/
def anyOpen (mode adminDown : Nat) : Bool := (List.range (modeIfaces mode)).any (fun i => !adminDown.testBit i)

/-- Site checks of a port number (R52): the port's package must be in service. -/
def portSite_ (e : Env) (off : Nat) : List (Bool × Err) :=
  [(decide (e.at 0 ≤ 1) && !e.s.siteUp (portSite (e.at 0)), badSite .siteFenced off (portSite (e.at 0)))]

def portModeDef : CmdDef where
  opcode := 0x0D01
  fields := [fN 1, fD 1 0, fD 1 0, fD 1 0, fD 2 9238, fD 2 100, fD 4 0, fD 4 10000000]
  checks e :=
    let c := portCfgOf e
    let p := e.vw.port (e.at 0)
    let q := e.vw.port (1 - e.at 0)
    let m := modeUnder p c
    portSite_ e 0 ++
    [ range (e.at 0) 0 1 0, range (e.at 1) 0 3 1, range (e.at 3) 0 2 3, range (e.at 4) 1522 9238 4, range (e.at 5) 0 10000 6,
      range (e.at 6) 0 1000000 8, range (e.at 7) 1 1000000000 12,
      needs (!namesLacking e.vw (e.at 0) m) 1,
      needs (anyOpen m c.adminDown || (e.vw.pkgUp (1 - e.at 0) && anyOpen (if q.single then 3 else q.mode) q.cfg.adminDown)) 2,
      needsSt (c.mode == 0 || (match p.optics with | some o => o.modes.contains c.mode | none => true)) .modeUnsupported 1 ]
  effect e := { stage := [(.afterSent, .port (.mode (e.at 0) (portCfgOf e)))] }

/-- CMD_PORT_MODE (R335). -/
def execCmdPortMode (r : CmdRef) (b : List Byte) (s : State) : Out := runCmd portModeDef r b s

/-- One interface's 88 bytes of Table 15.5. -/
def ifaceStatus (p : Port) (i : Nat) : List Byte :=
  let x := p.iface i
  let here := p.hasIface i
  let lanes := sumN ((p.lanesOf i).map (fun l => 2 ^ l))
  beBytes 1 (if here then x.stage else 9) ++ beBytes 1 lanes ++ zeros 2 ++ beBytes 4 (if here then p.rateIf else 0) ++
  timeBytes (wholeNs x.changed) ++ beBytes 8 x.rxFrames.toNat ++ beBytes 8 x.rxErrors.toNat ++ beBytes 8 x.rxPause.toNat ++
  beBytes 8 x.txFrames.toNat ++ beBytes 8 x.txDown.toNat ++ beBytes 8 x.txOversize.toNat ++ beBytes 8 x.fecCorrected.toNat ++
  beBytes 8 x.fecUncorrectable.toNat

def portStatusDef : CmdDef where
  opcode := 0x0D02
  reads := true
  setting := true
  fields := [fN 1, fR 3]
  checks e := portSite_ e 0 ++ [range (e.at 0) 0 1 0]
  effect e :=
    let p := e.s.port (e.at 0)
    { result := beBytes 1 p.modeName ++ beBytes 1 p.media ++ beBytes 1 ((p.optics.map (·.moduleState)).getD 0) ++ zeros 1 ++
        beBytes 6 (Config.macAddress (e.at 0)).toNat ++ zeros 6 ++ ((List.range 8).map (ifaceStatus p)).flatten }

/-- CMD_PORT_STATUS (R334, Table 15.5). -/
def execCmdPortStatus (r : CmdRef) (b : List Byte) (s : State) : Out := runCmd portStatusDef r b s

/-- The site names a lane of Table 0.5 (R347). -/
def isLane (c : Nat) : Bool := isExtLane c || isIplLane c

/-- The external lane's interface is administratively down, or the mode does not use the lane (R339). -/
def laneIdle (s : State) (site : Nat) : Bool :=
  let p := s.port (siteDie site)
  match p.ifaceOfLane (siteIndex site) with
  | some i => p.adminDown i
  | none => true

/-- The state of Table 15.6. -/
def laneState (s : State) (site : Nat) : Nat :=
  let x := s.lane site
  if x.test ≠ 0 then 3
  else if laneIsIpl site then x.state
  else if ((s.port (siteDie site)).ifaceOfLane (siteIndex site)).isSome then 1 else 0

def laneStatusDef : CmdDef where
  opcode := 0x0D03
  reads := true
  setting := true
  fields := [fN 4]
  checks e := e.s.siteChecks (e.at 0) (isLane (e.at 0)) 0
  effect e :=
    let c := e.at 0
    let x := e.s.lane c
    let t := x.frozenAt.getD e.s.now
    let p := e.s.port (siteDie c)
    let lock := !laneIsIpl c && (match p.ifaceOfLane (siteIndex c) with | some i => decide (6 ≤ (p.iface i).stage ∧ (p.iface i).stage ≤ 7) | none => false)
    let sig := fun k => !x.quietRx && Config.laneSignal c k e.s.now
    let bits := x.prbsAt c e.s.now
    { result := beBytes 1 (laneState e.s c) ++ beBytes 1 (b2n (x.quietTx || x.test == 1) + 2 * b2n x.quietRx) ++
        beBytes 1 (b2n (sig 0) + 2 * b2n (sig 1) + 4 * b2n lock + 8 * b2n x.frozenAt.isSome) ++ beBytes 1 x.test ++
        beInt 2 (Config.laneSnr c e.s.now) ++ zeros 2 ++ (x.txFfe.map (beInt 1)).flatten ++ zeros 3 ++
        ((List.range 28).map (fun k => beInt 1 (Config.laneTap c k t))).flatten ++ zeros 4 ++
        beBytes 8 x.symbolErrors.toNat ++ beBytes 8 bits.1.toNat ++ beBytes 8 bits.2.toNat ++ beBytes 8 x.slips.toNat }

/-- CMD_LANE_STATUS (R336, Table 15.6). The line transmitter is quiet in near-end loopback (R339). -/
def execCmdLaneStatus (r : CmdRef) (b : List Byte) (s : State) : Out := runCmd laneStatusDef r b s

/-- A self-test slice holds the lane (R374). -/
def laneHeld (e : Env) : List (Bool × Err) :=
  match e.s.vcp.holder (.bistSlice (e.at 0)) with
  | some _ => [(true, heldBy e.s (.bistSlice (e.at 0)) 0)]
  | none => []

/-- A lane may be made quiet: its interface is administratively down, or the mode does not use it; an inter-package lane that is not
active (R338). -/
def laneMayQuiet (s : State) (site : Nat) : Bool := if laneIsIpl site then (s.lane site).state != 1 else laneIdle s site

def laneQuietDef : CmdDef where
  opcode := 0x0D04
  setting := true
  fields := [fN 4, fF 1 3, fN 1, fR 2]
  checks e := e.s.siteChecks (e.at 0) (isLane (e.at 0)) 0 ++ laneHeld e ++
    [range (e.at 2) 0 1 5, (e.at 2 == 1 && !laneMayQuiet e.vw (e.at 0), badSite .laneInUse 0 (e.at 0))]
  effect e := { stage := [(.instant, .port (.quiet (e.at 0) ((e.at 1).testBit 0) ((e.at 1).testBit 1) (e.at 2 == 1)))] }

/-- CMD_LANE_QUIET (R338). -/
def execCmdLaneQuiet (r : CmdRef) (b : List Byte) (s : State) : Out := runCmd laneQuietDef r b s

/-- Table 15.7. -/
def laneTestFields : List Fld := [fN 4, fN 1, fD 1 0, fD 1 1, fRD 1, fD 1 0, fD 1 0, fD 1 0, fD 1 0, fD 1 0, fRD 3]

def laneTaps (e : Env) : List Int := (List.range 5).map (fun k => signed 8 (e.at (4 + k)))

/-- A lane test is allowed on the lane (R339). -/
def laneTestable (s : State) (site : Nat) : Bool :=
  if laneIsIpl site then (s.lane site).state == 2 || (s.lane site).state == 4 else laneIdle s site

/-- One action of CMD_LANE_TEST: its number, its own checks, and its change. -/
def laneTestDef (action : Nat) (own : Env → List (Bool × Err)) (change : Env → PortChange) : CmdDef where
  opcode := 0x0D05
  setting := true
  fields := laneTestFields
  mine := selects 4 action 8
  checks e := e.s.siteChecks (e.at 0) (isLane (e.at 0)) 0 ++ laneHeld e ++ [range (e.at 1) 0 7 4] ++ own e ++
    [(!laneTestable e.vw (e.at 0), badSite .laneInUse 0 (e.at 0))]
  effect e := { stage := [(.instant, .port (change e))] }

def noOwn : Env → List (Bool × Err) := fun _ => []

def laneTestEndDef : CmdDef := laneTestDef 0 noOwn (fun e => .testEnd (e.at 0))

/-- CMD_LANE_TEST action 0 (R339): ends every test and resumes adaptation. -/
def execCmdLaneTestEnd (r : CmdRef) (b : List Byte) (s : State) : Out := runCmd laneTestEndDef r b s

def laneTestNearLoopbackDef : CmdDef := laneTestDef 1 noOwn (fun e => .loopback (e.at 0) 1)

/-- CMD_LANE_TEST action 1 (R339): near-end loopback. -/
def execCmdLaneTestNearLoopback (r : CmdRef) (b : List Byte) (s : State) : Out := runCmd laneTestNearLoopbackDef r b s

def laneTestFarLoopbackDef : CmdDef := laneTestDef 2 noOwn (fun e => .loopback (e.at 0) 2)

/-- CMD_LANE_TEST action 2 (R339): far-end loopback. -/
def execCmdLaneTestFarLoopback (r : CmdRef) (b : List Byte) (s : State) : Out := runCmd laneTestFarLoopbackDef r b s

def laneTestPrbsDef : CmdDef := laneTestDef 3 (fun e => [range (e.at 2) 0 2 5]) (fun e => .prbs (e.at 0) (e.at 2))

/-- CMD_LANE_TEST action 3 (R339): PRBS. -/
def execCmdLaneTestPrbs (r : CmdRef) (b : List Byte) (s : State) : Out := runCmd laneTestPrbsDef r b s

def laneTestSlipDef : CmdDef := laneTestDef 4 (fun e => [range (e.at 3) 1 255 6, needs ((e.vw.lane (e.at 0)).test == 3) 4]) (fun e => .slip (e.at 0) (e.at 3))

/-- CMD_LANE_TEST action 4 (R339): a bit slip, accepted only while PRBS runs. -/
def execCmdLaneTestSlip (r : CmdRef) (b : List Byte) (s : State) : Out := runCmd laneTestSlipDef r b s

def laneTestTxFfeDef : CmdDef := laneTestDef 5 (fun e => [needs (decide (32 ≤ nth (laneTaps e) 3 0) &&
    decide (sumN ((laneTaps e).map Int.natAbs) ≤ 64)) 8]) (fun e => .txFfe (e.at 0) (laneTaps e))

/-- CMD_LANE_TEST action 5 (R339): transmit FFE; c(0) at least 32, and the sum of magnitudes at most 64. -/
def execCmdLaneTestTxFfe (r : CmdRef) (b : List Byte) (s : State) : Out := runCmd laneTestTxFfeDef r b s

def laneTestFreezeDef : CmdDef := laneTestDef 6 noOwn (fun e => .freeze (e.at 0) true)

/-- CMD_LANE_TEST action 6 (R339): freezes adaptation. -/
def execCmdLaneTestFreeze (r : CmdRef) (b : List Byte) (s : State) : Out := runCmd laneTestFreezeDef r b s

def laneTestResumeDef : CmdDef := laneTestDef 7 noOwn (fun e => .freeze (e.at 0) false)

/-- CMD_LANE_TEST action 7 (R339): resumes adaptation. -/
def execCmdLaneTestResume (r : CmdRef) (b : List Byte) (s : State) : Out := runCmd laneTestResumeDef r b s

/-- Table 15.8. -/
def cmisFields : List Fld := [fN 1, fD 1 0, fN 1, fN 1, fN 1, fRD 3]

def cmisRanges (e : Env) : List (Bool × Err) :=
  [range (e.at 0) 0 1 0, needs (decide (1 ≤ e.at 4 ∧ e.at 4 ≤ 128 ∧ e.at 3 + e.at 4 ≤ 256)) 4]

/-- The optics of the named port. -/
def opticsOf (e : Env) : Option Optics := (e.s.port (e.at 0)).optics

/-- An empty cage, or a transfer that fails (R344). -/
def cmisChecks (e : Env) : List (Bool × Err) :=
  match opticsOf e with
  | none => [(true, badAt .opticsAbsent 0)]
  | some o => [(o.status != 0, badDetail .cmisError o.status)]

def cmisReadDef : CmdDef where
  opcode := 0x0D06
  reads := true
  setting := true
  fields := cmisFields
  checks e := portSite_ e 0 ++ cmisRanges e ++ cmisChecks e
  effect e := { result := (List.range (e.at 4)).map (fun k => Config.cmisByte (e.at 0) (e.at 1) (e.at 2) (e.at 3 + k) e.s.now
    (match opticsOf e with | some o => o.written.find ((e.at 1 * 256 + e.at 2) * 256 + e.at 3 + k) | none => none)) }

/-- CMD_CMIS_READ (R344). -/
def execCmdCmisRead (r : CmdRef) (b : List Byte) (s : State) : Out := runCmd cmisReadDef r b s

/-- Bytes that the module manages (R344): the module-global controls of the lower page, bytes 26 to 30, and the data-path and
application-select bytes of page 10h, 128, 143 to 152 and 178 to 187 (CMIS 5; log entry 31). -/
def cmisManaged (page off : Nat) : Bool :=
  if off < 128 then decide (26 ≤ off ∧ off ≤ 30)
  else page == 0x10 && (off == 128 || decide (143 ≤ off ∧ off ≤ 152) || decide (178 ≤ off ∧ off ≤ 187))

def cmisWriteDef : CmdDef where
  opcode := 0x0D07
  fields := cmisFields
  tail := some (fun v => fv v 4)
  checks e := portSite_ e 0 ++ cmisRanges e ++
    [needs (!(List.range (e.at 4)).any (fun k => cmisManaged (e.at 2) (e.at 3 + k))) 3] ++ cmisChecks e
  effect e := { stage := [(.instant, .port (.cmisWrite (e.at 0) (e.at 1) (e.at 2) (e.at 3) e.tail))] }

/-- CMD_CMIS_WRITE (R344). -/
def execCmdCmisWrite (r : CmdRef) (b : List Byte) (s : State) : Out := runCmd cmisWriteDef r b s

end Sys2Proof.Machine
end

