-- ==== Sys2Proof/Machine/Time.lean ====
section
/-! DEFINITION. PTP, the regulator, TIME IN, TIME OUT, replicas, and the commands of the range 0x0Bxx (13_time_and_ptp.md).
Corners of PTP, TIME IN and TIME OUT: DEDUCED, some fields PRESUMED from IEEE 1588 (log entries 37, 39). -/

namespace Sys2Proof.Machine

/- PTP messages (R289 to R294). -/

/-- PTP messages reach the time unit of a port: the module is in service and the port's interface 0 is up (R334). -/
def State.ptpArrives (s : State) (p : Nat) : Bool := s.serving && decide (p ≤ 1) && s.pkgUp p && (s.port p).ifaceUp 0

/-- A message of a kind comes in: its frame is good and rule 2 of Table 4.1 takes it. -/
def State.ptpComes (s : State) (x : PtpRx) (kind : Nat) : Bool := s.ptpArrives x.port && fcsGood x.bytes && x.eth.isPtp && x.kind == kind

/-- An unsupported PTP message is dropped, counted and reported at most once a second (R289, R304). -/
def State.dropPtp (s : State) (p reason : Nat) : State :=
  let x := s.time.port p
  let (fire, lim) := x.dropEvent.hit s.now (sec 1)
  let s1 := s.setPtp p { x with dropped := x.dropped + 1, dropEvent := lim }
  match fire with
  | some n => s1.raise (17 + p) 0x0003 (dCode 112 8 reason + dBits 80 32 n)
  | none => s1

/-- The transparent clock passes a multicast frame to the other port (R293). -/
def State.passPtp (s : State) (x : PtpRx) : State :=
  if s.time.ptp.tc && x.multicast && s.linked x.port (1 - x.port) then
    (s.modPtp x.port (fun p => { p with tcForwarded := p.tcForwarded + 1 })).sendInternal (1 - x.port) 0
      { len := x.len, enq := s.now, arrival := s.now, payload := .ptpPass x.bytes (s.tRx x.port x.rxMac) }
  else s

/-- What every message meets first: the transparent clock, the time-stamp FIFO, and the checks of R289. The flag says whether the
port takes the message. -/
def State.takePtp (s : State) (x : PtpRx) : State × Bool :=
  let s1 := s.haps x.haps
  let double := x.haps.any (fun h => match h with | .fifoUncorrected _ _ => true | _ => false)
  if double then (s1.modPtp x.port (fun p => { p with dropped := p.dropped + 1 }), false)
  else
    let s2 := s1.passPtp x
    if !s2.time.ptp.hasPort x.port then (s2, false)
    else if x.malformed then (s2.dropPtp x.port 4, false)
    else if x.domain ≠ s2.time.ptp.domain then (s2.dropPtp x.port 3, false)
    else if x.kind = 0 ∧ x.twoStep then (s2.dropPtp x.port 1, false)
    else (s2, true)

/-- The Sync of a slave's parent gives a measurement (R292, R296). -/
def State.syncMeasure (s : State) (x : PtpRx) : State :=
  let p := s.time.port x.port
  if !(decide (p.portState = 8 ∨ p.portState = 9) && decide (x.source / 65536 = p.parent.identity)) then s
  else
    let d := (s.tRx x.port x.rxMac : Int) - ((x.stamp : Int) + x.corr)
    let s1 := s.setPtp x.port { p with lastSync := some d }
    match p.delay2 with
    | some w =>
      if p.portState = 9 then
        let e := 2 * d - w - p.cfg.asymmetry * 2 ^ 15
        let t := s1.time
        { s1 with time := { t with syncWindow := t.syncWindow ++ [(d, e)], lastMeasure := if t.source = 1 then s.now else t.lastMeasure } }
      else s1
    | none => s1

/-- PTP_SYNC_RECEIVED (R289, R292, R293). -/
def execPtpSyncReceived (x : PtpRx) (s0 : State) : Out :=
  let s := s0.advance x.dt
  if !s.ptpComes x 0 then .next s
  else
    match s.takePtp x with
    | (s1, false) => .next s1
    | (s1, true) => .next ((s1.modPtp x.port (fun p => { p with syncRx := p.syncRx + 1 })).syncMeasure x)

/-- Under profile 1 a grantee holds a grant of the message type (R290). -/
def State.granted (s : State) (p peer msgType : Nat) : Bool :=
  s.time.ptp.profile != 1 ||
  (s.time.port p).grants.any (fun g => g.grantor && g.peer == peer && g.msgType == msgType && decide (s.now < g.ends))

/-- PTP_DELAY_REQ_RECEIVED (R291): a master port answers with a Delay_Resp whose receiveTimestamp carries t4 rounded down and whose
correctionField is the request's less the fraction of t4. -/
def execPtpDelayReqReceived (x : PtpRx) (s0 : State) : Out :=
  let s := s0.advance x.dt
  if !s.ptpComes x 1 then .next s
  else
    match s.takePtp x with
    | (s1, false) => .next s1
    | (s1, true) =>
      let s2 := s1.modPtp x.port (fun p => { p with delayReqRx := p.delayReqRx + 1 })
      if (s2.time.port x.port).portState = 6 ∧ s2.granted x.port x.peer 9 then
        let t4 := s2.tRx x.port x.rxMac
        .next (s2.sendPtp x.port { kind := 9, source := portIdentity x.port, domain := x.domain, seq := x.seq, stamp := wholeNs t4,
                                   corr := x.corr - ((t4 - wholeNs t4 : Nat) : Int), requesting := x.source }
          (if s2.time.ptp.profile = 1 then x.peer else 0))
      else .next s2

/-- PTP_DELAY_RESP_RECEIVED (R292): the answer to the outstanding Delay_Req replaces the path delay. A port that has no delay yet
becomes SLAVE. -/
def execPtpDelayRespReceived (x : PtpRx) (s0 : State) : Out :=
  let s := s0.advance x.dt
  if !s.ptpComes x 9 then .next s
  else
    match s.takePtp x with
    | (s1, false) => .next s1
    | (s1, true) =>
      let p := s1.time.port x.port
      match p.t3, p.lastSync with
      | some (seq, t3), some d =>
        if decide (p.portState = 8 ∨ p.portState = 9) && x.requesting == portIdentity x.port && x.seq == seq then
          let t4 := (x.stamp : Int) - x.corr
          let s2 := s1.setPtp x.port { p with delay2 := some (d + (t4 - (t3 : Int))), t3 := none }
          if p.portState = 8 then
            let s3 := s2.portState x.port 9
            .next ((s3.modPtp x.port (fun q => { q with lastSync := some d })).squelch)
          else .next s2
        else .next s1
      | _, _ => .next s1

/-- The foreign masters of a port after an Announce. -/
def PtpPort.heard (p : PtpPort) (x : PtpRx) (now : Instant) : PtpPort :=
  let d : Parent := { x.data with identity := x.source / 65536 }
  let old := p.foreign.find? (fun f => f.data.identity == d.identity)
  let seen := now :: ((old.map (·.seen)).getD []).take 1
  let others := p.foreign.filter (fun f => f.data.identity != d.identity)
  let mine := p.portState == 8 || p.portState == 9
  { p with foreign := others ++ [{ data := d, peer := x.peer, seen := seen }], announceRx := p.announceRx + 1,
           lastAnnounce := if mine && d.identity != p.parent.identity then p.lastAnnounce else now }

/-- PTP_ANNOUNCE_RECEIVED (R290, R294): the BMCA updates port states and parents. Under profile 1 only the port's masters count. -/
def execPtpAnnounceReceived (x : PtpRx) (s0 : State) : Out :=
  let s := s0.advance x.dt
  if !s.ptpComes x 11 then .next s
  else
    match s.takePtp x with
    | (s1, false) => .next s1
    | (s1, true) =>
      let p := s1.time.port x.port
      if x.source / 65536 = clockIdentity ∨ (s1.time.ptp.profile = 1 ∧ !p.cfg.masters.contains x.peer) then .next s1
      else .next ((s1.setPtp x.port (p.heard x s1.now)).bmca)

/-- ANNOUNCE_TIMEOUT (R290): no Announce within announce_timeout intervals; the port re-runs the BMCA. -/
def execAnnounceTimeout (dt port : Nat) (s0 : State) : Out :=
  let s := s0.advance dt
  let p := s.time.port port
  let live := p.portState == 4 || p.portState == 7 || p.portState == 8 || p.portState == 9
  if s.serving && decide (port ≤ 1) && s.time.ptp.hasPort port && live &&
      decide (p.lastAnnounce + p.cfg.announceTimeout * logInterval p.cfg.logAnnounce ≤ s.now) then
    let left := p.foreign.filter (fun f => !((p.portState == 8 || p.portState == 9) && f.data.identity == p.parent.identity) &&
      f.qualified (logInterval p.cfg.logAnnounce) s.now)
    let s1 := s.setPtp port { p with foreign := left, lastAnnounce := s.now }
    -- a port that listens and hears no master becomes one, unless it is a slave only
    let s2 := if left.isEmpty && !s1.time.ptp.slaveOnly && (s1.candidates 0 ++ s1.candidates 1).isEmpty then s1.portState port 6 else s1
    .next s2.bmca
  else .next s

/-- A message is due on a port in one of the states given. -/
def State.ptpDue (s : State) (port : Nat) (states : List Nat) (due : PtpPort → Instant) : Bool :=
  s.ptpArrives port && s.time.ptp.hasPort port && states.contains (s.time.port port).portState && decide (due (s.time.port port) ≤ s.now)

/-- Whom a master's message goes to: the multicast address, or under profile 1 every holder of a grant (R290). -/
def State.ptpPeers (s : State) (port msgType : Nat) : List Nat :=
  if s.time.ptp.profile = 1 then
    ((s.time.port port).grants.filter (fun g => g.grantor && g.msgType == msgType && decide (s.now < g.ends))).map (·.peer)
  else [0]

/-- PTP_SYNC_SEND (R291): a master port sends a one-step Sync at its interval. -/
def execPtpSyncSend (dt port : Nat) (s0 : State) : Out :=
  let s := s0.advance dt
  if s.ptpDue port [6] (·.nextSync) then
    let p := s.time.port port
    let peers := s.ptpPeers port 0
    let s1 := s.setPtp port { p with nextSync := s.now + logInterval p.cfg.logSync, syncSeq := (p.syncSeq + 1) % 65536,
                                     syncTx := p.syncTx + BitVec.ofNat 64 peers.length }
    .next (peers.foldl (fun t a => t.sendPtp port { kind := 0, source := portIdentity port, domain := t.time.ptp.domain, seq := p.syncSeq } a) s1)
  else .next s

/-- PTP_DELAY_REQ_SEND (R291): a slave port sends a Delay_Req at its interval. -/
def execPtpDelayReqSend (dt port : Nat) (s0 : State) : Out :=
  let s := s0.advance dt
  if s.ptpDue port [8, 9] (·.nextDelayReq) then
    let p := s.time.port port
    let s1 := s.setPtp port { p with nextDelayReq := s.now + logInterval p.cfg.logDelayReq, delaySeq := (p.delaySeq + 1) % 65536,
                                     delayReqTx := p.delayReqTx + 1 }
    .next (s1.sendPtp port { kind := 1, source := portIdentity port, domain := s1.time.ptp.domain, seq := p.delaySeq }
      (if s1.time.ptp.profile = 1 then p.parentPeer else 0))
  else .next s

/-- PTP_ANNOUNCE_SEND (R294): a master port sends an Announce at its interval. -/
def execPtpAnnounceSend (dt port : Nat) (s0 : State) : Out :=
  let s := s0.advance dt
  if s.ptpDue port [6] (·.nextAnnounce) then
    let p := s.time.port port
    let peers := s.ptpPeers port 11
    let s1 := s.setPtp port { p with nextAnnounce := s.now + logInterval p.cfg.logAnnounce, announceSeq := (p.announceSeq + 1) % 65536,
                                     announceTx := p.announceTx + BitVec.ofNat 64 peers.length }
    .next (peers.foldl (fun t a => t.sendPtp port { kind := 11, source := portIdentity port, domain := t.time.ptp.domain,
                                                    seq := p.announceSeq, ds := some t.advertised } a) s1)
  else .next s

/-- UNICAST_GRANT of a grantee (R290, Table 13.6): master index, messageType, result. -/
def State.grantEvent (s : State) (port index msgType result : Nat) : State :=
  s.raise (17 + port) 0x0004 (dCode 112 8 index + dCode 108 4 msgType + dCode 104 4 result)

/-- Put a grant, replacing one of the same side, peer and message type. -/
def PtpPort.putGrant (p : PtpPort) (peer msgType : Nat) (ends : Instant) (grantor : Bool) : PtpPort :=
  { p with grants := p.grants.filter (fun g => !(g.peer == peer && g.msgType == msgType && g.grantor == grantor)) ++
             [{ id := p.nextGrant, peer := peer, msgType := msgType, ends := ends, grantor := grantor }],
           nextGrant := p.nextGrant + 1 }

def PtpPort.dropGrant (p : PtpPort) (peer msgType : Nat) : PtpPort :=
  { p with grants := p.grants.filter (fun g => !(g.peer == peer && g.msgType == msgType)) }

/-- One negotiation of a peer's message (R290). Kind 0 asks the module for a grant, which it gives while the port holds fewer than 256 as
grantor; kind 1 answers a request of the module's, with duration 0 for a refusal; kind 2 cancels; kind 3 acknowledges a cancellation. -/
def State.negotiate (s : State) (port peer kind msgType duration : Nat) : State :=
  let p := s.time.port port
  let answer : Nat → Nat → PtpMsg := fun k d =>
    { kind := 12, source := portIdentity port, domain := s.time.ptp.domain, tlv := some (k, msgType, d) }
  let index := p.cfg.masters.idxOf peer
  let mine := p.cfg.masters.contains peer
  match kind with
  | 0 =>
    let held := p.grants.filter (fun g => g.grantor && !(g.peer == peer && g.msgType == msgType))
    if held.length < 256 ∧ 0 < duration then
      (s.setPtp port (p.putGrant peer msgType (s.now + sec duration) true)).sendPtp port (answer 1 duration) peer
    else s.sendPtp port (answer 1 0) peer
  | 1 =>
    if !mine then s
    else if duration = 0 then (s.setPtp port (p.dropGrant peer msgType)).grantEvent port index msgType 1
    else (s.setPtp port (p.putGrant peer msgType (s.now + sec duration) false)).grantEvent port index msgType 0
  | 2 =>
    let s1 := (s.setPtp port (p.dropGrant peer msgType)).sendPtp port (answer 3 0) peer
    if mine then s1.grantEvent port index msgType 2 else s1
  | _ => s.setPtp port (p.dropGrant peer msgType)

/-- UNICAST_NEGOTIATION (R290): a Signaling message under profile 1. -/
def execUnicastNegotiation (x : PtpRx) (s0 : State) : Out :=
  let s := s0.advance x.dt
  if !s.ptpComes x 12 then .next s
  else
    match s.takePtp x with
    | (s1, false) => .next s1
    | (s1, true) =>
      if s1.time.ptp.profile = 1 then .next (x.tlvs.foldl (fun t v => t.negotiate x.port x.peer v.1 v.2.1 v.2.2) s1) else .next s1

/-- UNICAST_GRANT_EXPIRY (R290): a grant's duration runs out; the module as grantee asks again, as grantor it ends the grant. -/
def execUnicastGrantExpiry (dt port id : Nat) (s0 : State) : Out :=
  let s := s0.advance dt
  let p := s.time.port port
  match p.grants.find? (fun g => g.id == id) with
  | none => .next s
  | some g =>
    if !(s.serving && decide (port ≤ 1) && decide (g.ends ≤ s.now)) then .next s
    else
      let s1 := s.setPtp port { p with grants := p.grants.filter (fun h => h.id != id) }
      .next (if g.grantor then s1 else s1.askGrant port g.peer g.msgType)

/- The regulator (R283 to R285, R295 to R297). -/

/-- The measurement that a source has ready, with T in 1/128 s (R296). -/
def State.ready (s : State) (source : Nat) : Option (Int × Nat) :=
  match source with
  | 1 =>
    match s.time.slavePort with
    | none => none
    | some p =>
      if s.time.syncWindow.length < s.time.reg.selectWindow then none
      else (s.time.syncWindow.foldl (fun (best : Option (Int × Int)) x => match best with
        | none => some x
        | some b => if x.1 < b.1 then some x else some b) none).map (fun b => (b.2, s.intervalT 1 p))
  | 2 => if s.time.timeInMode = 1 then s.time.timeInNew.map (fun e => (e, 128)) else none
  | 3 => if s.time.timeInMode = 2 then s.time.timeInNew.map (fun e => (e, 128)) else none
  | _ => none

/-- The sources in the order of their priority. -/
def RegCfg.list (r : RegCfg) : List Nat := r.sources.filter (· != 0)

/-- The measurements ready at an update are used up by it. -/
def State.useUp (s : State) : State :=
  let t := s.time
  { s with time := { t with timeInNew := none, syncWindow := if t.reg.selectWindow ≤ t.syncWindow.length then [] else t.syncWindow } }

/-- REGULATOR_UPDATE (R295 to R297): the regulator takes the measurement of its source, or of a source of higher priority that has
become available. In forced HOLDOVER it takes none. -/
def execRegulatorUpdate (dt : Nat) (s0 : State) : Out :=
  let s := s0.advance dt
  if !s.serving then .next s
  else
    let l := s.time.reg.list
    let have_ := l.filter (fun x => (s.ready x).isSome)
    let rank := fun x => l.idxOf x
    match have_.head? with
    | none => .next s.useUp
    | some x =>
      let cur := s.time.source
      if s.time.forced || (l.contains cur && decide (rank cur < rank x)) then .next s.useUp
      else
        match s.ready x with
        | none => .next s
        | some (e, T) =>
          let s1 := if cur = x then s else ((if cur = 0 then s else s.loseSource).takeSource x)
          .next (s1.useUp.measure s1.view e T)

/-- A source is available: a port in the SLAVE state that has its path delay, or TIME IN in the source's mode with an accepted edge. -/
def State.available (s : State) (source : Nat) : Bool :=
  match source with
  | 1 => s.time.slavePort.isSome
  | 2 => s.time.timeInMode == 1 && !s.time.timeInLost && s.time.timeInLast.isSome
  | 3 => s.time.timeInMode == 2 && !s.time.timeInLost && s.time.timeInLast.isSome
  | _ => false

/-- SOURCE_TIMEOUT (R283): the source in use gave no valid measurement for source_timeout and is lost; the regulator changes to the
next source that is available. -/
def execSourceTimeout (dt : Nat) (s0 : State) : Out :=
  let s := s0.advance dt
  let old := s.time.source
  if s.serving && old != 0 && decide (s.time.lastMeasure + ms s.time.reg.sourceTimeout ≤ s.now) then
    let s1 := s.loseSource
    match (s1.time.reg.list.filter (fun x => x != old && s1.available x)).head? with
    | some x => .next (s1.takeSource x)
    | none => .next { s1 with time := { s1.time with source := 0 } }
  else .next s

/-- HOLDOVER_EXPIRED (R284). -/
def execHoldoverExpired (dt : Nat) (s0 : State) : Out :=
  let s := s0.advance dt
  let t := s.time
  if s.serving && t.mode == .holdover && t.holdoverTraceable && !t.holdoverExpired &&
      decide (t.holdoverSince + sec t.reg.holdoverLimit ≤ s.now) then
    .next ((({ s with time := { t with holdoverExpired := true } }).raise 16 0x0006
      (dBits 88 32 ((s.now - t.holdoverSince) / sec 1))).squelch)
  else .next s

/- TIME IN (R296, R300). -/

/-- x wrapped into −w/2 to w/2 − 1. -/
def wrapAround (x : Int) (w : Nat) : Int := (x + (w / 2 : Nat)) % (w : Int) - (w / 2 : Nat)

/-- An accepted measurement of TIME IN. -/
def State.timeInMeasure (s : State) (e : Int) (edge : Instant) : State :=
  let t := s.time
  let restored := t.timeInLost
  let s1 := { s with time := { t with
    timeInError := e, timeInNew := some e, timeInLast := some edge, timeInLost := false,
    lastMeasure := if (t.source = 2 ∧ t.timeInMode = 1) ∨ (t.source = 3 ∧ t.timeInMode = 2) then s.now else t.lastMeasure } }
  if restored then s1.raise 19 0x0002 (dInt 88 32 (quarterNs e)) else s1

/-- TIME_IN_EDGE (R296, R300): a 1PPS edge, stamped to 0.25 ns. The first edge after a loss is accepted; one more than 1,000 ns from the
second expected from the previous accepted edge is rejected. -/
def execTimeInEdge (dt stamp : Nat) (s0 : State) : Out :=
  let s := s0.advance dt
  let t := s.time
  if !(s.serving && t.timeInMode == 1) then .next s
  else
    let edge := stamp / 16384 * 16384
    let ok := match t.timeInLast with
      | none => true
      | some l => decide ((wrapAround ((edge : Int) - (l : Int)) (sec 1)).natAbs ≤ ns 1000)
    if ok then .next (s.timeInMeasure (2 * wrapAround (edge : Int) (sec 1) - t.timeInDelay * 2 ^ 15) edge)
    else
      let (fire, lim) := t.glitchEvent.hit s.now (sec 1)
      let s1 := { s with time := { t with glitchEvent := lim } }
      match fire with
      | some n => .next (s1.raise 19 0x0003 (dBits 88 32 n))
      | none => .next s1

/-- TIME_IN_AVERAGE (R296): the errors of a second's 10 MHz edges, wrapped to ±50 ns, are averaged into one measurement. -/
def execTimeInAverage (dt : Nat) (edges : List Nat) (s0 : State) : Out :=
  let s := s0.advance dt
  let t := s.time
  match edges.getLast? with
  | none => .next s
  | some l =>
    if !(s.serving && t.timeInMode == 2) then .next s
    else
      let es := edges.map (fun e => wrapAround (2 * ((e / 16384 * 16384 : Nat) : Int) - t.timeInDelay * 2 ^ 15) (2 * ns 100))
      .next (s.timeInMeasure (roundDivAway (sumI es) es.length) l)

/-- TIME_IN_LOST (R300): no accepted 1PPS edge for 3 s, or the 10 MHz amplitude has failed for 1 ms. -/
def execTimeInLost (dt : Nat) (amplitudeFailed : Bool) (s0 : State) : Out :=
  let s := s0.advance dt
  let t := s.time
  let lost := match t.timeInMode with
    | 1 => decide ((t.timeInLast.getD t.timeInSince) + sec 3 ≤ s.now)
    | 2 => amplitudeFailed
    | _ => false
  if s.serving && lost && !t.timeInLost then
    .next (({ s with time := { t with timeInLost := true, timeInLast := none, timeInNew := none } }).raise 19 0x0001 0)
  else .next s

/- TIME OUT (R301). -/

/-- The instant m has a rising edge of the function. -/
def TimeOutCfg.edgeAt (c : TimeOutCfg) (s : State) (m : Instant) : Bool :=
  match c.mode with
  | 1 => m % sec 1 == 0
  | 2 => m % ns 100 == 0
  | 3 =>
    if c.mirrorKind = 1 then
      match (s.esc (clusterNo c.mirror)).active.slots[c.gridSlot]? with
      | some g => g.isBeat m
      | none => false
    else match s.egress.timers.find c.mirror with
      | some t => (t.window m).1 == m
      | none => false
  | _ => false

/-- The level of TIME OUT (Table 13.4, R301): high from an edge for the pulse's width, for half the period at 10 MHz, and low while it is
held. -/
def State.timeOutHigh (s : State) : Bool :=
  match s.time.timeOut, s.time.lastEdge with
  | some c, some m =>
    let t := s.now + c.delay * 16384
    !s.time.squelched && decide (m ≤ t) && decide (t < m + ns (if c.mode = 2 then 50 else c.pulseWidth))
  | _, _ => false

/-- TIME_OUT_EDGE (R301): the edge that marks an instant leaves time_out_delay before it. -/
def execTimeOutEdge (dt : Nat) (s0 : State) : Out :=
  let s := s0.advance dt
  match s.time.timeOut with
  | none => .next s
  | some c =>
    let m := s.now + c.delay * 16384
    if s.serving && c.edgeAt s m && !s.time.squelched && s.time.lastEdge != some m then
      .next { s with time := { s.time with lastEdge := some m, pulses := s.time.pulses + 1 } }
    else .next s

/-- ONE_SHOT (R301): the pulse, and ONE_SHOT_DONE at its end. A squelched output emits none. -/
def execOneShot (dt : Nat) (s0 : State) : Out :=
  let s := s0.advance dt
  match s.time.timeOut with
  | none => .next s
  | some c =>
    let m := s.now + c.delay * 16384
    if s.serving && c.mode == 4 && !s.time.oneShotDone && decide (c.instant ≤ m) then
      if s.time.squelched then .next { s with time := { s.time with oneShotDone := true } }
      else
        .next (({ s with time := { s.time with oneShotDone := true, lastEdge := some m, pulses := s.time.pulses + 1 } }).raiseAt
          (s.now + ns c.pulseWidth) 20 0x0002 0)
    else .next s

/- Counters and replicas (R282, R302), the OCXO (R398). -/

/-- COUNTER_COMPARE (R282): once per second the other IO die's counter is compared with the timebase; it is slewed by at most 1 ns per 1,000,000 ns,
1,000 ns until the next comparison. `err` is in 0.25 ns. -/
def execCounterCompare (dt : Nat) (err : Int) (s0 : State) : Out :=
  let s := s0.advance dt
  if s.live && decide (s.time.lastCompare + sec 1 ≤ s.now) then
    .next { s with time := { s.time with otherErr := err - clampI (-4000) 4000 err, lastCompare := s.now } }
  else .next s

/-- REPLICA_CHECK (R302): every second a media die's replica is read, in 0.25 ns; an error beyond ±4 ns is reported. -/
def execReplicaCheck (dt die : Nat) (err : Int) (s0 : State) : Out :=
  let s := s0.advance dt
  if !(s.serving && decide (die ≤ 7) && s.dieUp die && decide ((s.pool die).replicaAt + sec 1 ≤ s.now)) then .next s
  else
    let s1 := s.modPool die (fun p => { p with replicaErr := err, replicaAt := s.now })
    .next (s1.raiseIf (decide (16 < err.natAbs)) 21 0x0001 (dCode 88 32 (dieSite die) + dInt 56 32 err) (pkgOfDie die))

/-- OCXO_STATE (R398, Table 18.8): its state and the steer headroom in ppb. -/
def State.ocxoEvent (s : State) : State :=
  let st := if s.time.ocxoAlarm then 2 else if s.time.ocxoStable then 1 else 0
  s.raise 3 0x0001 (dCode 112 8 st + dBits 96 16 ((500 * 65536 - (Config.ocxoBase - s.time.steer).natAbs) / 65536))

/-- OCXO_STABLE (R398): the OCXO reaches the stability of Table 13.3. -/
def execOcxoStable (dt : Nat) (s0 : State) : Out :=
  let s := s0.advance dt
  if s.live && !s.time.ocxoStable then
    let s1 := { s with time := { s.time with ocxoStable := true } }
    .next (if s1.time.ocxoAlarm then s1 else s1.ocxoEvent)
  else .next s

/-- OCXO_ALARM (R398): the alarm line asserts or clears. -/
def execOcxoAlarm (dt : Nat) (on : Bool) (s0 : State) : Out :=
  let s := s0.advance dt
  if s.live && s.time.ocxoAlarm != on then .next ({ s with time := { s.time with ocxoAlarm := on } }).ocxoEvent else .next s

/- Commands. -/

/-- currentUtcOffset in force (R294). -/
def State.utcInForce (s : State) : Nat :=
  match s.time.mode, s.time.source, s.time.slavePort with
  | .locked, 1, some p => (s.time.port p).parent.utcOffset
  | _, _, _ => s.time.utcOffset

/-- A path delay in 0.25 ns units. -/
def delayQuarters (p : PtpPort) : Int := match p.delay2 with | some w => quarterNs w | none => 0

def timeStatusDef : CmdDef where
  opcode := 0x0B01
  reads := true
  effect e :=
    let s := e.s
    let t := s.time
    { result := beBytes 1 t.mode.code ++ beBytes 1 t.source ++ beBytes 1 (b2n s.traceable) ++
        beBytes 1 (t.slavePort.getD 0xFF) ++ beInt 4 (quarterNs t.offset) ++ beInt 4 (satI 32 t.steer) ++
        beInt 4 (satI 32 (roundDivAway t.integrator (2 ^ 32))) ++
        beInt 4 (match t.slavePort with | some p => delayQuarters (t.port p) | none => 0) ++
        beBytes 4 (if t.mode = .holdover then sat 32 ((s.now - t.holdoverSince) / sec 1) else 0) ++
        timeBytes (wholeNs s.now) ++ beInt 4 (quarterNs t.timeInError) ++ beBytes 2 s.utcInForce ++ zeros 2 ++
        beBytes 8 t.steps.toNat ++ beBytes 8 t.sourceChanges.toNat }

/-- CMD_TIME_STATUS (R283, Table 13.7). -/
def execCmdTimeStatus (r : CmdRef) (b : List Byte) (s : State) : Out := runCmd timeStatusDef r b s

/-- PROFILE_CONFLICT (R290): of a clock's parameters, and of its ports' transports. -/
def clockConflict (s : State) (c : PtpClockCfg) : Bool :=
  (c.tc && (c.role == 3 || c.profile == 1)) ||
  (c.profile == 1 && [0, 1].any (fun p => c.hasPort p && (s.time.port p).cfg.transport == 0))

/-- A port under profile 0 holds a master list (R290). -/
def mastersUnderDefault (s : State) (c : PtpClockCfg) : Bool :=
  c.profile == 0 && [0, 1].any (fun p => c.hasPort p && !(s.time.port p).cfg.masters.isEmpty)

def ptpClockOf (e : Env) : PtpClockCfg :=
  { role := e.at 0, profile := e.at 1, domain := e.at 2, slaveOnly := (e.at 3).testBit 0, tc := (e.at 3).testBit 1,
    priority1 := e.at 4, priority2 := e.at 5, localPriority := e.at 6, gmClass := e.at 7, utcOffset := e.at 8 }

/-- T of every source in the list, in 1/128 s, for the ports that may be slave (R298). -/
def gainIntervals (s : State) (r : RegCfg) (logSync : Nat → Int) : List Nat :=
  (r.list.map (fun x =>
    if x = 1 then
      let ps := if s.time.ptp.role = 0 then [0, 1] else [0, 1].filter s.time.ptp.hasPort
      ps.map (fun p => r.selectWindow * 2 ^ (logSync p + 7).toNat)
    else [128])).flatten

/-- GAIN_LIMIT for an interval (R298): kp × T > 0.5, or ki × T > kp / 4. -/
def gainTooHigh (r : RegCfg) (T : Nat) : Bool := decide (2 ^ 30 < r.kp * T) || decide (r.kp * 128 < 4 * r.ki * T)

def ptpClockDef : CmdDef where
  opcode := 0x0B02
  fields := [fN 1, fN 1, fN 1, fFD 1 3 0, fD 1 128, fD 1 128, fD 1 128, fD 1 6, fD 2 37, fRD 2]
  checks e :=
    let c := ptpClockOf e
    [ range (e.at 0) 0 3 0, range (e.at 1) 0 1 1,
      needs (if c.profile = 1 then decide (44 ≤ c.domain ∧ c.domain ≤ 63) else decide (c.domain ≤ 127)) 2,
      needs (c.profile != 1 || c.localPriority != 0) 6,
      needsSt (!clockConflict e.vw c) .profileConflict 0xFFFF, needs (!mastersUnderDefault e.vw c) 1 ]
  effect e := { stage := [(.instant, .time (.ptpClock (ptpClockOf e)))] }

/-- CMD_PTP_CLOCK (R290). -/
def execCmdPtpClock (r : CmdRef) (b : List Byte) (s : State) : Out := runCmd ptpClockDef r b s

def ptpPortOf (e : Env) : PtpPortCfg :=
  { transport := e.at 1, logSync := signed 8 (e.at 2), logDelayReq := signed 8 (e.at 3), logAnnounce := signed 8 (e.at 4),
    announceTimeout := e.at 5, asymmetry := signed 32 (e.at 7), txExtra := e.at 8, rxExtra := e.at 9, vid := e.at 10,
    masters := (chunks 16 8 e.tail).map beNat }

/-- An address in the form of Table 2.11 for a transport: an IPv4 address keeps its first 12 bytes zero. -/
def addressFits (transport a : Nat) : Bool := transport != 1 || decide (a < 2 ^ 32)

def ptpPortDef : CmdDef where
  opcode := 0x0B03
  fields := [fN 1, fN 1, fD 1 0xFC, fD 1 0xFC, fD 1 0, fD 1 3, fD 1 0, fRD 1, fD 4 0, fD 4 0, fD 4 0, fD 2 0, fRD 2]
  tail := some (fun v => 16 * fv v 6)
  zero v tl := ((List.range 8).zip ((chunks 16 8 tl).map beNat)).map (fun p => (!addressFits (fv v 1) p.2, 24 + 16 * p.1))
  checks e :=
    let c := ptpPortOf e
    let inR := fun (x lo hi : Int) => decide (lo ≤ x ∧ x ≤ hi)
    let k := e.vw.time.ptp
    let T := gainIntervals e.vw e.vw.time.reg (fun p => if p = e.at 0 then c.logSync else (e.vw.time.port p).cfg.logSync)
    [ range (e.at 0) 0 1 0, range (e.at 1) 0 2 1, needs (inR c.logSync (-7) 0) 2, needs (inR c.logDelayReq (-7) 0) 3,
      needs (inR c.logAnnounce (-3) 3) 4, range (e.at 5) 2 10 5, range (e.at 6) 0 8 6, range (e.at 8) 0 4000000 12,
      range (e.at 9) 0 4000000 16, range (e.at 10) 0 4094 20,
      needsSt (!(k.profile == 1 && k.hasPort (e.at 0) && c.transport == 0)) .profileConflict 1,
      needs (c.masters.isEmpty || k.profile == 1) 6,
      (c.logSync != (e.vw.time.port (e.at 0)).cfg.logSync && T.any (gainTooHigh e.vw.time.reg), badAt .gainLimit 2) ]
  effect e := { stage := [(.instant, .time (.ptpPort (e.at 0) (ptpPortOf e)))] }

/-- CMD_PTP_PORT (R290, R298, R306). -/
def execCmdPtpPort (r : CmdRef) (b : List Byte) (s : State) : Out := runCmd ptpPortDef r b s

def ptpPortStatusDef : CmdDef where
  opcode := 0x0B04
  reads := true
  fields := [fN 1, fR 3]
  checks e := [ range (e.at 0) 0 1 0, needs (e.s.time.ptp.hasPort (e.at 0)) 0 ]
  effect e :=
    let p := e.s.time.port (e.at 0)
    let q := p.parent
    { result := beBytes 1 p.portState ++ zeros 1 ++ beBytes 2 q.stepsRemoved ++ zeros 4 ++ beBytes 8 q.identity ++
        beBytes 8 q.gmIdentity ++ beBytes 1 q.gmClass ++ beBytes 1 q.gmAccuracy ++ beBytes 2 q.gmVariance ++
        beInt 4 (delayQuarters p) ++ beBytes 8 p.syncRx.toNat ++ beBytes 8 p.syncTx.toNat ++ beBytes 8 p.delayReqRx.toNat ++
        beBytes 8 p.delayReqTx.toNat ++ beBytes 8 p.announceRx.toNat ++ beBytes 8 p.announceTx.toNat ++
        beBytes 8 p.tcForwarded.toNat ++ beBytes 8 p.dropped.toNat }

/-- CMD_PTP_PORT_STATUS (Table 13.10). -/
def execCmdPtpPortStatus (r : CmdRef) (b : List Byte) (s : State) : Out := runCmd ptpPortStatusDef r b s

/-- Table 13.11. -/
def regulatorFields : List Fld :=
  [fD 1 0, fD 1 4, fD 1 1, fD 1 2, fD 1 0, fD 1 16, fRD 2, fD 4 0x00400000, fD 4 0x00040000, fD 4 0x00640000, fD 4 0x00640000,
   fD 4 1000, fD 4 100, fD 4 1000, fD 4 5000, fD 4 600, fD 4 14400]

def regCfgOf (e : Env) : RegCfg :=
  { selectWindow := e.at 1, sources := [e.at 2, e.at 3, e.at 4], lockCount := e.at 5, kp := e.at 6, ki := e.at 7,
    freqLimit := e.at 8, slewLimit := e.at 9, stepThreshold := e.at 10, lockThreshold := e.at 11, unlockThreshold := e.at 12,
    sourceTimeout := e.at 13, holdoverAverage := e.at 14, holdoverLimit := e.at 15 }

/-- Field ranges of Table 13.11; kp = 0, freq_limit and slew_limit give GAIN_LIMIT (R298). -/
def regulatorRanges (e : Env) : List (Bool × Err) :=
  [ range (e.at 0) 0 2 0, range (e.at 1) 1 64 1, range (e.at 2) 0 3 2, range (e.at 3) 0 3 3, range (e.at 4) 0 3 4,
    range (e.at 5) 1 255 5, needsSt (e.at 6 != 0) .gainLimit 8,
    needsSt (decide (65536 ≤ 100 * e.at 8 ∧ e.at 8 ≤ 500 * 65536)) .gainLimit 16,
    needsSt (decide (65536 ≤ 100 * e.at 9 ∧ e.at 9 ≤ 10000 * 65536)) .gainLimit 20,
    range (e.at 10) 100 1000000000 24, range (e.at 11) 1 100000 28, needs (decide (e.at 11 < e.at 12)) 32,
    range (e.at 13) 100 60000 36, range (e.at 14) 10 86400 40, range (e.at 15) 60 604800 44 ]

def regulatorSetDef : CmdDef where
  opcode := 0x0B05
  fields := regulatorFields
  mine b := match actionAt 0 b with | none => true | some a => a == 0 || decide (3 ≤ a)
  checks e :=
    let c := regCfgOf e
    regulatorRanges e ++
    [((gainIntervals e.vw c (fun p => (e.vw.time.port p).cfg.logSync)).any (gainTooHigh c), badAt .gainLimit 8)]
  effect e := { stage := [(.instant, .time (.regulator (regCfgOf e)))] }

/-- CMD_REGULATOR action 0 (R298). -/
def execCmdRegulatorSet (r : CmdRef) (b : List Byte) (s : State) : Out := runCmd regulatorSetDef r b s

def regulatorForceDef : CmdDef where
  opcode := 0x0B05
  fields := regulatorFields
  mine b := actionAt 0 b == some 1
  checks e := regulatorRanges e ++ [needsSt (e.s.time.mode == .locked) .timeNotLocked 0]
  effect _ := { stage := [(.instant, .time .forceHoldover)] }

/-- CMD_REGULATOR action 1 (R298): forces HOLDOVER from LOCKED. -/
def execCmdRegulatorForceHoldover (r : CmdRef) (b : List Byte) (s : State) : Out := runCmd regulatorForceDef r b s

def regulatorReleaseDef : CmdDef where
  opcode := 0x0B05
  fields := regulatorFields
  mine b := actionAt 0 b == some 2
  checks := regulatorRanges
  effect _ := { stage := [(.instant, .time .releaseHoldover)] }

/-- CMD_REGULATOR action 2 (R298): leaves HOLDOVER for ACQUIRING at the next measurement. -/
def execCmdRegulatorReleaseHoldover (r : CmdRef) (b : List Byte) (s : State) : Out := runCmd regulatorReleaseDef r b s

def timeSetDef : CmdDef where
  opcode := 0x0B06
  fields := [fT, fD 2 0xFFFF, fRD 2]
  checks e := [ needs (timeOk (e.at 0)) 0, needs (e.vw.stepAllowed e.vw && e.s.stepAllowed e.vw && e.s.time.mode != .locked) 0xFFFF ]
  effect e := { stage := [(.instant, .time (.timeSet (timeOf (e.at 0)) (e.at 1)))] }

/-- CMD_TIME_SET (R285, R306). -/
def execCmdTimeSet (r : CmdRef) (b : List Byte) (s : State) : Out := runCmd timeSetDef r b s

def timeInDef : CmdDef where
  opcode := 0x0B07
  fields := [fN 1, fFD 1 1 0, fRD 2, fD 4 0]
  checks e := [ range (e.at 0) 0 2 0, needsSt (!((e.at 1).testBit 0 && e.at 0 == 0)) .timeNotLocked 1 ]
  effect e := { stage := [(.instant, .time (.timeIn (e.at 0) ((e.at 1).testBit 0) (signed 32 (e.at 2))))] }

/-- CMD_TIME_IN (R300, R306). -/
def execCmdTimeIn (r : CmdRef) (b : List Byte) (s : State) : Out := runCmd timeInDef r b s

/-- Table 13.12. -/
def timeOutFields : List Fld :=
  [fN 1, fN 1, fFD 1 1 1, fRD 1, fD 4 100000, fD 4 0, fD 1 0, fD 1 0, fRD 2, fD 4 0, fTD, fD 4 0]

def timeOutOf (e : Env) : TimeOutCfg :=
  { mode := e.at 1, squelch := (e.at 2).testBit 0, pulseWidth := e.at 3, delay := e.at 4, mirrorKind := e.at 5, gridSlot := e.at 6,
    mirror := e.at 7, instant := timeOf (e.at 8) }

/-- Fields stated as zero for the mode or action given (Table 13.12). -/
def timeOutZero (v : List Nat) : List (Bool × Nat) :=
  [(fv v 1 != 3 && fv v 5 != 0, 12), (fv v 1 != 4 && fv v 8 != 0, 20), (fv v 0 == 0 && fv v 9 != 0, 36)]

/-- Ranges of Table 13.12. -/
def timeOutRanges (e : Env) : List (Bool × Err) :=
  [ range (e.at 0) 0 2 0, range (e.at 1) 1 4 1, (e.at 1 != 2 && !decide (100 ≤ e.at 3 ∧ e.at 3 ≤ 500000000), badAt .badValue 4),
    range (e.at 4) 0 4000000 8, (e.at 1 == 3 && !decide (1 ≤ e.at 5 ∧ e.at 5 ≤ 2), badAt .badValue 12), range (e.at 6) 0 7 13,
    needs (timeOk (e.at 8)) 20 ]

/-- The mirror of mode 3: a bound grid slot of a cluster, or a claimed launch timer (R301). -/
def timeOutMirror (e : Env) : List (Bool × Err) :=
  if e.at 1 = 3 ∧ e.at 5 = 1 then
    [needs ((compileCluster e.vw (clusterNo (e.at 7))).slots.length > e.at 6 ||
            (e.s.esc (clusterNo (e.at 7))).active.slots.length > e.at 6) 13]
  else if e.at 1 = 3 ∧ e.at 5 = 2 then [needs (e.vw.egress.timers.has (e.at 7)) 16]
  else []

/-- Site check of a mirrored cluster. -/
def timeOutSite (e : Env) : List (Bool × Err) :=
  if e.at 1 = 3 ∧ e.at 5 = 1 then e.s.siteChecks (e.at 7) (isMediaCluster (e.at 7)) 16 else []

/-- TRIGGER_PAST (R301): the one-shot instant lies before the packet's effective instant plus 10,000 ns. -/
def timeOutPast (e : Env) : List (Bool × Err) :=
  if e.at 1 = 4 then
    let eff := if e.applyAt = 0 then e.s.now else max e.applyAt e.s.now
    [(decide (timeOf (e.at 8) < eff + ns 10000), badAt .triggerPast 20)]
  else []

def timeOutSetDef : CmdDef where
  opcode := 0x0B08
  fields := timeOutFields
  zero v _ := timeOutZero v
  mine := selects 0 0 3
  checks e := timeOutSite e ++
    (match e.s.vcp.holder .timeOut with | some _ => [(true, heldBy e.s .timeOut 0xFFFF)] | none => []) ++
    timeOutRanges e ++ timeOutMirror e ++ timeOutPast e
  effect e := { result := beBytes 4 e.s.vcp.nextClaim, claims := [(sysTimeOut, .timeOut)],
                stage := [(.instant, .time (.timeOut (timeOutOf e) true))] }

/-- CMD_TIME_OUT action 0 (R301): claims TIME OUT and sets its function. -/
def execCmdTimeOutSet (r : CmdRef) (b : List Byte) (s : State) : Out := runCmd timeOutSetDef r b s

/-- The claim field names the claim that holds TIME OUT (R306). -/
def namesTimeOut (e : Env) : Bool :=
  match e.vw.vcp.holder .timeOut with
  | some c => c.id == e.at 9
  | none => false

def timeOutFreeDef : CmdDef where
  opcode := 0x0B08
  fields := timeOutFields
  zero v _ := timeOutZero v
  mine b := actionAt 0 b == some 1
  checks e := needsSt (namesTimeOut e) .noClaim 36 :: timeOutRanges e
  effect e := { stage := (.instant, .time .timeOutFree) :: e.vw.vcp.release .timeOut }

/-- CMD_TIME_OUT action 1 (R301): frees the claim. -/
def execCmdTimeOutFree (r : CmdRef) (b : List Byte) (s : State) : Out := runCmd timeOutFreeDef r b s

def timeOutChangeDef : CmdDef where
  opcode := 0x0B08
  fields := timeOutFields
  zero v _ := timeOutZero v
  mine b := actionAt 0 b == some 2
  checks e := timeOutSite e ++ [needsSt (namesTimeOut e) .noClaim 36] ++ timeOutRanges e ++ timeOutMirror e ++ timeOutPast e
  effect e := { stage := [(.instant, .time (.timeOut (timeOutOf e) false))] }

/-- CMD_TIME_OUT action 2 (R301): changes the function that is held. -/
def execCmdTimeOutChange (r : CmdRef) (b : List Byte) (s : State) : Out := runCmd timeOutChangeDef r b s

end Sys2Proof.Machine
end

