-- ==== Sys2Proof/Machine/Start.lean ====
section
/-! DEFINITION. Starts, recovery, self-test and the commands of the range 0x0Fxx (17_start_test_security.md).
Corners of starts, tests and trust: DEDUCED, the curve PRESUMED (log entries 45 to 48). -/

namespace Sys2Proof.Machine

/- Stages (Table 17.1). -/

/-- Timeout of a stage in ms. -/
def stageLimit (n : Nat) : Nat :=
  match n with
  | 1 => 2000 | 2 => 500 | 3 => 500 | 4 => 5000 | 5 => 1000 | 6 => 3000 | 7 => 500 | 8 => 1000 | 9 => 3000 | 10 => 4000 | _ => 6000

/-- Clock domains that a stage starts (Tables 1.6 and 17.1). -/
def stageDomains (n : Nat) : List Nat :=
  match n with
  | 3 => [2] | 4 => [3] | 5 => [4, 17] | 6 => [10, 11] | 7 => [8, 9] | 8 => [12, 13, 14] | 9 => [16] | 10 => [5, 6, 7] | _ => []

/-- The stage after n; none after the last (R363, R369). -/
def nextStage (setting : Bool) (n : Nat) : Option Nat :=
  if setting then (match n with | 4 => some 7 | 7 => some 8 | 8 => none | _ => some (n + 1))
  else if n = 11 then none else some (n + 1)

def StartState.part (t : StartState) (p : Nat) : Bool := if p = 0 then t.part0 else t.part1
def StartState.svc (t : StartState) (p : Nat) : Bool := if p = 0 then t.svc0 else t.svc1

/-- The package runs the stage. -/
def StartState.runsStage (t : StartState) (n p : Nat) : Bool := if n ≤ 4 || t.settingStart then t.part p else t.svc p

/-- The site is one on which the stage runs. -/
def StartState.inStage (t : StartState) (n site : Nat) : Bool :=
  siteExists site && (match sitePkg site with | some p => t.runsStage n p | none => true) &&
  (match n with
   | 1 => true
   | 2 => siteKind site == 1 && (siteIndex site == 2 || siteIndex site == 3)
   | 3 => site == sysOcxo || (siteKind site == 1 && siteIndex site == 4)
   | 4 => siteKind site == 1 && decide (8 ≤ siteIndex site)
   | 5 => isIo site || isMediaDie site
   | 6 => isStack site || siteKind site == 6
   | 7 => isPacketCluster site
   | 8 => isPort site || isExtLane site
   | 9 => isIplLane site
   | 10 => (siteMediaDie site).isSome
   | 11 => (siteMediaDie site).isSome || isIo site
   | _ => false)

/-- Package p takes no part in the start, or leaves media service, with the first record of the reason (R367). -/
def StartState.dropPart (t : StartState) (p : Nat) (r : FailRec) : StartState :=
  if p = 0 then { t with part0 := false, svc0 := false, pkgRec0 := t.pkgRec0.or (some r) }
  else { t with part1 := false, svc1 := false, pkgRec1 := t.pkgRec1.or (some r) }
def StartState.dropSvc (t : StartState) (p : Nat) (r : FailRec) : StartState :=
  if p = 0 then { t with svc0 := false, pkgRec0 := t.pkgRec0.or (some r) }
  else { t with svc1 := false, pkgRec1 := t.pkgRec1.or (some r) }

/-- Table 17.2 for one failing site. In a setting-mode start a package must pass stages 7 and 8 to answer. -/
def StartState.fail (t : StartState) (n site cause detail : Nat) : StartState :=
  let r : FailRec := { stage := n, cause := cause, kind := b2n t.settingStart, site := site, detail := detail, atS := secOf t.balance }
  let p := (sitePkg site).getD 0
  match siteMediaDie site with
  | some d =>
    let x := t.dies.getD d {}
    { t with dies := t.dies.put d { x with failRec := x.failRec.or (some r) } }
  | none =>
    if n ≤ 3 then t.dropPart p r
    else if n = 4 then
      let t1 := { t with coreFails := t.coreFails ++ [4 * p + (siteIndex site - 8)] }
      if (List.range 4).all (fun k => t1.coreFails.contains (4 * p + k)) then t1.dropPart p r
      else if t1.settingStart then t1 else t1.dropSvc p r
    else if n = 9 then t.dropSvc 1 r
    else if t.settingStart then t.dropPart p r
    else t.dropSvc p r

/-- A package whose four media dies all are fenced leaves media service (Table 17.2). -/
def StartState.diesGone (t : StartState) (p : Nat) : StartState :=
  let recs := (List.range 4).map (fun j => (t.dies.getD (4 * p + j) {}).failRec)
  match recs with
  | [some _, some _, some _, some r] => t.dropSvc p r
  | _ => t

/-- Failures that the module itself finds: no valid settings block (stage 2), no valid image (stage 4). -/
def StartState.found (t : StartState) (n : Nat) : List (Nat × Nat × Nat) :=
  let ps := [0, 1].filter (fun p => t.part p)
  match n with
  | 2 => (ps.filter (fun p => !(t.otp p).settings.any (fun g => g.2.valid))).map
      (fun p => (otpSite p, 5, sumN ((t.otp p).settings.keys.map (fun g => 2 ^ (g - 1)))))
  | 4 => (ps.filter (fun p => (chooseImage (t.fw p) p t.floor).isNone)).flatMap
      (fun p => (List.range 4).map (fun k => (ccSite p k, 4, imageDetail (t.fw p) p t.floor)))
  | _ => []

/-- Stage 4 ends: each package runs its image, and a second version on P1 is a failure there (R380). -/
def StartState.runImages (t : StartState) : StartState :=
  let one := fun (f : FirmwareStore) (p : Nat) =>
    if t.part p then
      (match chooseImage f p t.floor with | some (k, fb) => { f with running := k, fallback := fb } | none => f)
    else f
  let t1 := { t with fw0 := one t.fw0 0, fw1 := one t.fw1 1 }
  if t1.part0 && t1.part1 && !t1.settingStart && t1.runningVersion 0 != t1.runningVersion 1 then
    t1.dropSvc 1 { stage := 4, cause := 3, site := ccSite 1 0, atS := secOf t1.balance }
  else t1

/-- The record of a start that no package can bring into media service (Table 17.4, cause 8). -/
def StartState.noneLeft (t : StartState) (n : Nat) : FailRec :=
  let bit := fun (p : Nat) =>
    b2n (decide (4 ≤ n) && t.part p && !(List.range 4).any (fun k => t.coreFails.contains (4 * p + k))) * 2 ^ p
  { stage := n, cause := 8, site := sysSite 0, detail := bit 0 + bit 1 }

/-- The shares of the clock domains that a stage starts: on the packages that run it and go on, and on their media dies that have not
failed; a lock that is not reached fails its site (R24). -/
def StartState.stageShares (t : StartState) (n : Nat) : List (Nat × Nat) :=
  let pkgs := [0, 1].filter (fun p => t.runsStage n p)
  let dies := (List.range 8).filter (fun d => t.svc (pkgOfDie d) && (t.dies.getD d {}).failRec.isNone)
  ((stageDomains n).map (domainShares pkgs dies)).flatten

/-- The parts that have failed stop (R25): a media die keeps its domains stopped, and so does a package that leaves media service. -/
def StartState.stopFailed (t : StartState) : StartState :=
  let ds := (List.range 8).filter (fun d => (t.dies.getD d {}).failRec.isSome)
  let ps := [0, 1].filter (fun p => !(if t.settingStart then t.part p else t.svc p))
  ps.foldl StartState.stopPkgClocks (ds.foldl StartState.stopDieClocks t)

/-- The work of a stage that has been done on the packages that run it. -/
def State.stageWork (s : State) (n : Nat) : State :=
  let t := s.start
  match n with
  | 6 =>
    let ks := (List.range 10).filter (fun k => t.svc (stackPkg k) && (t.dies.getD k {}).failRec.isNone)
    ks.foldl (fun (u : State) k => u.startStack k false) s
  | 8 =>
    let s1 := if t.runsStage 8 0 then s.startPort 0 else s
    if t.runsStage 8 1 then s1.startPort 1 else s1
  | 9 => if t.svc0 && t.svc1 then s.trainIpl else s
  | _ => s

/-- The service state of a media die as a start leaves it. -/
def StartState.dieAfter (t : StartState) (d : Nat) : DieState :=
  let r := (t.dies.getD d {}).failRec
  { fenced := r.isSome || !t.svc (pkgOfDie d), failRec := r }

/-- A port of a package that answers acquires its address, and steps up to its mode (R29, R332). -/
def State.openPort (s : State) (p : Nat) : State := if s.pkgUp p then (s.selectMode p).startDhcp p .dhcp6 else s

/-- The start ends in service, or in setting mode (R367, R369). -/
def State.finishStart (s : State) : State :=
  let t := s.start
  let up0 := if t.settingStart then t.part0 else t.svc0
  let up1 := if t.settingStart then t.part1 else t.svc1
  let t1 := { t with run := if t.settingStart then .setting else .service, duration := (t.balance - t.startSince) / ms 1,
                     dies := if t.settingStart then t.dies else (List.range 8).map (fun d => (d, t.dieAfter d)) }
  let s1 := { s with start := t1
                     role := { primary := if up0 then 0 else 1, up0 := up0, up1 := up1, lastTick := s.now, lastBeat := s.now, lastAnswer := s.now } }
  (s1.openPort 0).openPort 1

/-- A stage is over on every site: the start goes on, fails, or ends (R363, R367 to R369). -/
def State.endStage (s : State) (n : Nat) : State :=
  let t0 := if n = 2 then { s.start with settingStart := s.start.settingStart || decide (3 ≤ s.start.recentFails) } else s.start
  let t1 := if n = 4 then t0.runImages else t0
  let t2 := (t1.diesGone 0).diesGone 1
  let t3 := { (t2.startClocks (t2.stageShares n)).stopFailed with stageSince := t2.balance }
  let s1 := { s with start := t3 }
  if t3.settingStart && !t3.part0 && !t3.part1 then
    let s2 := s1.saveCounter.wiped .settingRetry
    { s2 with start := { s2.start with restartAt := t3.balance + sec 60 } }
  else if !t3.settingStart && !t3.svc0 && !t3.svc1 then s1.failedStart (t3.noneLeft n)
  else
    let s2 := s1.stageWork n
    match nextStage t3.settingStart n with
    | some m => { s2 with start := { s2.start with run := .starting m } }
    | none => s2.finishStart

/-- A stage ends with failures on some of its sites. -/
def State.stageFails (s : State) (n : Nat) (fails : List (Nat × Nat × Nat)) : State :=
  let all := (fails.filter (fun f => s.start.inStage n f.1)) ++ s.start.found n
  let whole := all.find? (fun f => n == 1 || f.1 == sysOcxo)
  match whole with
  | some f => s.failedStart { stage := n, cause := f.2.1, site := f.1, detail := f.2.2 }
  | none => ({ s with start := all.foldl (fun (t : StartState) (f : Nat × Nat × Nat) => t.fail n f.1 f.2.1 f.2.2) s.start }).endStage n

/-- The warning and stop thresholds of a sensor (Table 18.3). A stack's warning is HBM_OVERTEMP, which R317 raises. -/
def State.thresholds (s : State) (site : Nat) : Option Int × Option Int :=
  if site = sysSite 0 then (some 86, none)
  else if site = sysPsu then (some 100, some 110)
  else if isStack site then (some 95, some 100)
  else if isIo site || isMediaDie site then (some 100, some 110)
  else if isPort site then (((s.port (siteDie site)).optics).map (·.highWarning), none)
  else (none, none)

/-- Every sensor reads below its warning threshold (R394). -/
def State.coolEnough (s : State) : Bool :=
  s.power.readings.all (fun p => match (s.thresholds p.1).1 with | some w => decide (p.2 < w) | none => true)

/-- MAINS_APPLIED (R363, R365, R398): the balance clocks run from zero and a start begins; the OCXO is warming. -/
def execMainsApplied (dt : Nat) (s0 : State) : Out :=
  let s := s0.advance dt
  if s.start.run == .off then
    let s1 := s.beginStart false
    .next ({ s1 with time := { s1.time with ocxoStable := false, ocxoAlarm := false } }).ocxoEvent
  else .next s

/-- START_STAGE_COMPLETE (R363): the work of the stage is over within its timeout; `fails` lists the sites on which it failed, with
cause and detail (Table 17.4). Stage 1 is over once every sensor reads below its warning threshold. -/
def execStartStageComplete (dt : Nat) (fails : List (Nat × Nat × Nat)) (s0 : State) : Out :=
  let s := s0.advance dt
  match s.start.run with
  | .starting n =>
    if s.start.balance ≤ s.start.stageSince + ms (stageLimit n) ∧ (n ≠ 1 ∨ s.coolEnough = true ∨ fails ≠ []) then .next (s.stageFails n fails)
    else .next s
  | _ => .next s

/-- START_STAGE_TIMEOUT (R363, R367): the timeout has passed on these sites, which fail with cause 1. -/
def execStartStageTimeout (dt : Nat) (sites : List Nat) (s0 : State) : Out :=
  let s := s0.advance dt
  match s.start.run with
  | .starting n =>
    let gone := s.start.balance - s.start.stageSince
    let here := sites.filter (s.start.inStage n)
    if ms (stageLimit n) ≤ gone ∧ here ≠ [] then .next (s.stageFails n (here.map (fun x => (x, 1, gone / ms 1))))
    else .next s
  | _ => .next s

/-- RESTART_DELAY (R368): 5 s after a failed start a new one begins. -/
def execRestartDelay (dt : Nat) (s0 : State) : Out :=
  let s := s0.advance dt
  if s.start.run == .failed && decide (s.start.restartAt ≤ s.start.balance) then .next (s.beginStart false) else .next s

/-- SETTING_MODE_RETRY (R369): a setting-mode start runs every 60 s. -/
def execSettingModeRetry (dt : Nat) (s0 : State) : Out :=
  let s := s0.advance dt
  if s.start.run == .settingRetry && decide (s.start.restartAt ≤ s.start.balance) then .next (s.beginStart true) else .next s

/- Fencing and recovery (R371, R372). -/

/-- DIE_TO_DIE_LINK_FAILURE (R371): the die is fenced with cause 1. -/
def execDieToDieLinkFailure (dt die : Nat) (s0 : State) : Out :=
  let s := s0.advance dt
  if s.serving && decide (die < 8) && s.dieUp die then .next (s.fenceDie die 1) else .next s

/-- DIE_RECOVERY_COMPLETE (R372): the die returns at the first audio beat after the rewrite; where a stage has failed, given by stage,
cause, site and detail, it stays fenced until the next start. -/
def execDieRecoveryComplete (dt die : Nat) (failed : Option (Nat × Nat × Nat × Nat)) (s0 : State) : Out :=
  let s := s0.advance dt
  if s.serving && decide (die < 8) && s.pkgUp (pkgOfDie die) && (s.die die).work == 1 then
    match failed with
    | none => .next (s.restoreDie die 1 (Grid.audio.firstAtOrAfter (s.now + 1)))
    | some (st, cause, site, detail) =>
      let r : FailRec := { stage := st, cause := cause, site := site, detail := detail, atS := secOf s.start.balance }
      .next ((s.modDie die (fun x => { x with work := 0, cause := 2, failRec := some r })).fencedEvent die 2)
  else .next s

/- Background self-test (R373 to R376). -/

/-- Position of a die in its package (R373). -/
def diePlace (d : Nat) : Nat := if d < 8 then d % 4 + 1 else 0

/-- A die or IO die is in service and its self-test enabled. -/
def State.testsRun (s : State) (d : Nat) : Bool :=
  s.serving && decide (d < 10) && !s.start.bistOff.contains d && (if d < 8 then s.dieUp d else s.pkgUp (d - 8))

/-- Kinds of target (Table 17.5). -/
def sliceTarget (s : State) (kind site : Nat) : Bool :=
  siteExists site && (match kind with
   | 1 => isUnit site
   | 2 => isUnit site
   | 3 => isMediaCluster site
   | 4 => true
   | 5 => isStack site
   | 6 => isPacketCluster site
   | 7 => !isLane site || (laneMayQuiet s site && !(s.lane site).quietTx && !(s.lane site).quietRx && (s.lane site).test == 0)
   | _ => false)

/-- The first of the four offsets of a round that a die has not passed. -/
def StartState.startedIn (t : StartState) (d round : Nat) : Nat :=
  match t.sliceRound.find d with | some (r, k) => if r = round then k else 0 | none => 0

/-- The offset of its round, 0 to 3, at which a die may start a slice now (R373). -/
def State.sliceOffset (s : State) (die : Nat) : Option Nat :=
  let round := secOf s.now / 2
  [0, 1, 2, 3].find? (fun k => decide (s.start.startedIn die round ≤ k) && s.now == sec (2 * round) + ms (100 * diePlace die + 10 * k))

/-- The crypto unit of a packet cluster that a slice of kind 6 takes: the first of cu0 to cu2 that stands between messages. -/
def sliceUnit (s : State) (pc : Nat) : Option Nat :=
  let n := 4 * (8 * siteDie pc + siteIndex pc)
  [n, n + 1, n + 2].find? (fun k => ((s.cipher.unit k).workTo s.now).idle)

/-- BIST_SLICE_START (R373, R374): at an offset of its round, a die starts a slice and claims the target. A crypto unit leaves rotation
(Table 17.5). -/
def execBistSliceStart (dt die kind target : Nat) (s0 : State) : Out :=
  let s := s0.advance dt
  let round := secOf s.now / 2
  let k := (s.sliceOffset die).getD 4
  let res : Resource := .bistSlice target
  let cu := if kind = 6 then sliceUnit s target else some 0
  if s.testsRun die && decide (k < 4) && sliceTarget s kind target && testDie target == die &&
      (s.vcp.holder res).isNone && cu.isSome then
    let id := s.vcp.nextClaim
    let u := cu.getD 0
    let s1 := s.takeClaim target 0 0 res
    let s2 := if kind = 6 then s1.setUnit u (s1.cipher.unit u).leave else s1
    let key := testKey target kind
    let old := s2.start.tests.getD key {}
    let t := if old.verdict = 4 then old else { verdict := 4 }
    .next { s2 with start := { s2.start with
      slices := s2.start.slices ++ [{ die := die, kind := kind, target := target, claim := id, started := s2.now, unit := u }]
      sliceRound := s2.start.sliceRound.put die (round, k + 1)
      tests := s2.start.tests.put key t } }
  else .next s

/-- A fault that a slice finds (R376): recorded, reported once per start for each site, address and bit; a repairable one adds a
pending repair. -/
def State.bistFault (s : State) (x : Slice) (count : Nat) (f : Nat × Nat × Nat) : State :=
  let (addr, bit, rep) := f
  let p := if x.die < 8 then pkgOfDie x.die else x.die - 8
  let r : BistFailure := { site := x.target, kind := x.kind, slice := count, repairable := rep != 0, pending := rep != 0, address := addr,
                           bit := bit, found := s.now }
  let keep := fun (l : List BistFailure) => (l ++ [r]).drop (l.length + 1 - 256)
  let t := s.start
  let t1 := if p = 0 then { t with bistFailures0 := keep t.bistFailures0 } else { t with bistFailures1 := keep t.bistFailures1 }
  let fix : Repair := { site := x.target, kind := rep, spare := Config.spareOf x.target (2 * addr) bit % 256,
                        index := Config.spareOf x.target (2 * addr + 1) bit % 65536 }
  let t2 := if rep = 0 then t1
    else if p = 0 then { t1 with pendingRepairs0 := t1.pendingRepairs0 ++ [fix] }
    else { t1 with pendingRepairs1 := t1.pendingRepairs1 ++ [fix] }
  let seen := t.reported.contains (x.target, addr, bit)
  let s1 : State := { s with start := { t2 with reported := if seen then t2.reported else t2.reported ++ [(x.target, addr, bit)] } }
  let s2 := if seen then s1
    else s1.raise (testSource x.die).1 0x0001
      (dCode 88 32 x.target + dCode 80 8 x.kind + dCode 48 32 addr + dCode 32 16 bit + dCode 24 8 (b2n (rep != 0))) (testSource x.die).2
  if rep = 0 then s2
  else s2.raise 194 0x0002 (dCode 112 8 p + dBits 96 16 (s2.start.pendingRepairs p).length)

/-- The verdict of a test that has ended (R375). -/
def testVerdict (failures count plan sig expected : Nat) : Nat :=
  if 0 < failures then 2 else if count ≠ plan then 3 else if sig ≠ expected then 2 else 1

/-- A test ends after its last slice (R375, R385). -/
def State.testEnds (s : State) (x : Slice) (t : BistTest) : State :=
  let plan := slicePlan x.kind
  let v := testVerdict t.failures t.count plan t.sig (Config.bistExpected (siteSort x.target) x.kind)
  let u := s.start
  let u1 := { u with tests := u.tests.put (testKey x.target x.kind) { t with verdict := v } }
  let u2 := match v with
    | 1 => { u1 with bistPass := u1.bistPass + 1 }
    | 2 => { u1 with bistFail := u1.bistFail + 1 }
    | _ => { u1 with bistIncomplete := u1.bistIncomplete + 1 }
  let s1 : State := { s with start := u2 }
  if v = 1 then s1 else s1.verdictEvent x.die x.target v t.count plan false

/-- The signature folds in the count (R375): CRC-32 of the misr and the count, from the running value. -/
def foldSig (sig misr count : Nat) : Nat :=
  ((beBytes 4 misr ++ beBytes 2 count).map (·.toNat)).foldl crcByte sig ^^^ 0xFFFFFFFF

/-- BIST_SLICE_END (R375, R376): a slice ends, its claim is released, its signature folded. A slice of a unit ends once a window has run it;
one that no window has run by the end of its round ends uncounted, since each slice ends before the next round (R373).
`faults` gives address, bit, and 1 to 3 for the repair that fits (Table 17.5), 0 for none. -/
def execBistSliceEnd (dt die target misr : Nat) (faults : List (Nat × Nat × Nat)) (s0 : State) : Out :=
  let s := s0.advance dt
  match s.start.slices.find? (fun x => x.die == die && x.target == target) with
  | none => .next s
  | some x =>
    let s0 := s.dropClaim x.claim
    let s1 : State := { s0 with start := { s0.start with slices := s0.start.slices.filter (fun y => y.claim != x.claim) } }
    if (x.kind = 1 ∨ x.kind = 2) ∧ x.ran = false then .next (if secOf x.started / 2 < secOf s.now / 2 then s1 else s)
    else
      let key := testKey x.target x.kind
      let old := s.start.tests.getD key {}
      let count := old.count + 1
      let t : BistTest := { old with sig := foldSig old.sig misr count, count := count, failures := old.failures + faults.length }
      let s2 : State := { s1 with start := { s1.start with tests := s1.start.tests.put key t } }
      let s3 := if x.kind = 6 then s2.setUnit x.unit ((s2.cipher.unit x.unit).return_ s2.now) else s2
      let s4 := faults.foldl (fun (u : State) f => u.bistFault x count f) s3
      .next (if slicePlan x.kind ≤ count then s4.testEnds x t else s4)

/-- ON_COMMAND_TEST_COMPLETE (R377, R385): with every verdict PASS the die starts by stages 10 and 11 and returns to service, its stack
emptied by the test; otherwise it stays fenced. -/
def execOnCommandTestComplete (dt die done failures : Nat) (sigOk restartOk : Bool) (s0 : State) : Out :=
  let s := s0.advance dt
  if s.serving && decide (die < 8) && s.pkgUp (pkgOfDie die) && (s.die die).work == 2 then
    let v := testVerdict failures done Config.testPlan (b2n sigOk) 1
    let s1 := (s.endTest die v done failures).clearStack die
    .next (if v = 1 ∧ restartOk = true then s1.restoreDie die 2 s1.now else s1)
  else .next s

/-- JUMPER (R384, R385). -/
def execJumper (dt : Nat) (fitted : Bool) (s0 : State) : Out :=
  let s := s0.advance dt
  let s1 := { s with start := { s.start with jumper := fitted } }
  .next (s1.raiseIf (s.live && s.start.jumper != fitted) 196 0x0001 (dCode 112 8 (b2n fitted)))

/- Commands. -/

/-- A record of Table 17.11, 16 bytes. -/
def FailRec.bytes (r : FailRec) : List Byte :=
  beBytes 1 r.stage ++ beBytes 1 r.cause ++ zeros 2 ++ beBytes 4 r.site ++ beBytes 4 r.detail ++ zeros 4
def recBytes (r : Option FailRec) : List Byte := match r with | some x => x.bytes | none => zeros 16

/-- A failed-start record of Table 17.11. -/
def FailRec.failBytes (r : FailRec) : List Byte :=
  beBytes 1 r.stage ++ beBytes 1 r.cause ++ beBytes 1 r.kind ++ zeros 1 ++ beBytes 4 r.site ++ beBytes 4 r.detail ++ beBytes 4 r.atS

def StartState.pkgRec (t : StartState) (p : Nat) : Option FailRec := if p = 0 then t.pkgRec0 else t.pkgRec1

/-- The fence record of a die: its own, or that of its package when that is out of media service. -/
def State.fenceRec (s : State) (d : Nat) : Option FailRec :=
  if s.dieUp d then none
  else match (s.die d).failRec with
    | some r => some r
    | none => if s.serving && !s.pkgUp (pkgOfDie d) then s.start.pkgRec (pkgOfDie d) else none

def State.packageBits (s : State) : Nat := if s.serving then b2n s.role.up0 + 2 * b2n s.role.up1 else 0

/-- Table 17.11. -/
def startReport (s : State) : List Byte :=
  let t := s.start
  beBytes 1 (b2n s.inSetting) ++ beBytes 1 s.role.primary ++ beBytes 1 s.packageBits ++ beBytes 1 s.fencedBits ++
  beBytes 1 (sat 8 t.recentFails) ++ beBytes 1 t.failures.length ++ zeros 2 ++ beBytes 4 t.duration ++ beBytes 4 t.totalFailed ++
  ((List.range 8).map (fun d => recBytes (s.fenceRec d))).flatten ++
  ([0, 1].map (fun p => recBytes (if s.pkgUp p then none else t.pkgRec p))).flatten ++
  (t.failures.map FailRec.failBytes).flatten

/-- CMD_START_REPORT (R365). -/
def startReportDef : CmdDef where
  opcode := 0x0F01
  reads := true
  setting := true
  effect := fun e => { result := startReport e.s }

def execCmdStartReport (r : CmdRef) (b : List Byte) (s : State) : Out := runCmd startReportDef r b s

/-- A media die that a command names whether or not it is fenced. -/
def ownDieChecks (e : Env) (site off : Nat) : List (Bool × Err) :=
  [(!isMediaDie site, badSite .badSite off site), (!e.s.pkgUp (pkgOfDie (siteDie site)), badSite .siteFenced off site)]

/-- A die is under on-command test, from the command that starts it. -/
def State.underTest (s : State) (d : Nat) : Bool := (s.vcp.holder (.onCommandTest d)).isSome

/-- CMD_RESET: kind, site. -/
def resetFields : List Fld := [fN 1, fR 3, fN 4]

def resetDef (kind : Nat) (setting : Bool) (site : Env → List (Bool × Err)) (change : Env → StartChange) : CmdDef where
  opcode := 0x0F02
  setting := setting
  fields := resetFields
  mine := selects 0 kind 3
  checks := fun e => site e ++ [range (e.at 0) 0 2 0]
  effect := fun e => { stage := [(.afterSent, .start (change e))] }

/-- Kinds 0 and 2 name no site. -/
def noSiteCheck (e : Env) : List (Bool × Err) := [(e.at 0 != 1 && e.at 1 != noSite, badSite .badSite 4 (e.at 1))]

def resetRestartDef : CmdDef := resetDef 0 true noSiteCheck (fun _ => .restart false)

/-- CMD_RESET kind 0 (R363, R370). -/
def execCmdResetRestart (r : CmdRef) (b : List Byte) (s : State) : Out := runCmd resetRestartDef r b s

def resetRecoverDieDef : CmdDef := resetDef 1 false
    (fun e => ownDieChecks e (e.at 1) 4 ++ [needsSt (!e.vw.underTest (siteDie (e.at 1))) .testRunning 4])
    (fun e => .recover (siteDie (e.at 1)))

/-- CMD_RESET kind 1 (R372, R387). -/
def execCmdResetRecoverDie (r : CmdRef) (b : List Byte) (s : State) : Out := runCmd resetRecoverDieDef r b s

def resetClearDef : CmdDef := resetDef 2 true noSiteCheck (fun _ => .restart true)

/-- CMD_RESET kind 2 (R368, R370). -/
def execCmdResetClearRestart (r : CmdRef) (b : List Byte) (s : State) : Out := runCmd resetClearDef r b s

/-- CMD_IDENTITY (R382). -/
def identityDef : CmdDef where
  opcode := 0x0F03
  reads := true
  setting := true
  fields := [fD 2 0, fD 2 1024]
  checks := fun e => [range (e.at 1) 1 1024 2]
  effect := fun e => { result := beBytes 8 Config.serial.toNat ++ beBytes 2 Config.identityCert.length ++ zeros 2 ++
                                 (Config.identityCert.drop (e.at 0)).take (e.at 1) }

def execCmdIdentity (r : CmdRef) (b : List Byte) (s : State) : Out := runCmd identityDef r b s

/-- Bytes 0 to 255 of the attestation report (Table 17.9). -/
def attestBody (s : State) (nonce : List Byte) : List Byte :=
  let t := s.start
  let (gen, digest) := match t.settings with
    | some (g, x) => (g, beNat (sha384 (x.bytes g)))
    | none => (0, 0)
  beBytes 4 0x56415231 ++ beBytes 2 1 ++ beBytes 2 352 ++ nonce ++ timeBytes s.now ++ beBytes 8 Config.serial.toNat ++
  beBytes 1 (b2n s.inSetting) ++ beBytes 1 s.role.primary ++ beBytes 1 s.fencedBits ++ beBytes 1 s.time.mode.code ++
  beBytes 1 gen ++ beBytes 1 (max t.otp0.repairGen t.otp1.repairGen) ++ beBytes 1 (sat 8 t.recentFails) ++ zeros 1 ++
  beBytes 4 (t.runningVersion 0) ++ beBytes 4 (t.runningVersion 1) ++ beBytes 48 (t.runningDigest 0) ++
  beBytes 48 (t.runningDigest 1) ++ beBytes 48 digest ++ beBytes 4 t.bistPass ++ beBytes 4 t.bistFail ++ beBytes 4 t.bistIncomplete ++
  zeros 4 ++ beBytes 4 s.videoLegs ++ beBytes 4 s.audioLegs ++ beBytes 4 s.taskSlots ++ zeros 4

/-- CMD_ATTEST (R383). -/
def attestDef : CmdDef where
  opcode := 0x0F04
  reads := true
  setting := true
  fields := [fN 32]
  effect := fun e =>
    let body := attestBody e.s (beBytes 32 (e.at 0))
    { result := body ++ beBytes 96 (identitySign (sha384 body)) }

def execCmdAttest (r : CmdRef) (b : List Byte) (s : State) : Out := runCmd attestDef r b s

/-- CMD_FIRMWARE_WRITE (R381): the write lies in the slot. -/
def firmwareWriteDef : CmdDef where
  opcode := 0x0F05
  setting := true
  fields := [fN 4, fN 2, fR 2]
  tail := some (fun v => fv v 1)
  checks := fun e => [needs (e.at 0 % 16 == 0 && decide (e.at 0 + e.at 1 ≤ slotBytes)) 0, range (e.at 1) 16 1024 4, needs (e.at 1 % 16 == 0) 4]
  effect := fun e => { stage := [(.instant, .start (.firmwareWrite (e.at 0) e.tail))] }

def execCmdFirmwareWrite (r : CmdRef) (b : List Byte) (s : State) : Out := runCmd firmwareWriteDef r b s

/-- The slot of a package that is not preferred. -/
def FirmwareStore.spareSlot (f : FirmwareStore) : Nat := 1 - f.preferred

/-- CMD_FIRMWARE_COMMIT (R381, R387). -/
def firmwareCommitDef : CmdDef where
  opcode := 0x0F06
  setting := true
  fields := [fN 4]
  checks := fun e =>
    let t := e.vw.start
    let k0 := t.fw0.spareSlot
    let k1 := t.fw1.spareSlot
    let x0 := t.fw0.slot k0
    let x1 := t.fw1.slot k1
    [ needsSt (e.at 0 == 176 + x0.bodyLength 0 k0) .badLength 0
    , needsSt (x0.signed_ 0 k0 && x1.signed_ 1 k1) .imageSignature 0xFFFF
    , needsSt (decide (t.floor ≤ x0.version 0 k0) && decide (t.floor ≤ x1.version 1 k1)) .imageRollback 0xFFFF ]
  effect := fun e =>
    let t := e.vw.start
    let k := t.fw0.spareSlot
    { result := beBytes 4 ((t.fw0.slot k).version 0 k) ++ beBytes 1 k ++ zeros 3, stage := [(.instant, .start (.firmwareCommit k))] }

def execCmdFirmwareCommit (r : CmdRef) (b : List Byte) (s : State) : Out := runCmd firmwareCommitDef r b s

def firmwareStatus (t : StartState) (p : Nat) : List Byte :=
  let f := t.fw p
  beBytes 1 f.running ++ beBytes 1 f.preferred ++ beBytes 1 (b2n f.fallback) ++
  beBytes 1 (b2n (f.slot0.valid p 0 t.floor) + 2 * b2n (f.slot1.valid p 1 t.floor)) ++ beBytes 4 (f.slot0.version p 0) ++
  beBytes 4 (f.slot1.version p 1) ++ zeros 4

/-- CMD_FIRMWARE_STATUS (R380). -/
def firmwareStatusDef : CmdDef where
  opcode := 0x0F07
  reads := true
  setting := true
  effect := fun e => { result := firmwareStatus e.s.start 0 ++ firmwareStatus e.s.start 1 }

def execCmdFirmwareStatus (r : CmdRef) (b : List Byte) (s : State) : Out := runCmd firmwareStatusDef r b s

/-- Bytes of an area of OTP (Table 17.6). -/
def otpAreaSize (area : Nat) : Nat := match area with | 1 => 5888 | 2 => 2048 | _ => 4096

/-- One byte of an area of a package's block. What is not programmed, or has failed, is not given. -/
def otpByteAt (t : StartState) (p area off : Nat) : Byte :=
  match area with
  | 1 => Config.factoryByte p off
  | 2 =>
    let g := off / 512 + 1
    (match ((t.otp p).settings.find g).filter (·.valid) with
     | some x => (x.bytes g).getD (off % 512) 0
     | none => Config.otpByte p 2 off)
  | _ =>
    let g := off / 1024 + 1
    (match ((t.otp p).repairs.find g).filter (·.valid) with
     | some x => (x.bytes g).getD (off % 1024) 0
     | none => Config.otpByte p 3 off)

/-- CMD_OTP_READ (R378, R387). -/
def otpReadDef : CmdDef where
  opcode := 0x0F08
  reads := true
  setting := true
  fields := [fN 1, fN 1, fN 2, fN 2, fR 2]
  checks := fun e =>
    [ range (e.at 0) 0 1 0, range (e.at 1) 1 3 1, range (e.at 3) 4 1024 4, needs (e.at 3 % 4 == 0) 4
    , needsSt (decide (e.at 2 + e.at 3 ≤ otpAreaSize (e.at 1))) .badAddress 2 ]
  effect := fun e => { result := (List.range (e.at 3)).map (fun i => otpByteAt e.s.start (e.at 0) (e.at 1) (e.at 2 + i)) }

def execCmdOtpRead (r : CmdRef) (b : List Byte) (s : State) : Out := runCmd otpReadDef r b s

/-- The key entries of a block (Table 17.7), as numbers of 832 bits. -/
def keyEntries (b : List Byte) : List Nat := (chunks 104 4 b).map beNat

/-- The point of a key entry. -/
def keyPoint (k : Nat) : Nat := k % 2 ^ 768

/-- Reserved bits of the key entries, by offset in the block (R49). -/
def keyZeros (tl : List Byte) : List (Bool × Nat) :=
  ((List.range (tl.length / 104)).zip (keyEntries tl)).map (fun p => (p.2 / 2 ^ 768 % 2 ^ 32 != 0, 8 + 104 * p.1 + 4))

/-- Table 17.12. -/
def otpWriteFields : List Fld := [fN 1, fN 1, fR 2, fN 4]

/-- The key that signed the sending session's certificate is among the entries (R387). -/
def keepsSender (e : Env) (ks : List Nat) : Bool :=
  match e.s.vcp.session e.session with
  | some x => ks.any (fun k => keyPoint k == x.certKey)
  | none => false

/-- The preferred image's version of each package. -/
def preferredVersion (t : StartState) (p : Nat) : Nat := let f := t.fw p; (f.slot f.preferred).version p f.preferred

/-- CMD_OTP_WRITE area 2 (R378, R387). -/
def otpWriteSettingsDef : CmdDef where
  opcode := 0x0F09
  fields := otpWriteFields
  tail := some (fun v => 104 * fv v 1)
  zero := fun _ tl => keyZeros tl
  mine := fun b => actionAt 0 b != some 3
  checks := fun e =>
    let t := e.vw.start
    let ks := keyEntries e.tail
    [ range (e.at 0) 2 3 0, range (e.at 1) 1 4 1
    , needs (decide (t.floor ≤ e.at 2) && decide (e.at 2 ≤ preferredVersion t 0) && decide (e.at 2 ≤ preferredVersion t 1)) 4
    , needs (ks.all (fun k => onCurve (keyPoint k))) 8
    , needs (keepsSender e ks) 8
    , needsSt (decide (t.nextSettings ≤ 4)) .otpExhausted 0xFFFF ]
  effect := fun e =>
    { result := beBytes 1 e.vw.start.nextSettings ++ zeros 3,
      stage := [(.afterSent, .start (.otpSettings { minFirmware := e.at 2, keys := keyEntries e.tail }))] }

def execCmdOtpWriteSettings (r : CmdRef) (b : List Byte) (s : State) : Out := runCmd otpWriteSettingsDef r b s

/-- CMD_OTP_WRITE area 3 (R379, R387). -/
def otpWriteRepairsDef : CmdDef where
  opcode := 0x0F09
  fields := otpWriteFields
  tail := some (fun _ => 0)
  mine := fun b => actionAt 0 b == some 3
  checks := fun e =>
    let t := e.vw.start
    [ needs (e.at 1 == 0) 1, needs (e.at 2 == 0) 4
    , needs (!t.pendingRepairs0.isEmpty || !t.pendingRepairs1.isEmpty) 0
    , needsSt (decide (t.nextRepairs ≤ 4)) .otpExhausted 0xFFFF ]
  effect := fun e => { result := beBytes 1 e.vw.start.nextRepairs ++ zeros 3, stage := [(.afterSent, .start .otpRepairs)] }

def execCmdOtpWriteRepairs (r : CmdRef) (b : List Byte) (s : State) : Out := runCmd otpWriteRepairsDef r b s

/-- CMD_BIST_CONTROL (R375, R387): a die under on-command test is answered as such, not as fenced. -/
def bistControlDef : CmdDef where
  opcode := 0x0F0A
  fields := [fN 4, fN 1, fR 3]
  checks := fun e =>
    let c := e.at 0
    [ (!(isMediaDie c || isIo c), badSite .badSite 0 c)
    , needsSt (!(isMediaDie c && e.vw.underTest (siteDie c))) .testRunning 0
    , (!e.s.siteUp c, badSite .siteFenced 0 c), range (e.at 1) 0 1 4 ]
  effect := fun e => { stage := [(.instant, .start (.bist (e.at 0) (e.at 1 == 1)))] }

def execCmdBistControl (r : CmdRef) (b : List Byte) (s : State) : Out := runCmd bistControlDef r b s

def BistFailure.bytes (f : BistFailure) : List Byte :=
  beBytes 4 f.site ++ beBytes 1 f.kind ++ beBytes 1 f.slice ++ beBytes 1 (b2n f.repairable + 2 * b2n f.pending) ++ zeros 1 ++
  beBytes 4 f.address ++ beBytes 2 f.bit ++ zeros 2 ++ timeBytes f.found

def verdictBytes (p : Nat × BistTest) : List Byte :=
  beBytes 4 (p.1 / 8) ++ beBytes 1 p.2.verdict ++ zeros 1 ++ beBytes 2 p.2.count ++ beBytes 2 (slicePlan (p.1 % 8)) ++ zeros 2 ++
  beBytes 4 p.2.sig

/-- CMD_BIST_RESULTS (R376). -/
def bistResultsDef : CmdDef where
  opcode := 0x0F0B
  reads := true
  setting := true
  fields := [fN 4, fN 1, fR 1, fD 2 0]
  checks := fun e =>
    let c := e.at 0
    (if c = noSite then [] else e.s.siteChecks c (isMediaDie c || isIo c) 0) ++ [range (e.at 1) 0 1 4]
  effect := fun e =>
    let here := fun (site : Nat) => e.at 0 == noSite || testDie site == testDie (e.at 0)
    let t := e.s.start
    let fs := (t.bistFailures0 ++ t.bistFailures1).filter (fun f => here f.site)
    let vs := t.tests.filter (fun p => here (p.1 / 8))
    { result :=
        if e.at 1 = 0 then
          beBytes 2 (page fs (e.at 2) 32).length ++ beBytes 2 (pageRest fs (e.at 2) 32) ++ ((page fs (e.at 2) 32).map BistFailure.bytes).flatten
        else beBytes 2 (page vs (e.at 2) 64).length ++ beBytes 2 (pageRest vs (e.at 2) 64) ++ ((page vs (e.at 2) 64).map verdictBytes).flatten }

def execCmdBistResults (r : CmdRef) (b : List Byte) (s : State) : Out := runCmd bistResultsDef r b s

/-- Any object of the configuration lives on a die (R377). -/
def State.dieHolds (s : State) (d : Nat) : Bool :=
  s.mem.buffers.any (fun p => handleStack p.1 == d) ||
  s.video.outputs.any (fun p => siteDie p.2.cfg.unit == d) ||
  s.audio.legs.any (fun p => legDie p.1 == d) ||
  !(s.xp d).nodes.isEmpty || !(s.xp d).groups.isEmpty ||
  s.audio.ties.any (fun t => t.srcDie == d || t.dstDie == d)

/-- The result block of CMD_TEST_RUN. -/
def testResult (state verdict done plan failures : Nat) : List Byte :=
  beBytes 1 state ++ beBytes 1 verdict ++ beBytes 2 done ++ beBytes 2 plan ++ zeros 2 ++ beBytes 4 failures

/-- What an on-command test has reached. -/
def State.testNow (s : State) (d : Nat) : List Byte :=
  let x := s.die d
  match x.testState with
  | 0 => testResult 0 0 0 0 0
  | 1 => testResult 1 4 (Config.testProgress d s.now) Config.testPlan (Config.testFound d s.now)
  | _ => testResult 2 x.testVerdict x.testDone Config.testPlan x.testFailures

def testRunFields : List Fld := [fN 4, fN 1, fR 3]

def testRunDef (action : Nat) (own : Env → List (Bool × Err)) (out : Env → CmdOut) : CmdDef where
  opcode := 0x0F0C
  fields := testRunFields
  mine := selects 4 action 3
  checks := fun e => ownDieChecks e (e.at 0) 0 ++ [range (e.at 1) 0 2 4] ++ own e
  effect := out

def testRunStartDef : CmdDef := testRunDef 0
    (fun e =>
      let d := siteDie (e.at 0)
      [ needsSt (!e.vw.underTest d) .testRunning 0, (!e.s.dieUp d, badSite .siteFenced 0 (e.at 0)), needs (!e.vw.dieHolds d) 0 ])
    (fun e =>
      let d := siteDie (e.at 0)
      { result := testResult 1 4 0 Config.testPlan 0, stage := [(.instant, .start (.testStart d))], claims := [(dieSite d, .onCommandTest d)] })

/-- CMD_TEST_RUN action 0 (R377, R387). -/
def execCmdTestRunStart (r : CmdRef) (b : List Byte) (s : State) : Out := runCmd testRunStartDef r b s

def testRunStatusDef : CmdDef :=
  { testRunDef 1 (fun _ => []) (fun e => { result := e.s.testNow (siteDie (e.at 0)) }) with reads := true }

/-- CMD_TEST_RUN action 1 (R377). -/
def execCmdTestRunStatus (r : CmdRef) (b : List Byte) (s : State) : Out := runCmd testRunStatusDef r b s

def testRunAbortDef : CmdDef := testRunDef 2 (fun _ => [])
    (fun e =>
      let d := siteDie (e.at 0)
      { result := (e.s.abortTest d).testNow d, stage := [(.instant, .start (.testAbort d))] })

/-- CMD_TEST_RUN action 2 (R377). -/
def execCmdTestRunAbort (r : CmdRef) (b : List Byte) (s : State) : Out := runCmd testRunAbortDef r b s

/-- Dies that staged commands will fence. -/
def State.stagedFences (s : State) : List Nat :=
  s.staged.filterMap (fun x => match x.change with | .start (.fence d) => some d | .start (.testStart d) => some d | _ => none)

/-- CMD_DIE_FENCE (R371, R387). -/
def dieFenceDef : CmdDef where
  opcode := 0x0F0D
  fields := [fN 4]
  checks := fun e =>
    e.s.siteChecks (e.at 0) (isMediaDie (e.at 0)) 0 ++
    [needs ((List.range 8).any (fun d => e.s.dieUp d && d != siteDie (e.at 0) && !e.s.stagedFences.contains d)) 0]
  effect := fun e => { stage := [(.instant, .start (.fence (siteDie (e.at 0))))] }

def execCmdDieFence (r : CmdRef) (b : List Byte) (s : State) : Out := runCmd dieFenceDef r b s

/-- CMD_TEST_UNLOCK (R384, R387). -/
def testUnlockDef : CmdDef where
  opcode := 0x0F0E
  setting := true
  checks := fun e => [needsSt e.s.start.jumper .unlockRefused 0xFFFF]
  effect := fun _ => { stage := [(.afterSent, .start .unlock)] }

def execCmdTestUnlock (r : CmdRef) (b : List Byte) (s : State) : Out := runCmd testUnlockDef r b s

end Sys2Proof.Machine
end

