-- ==== Sys2Proof/Machine/Power.lean ====
section
/-! DEFINITION. Supply, fans and the thermal loop (18_power_and_mechanics.md).
Corners of supply and cooling: DEDUCED (log entry 49). -/

namespace Sys2Proof.Machine

/- Mains (R388, R389). -/

/-- Hold-up, and how long the standby rail stays up without input (R388, R389). -/
def holdUp : Nat := ms 20
def standbyHold : Nat := sec 2

/-- MAINS_INTERRUPTION (R389): the input falls below 75 V or is interrupted; the hold-up begins. -/
def execMainsInterruption (dt : Nat) (s0 : State) : Out :=
  let s := s0.advance dt
  if s.start.run != .off && s.power.interrupted.isNone then .next { s with power := { s.power with interrupted := some s.start.balance } }
  else .next s

/-- HOLD_UP_EXPIRY (R389): the outputs leave regulation and every domain except 1 stops; the standby rail stays up. -/
def execHoldUpExpiry (dt : Nat) (s0 : State) : Out :=
  let s := s0.advance dt
  match s.power.interrupted with
  | some t =>
    if s.power.outputLost.isNone && decide (t + holdUp < s.start.balance) then
      let s1 := s.saveCounter.wiped .standby
      .next { s1 with power := { s1.power with outputLost := some s.start.balance } }
    else .next s
  | none => .next s

/-- MAINS_RESTORED (R389): within the hold-up an interruption has had no effect; after the loss of the outputs, while the standby rail is
up, it counts as a failed start at stage 1. -/
def execMainsRestored (dt : Nat) (s0 : State) : Out :=
  let s := s0.advance dt
  if s.power.interrupted.isNone then .next s
  else
    let s1 : State := { s with power := { s.power with interrupted := none, outputLost := none } }
    if s.start.run == .standby then
      -- the counter stopped when the outputs were lost, and stays saved
      let s2 := s1.failedStart { stage := 1, cause := 1, site := sysPsu }
      .next { s2 with time := { s2.time with savedCounter := s.time.savedCounter, savedAt := s.time.savedAt } }
    else .next s1

/-- STANDBY_RAIL_DROP (R368, R370, R384, R389): the rail drops 2 s after the loss of the outputs; this is a removal of mains. OTP and the
firmware store keep their contents, and the key read path opens again. -/
def execStandbyRailDrop (dt : Nat) (s0 : State) : Out :=
  let s := s0.advance dt
  match s.power.outputLost with
  | some t =>
    if s.start.run == .standby && decide (t + standbyHold ≤ s.start.balance) then
      let u := s.start
      .next { pending := s.pending
              vcp := { draws := s.vcp.draws }
              start := { otp0 := { u.otp0 with keyPath := true }, otp1 := { u.otp1 with keyPath := true }, fw0 := u.fw0, fw1 := u.fw1,
                         jumper := u.jumper }
              ports := { portA := { optics := s.ports.portA.optics.map Optics.kept }, portB := { optics := s.ports.portB.optics.map Optics.kept } }
              power := { fansFailed := s.power.fansFailed } }
    else .next s
  | none => .next s

/-- The input voltage, in 0.1 V, is one at which the supply unit reports the state (R388, R389): 1 low, 0 within range. -/
def psuInputFits (state decivolts : Nat) : Bool :=
  match state with
  | 0 => decide (850 ≤ decivolts ∧ decivolts ≤ 2650)
  | 1 => decide (750 ≤ decivolts ∧ decivolts < 850)
  | _ => false

/-- PSU_INPUT (R389, R398): state 1 when the input has stayed between 75 and 85 V for more than 1 s, 0 when it returns within range. -/
def execPsuInput (dt state decivolts : Nat) (s0 : State) : Out :=
  let s := s0.advance dt
  if s.merging && psuInputFits state decivolts && s.power.lowRaised != (state == 1) then
    .next (({ s with power := { s.power with lowRaised := state == 1 } }).raise 1 0x0001 (dCode 112 8 state + dBits 96 16 decivolts))
  else .next s

/-- PSU_FAULT (R398, Table 18.8): an output faults; cause 1 over-current, 2 over-temperature, 3 out of regulation. -/
def execPsuFault (dt output cause : Nat) (s0 : State) : Out :=
  let s := s0.advance dt
  if s.merging && decide (1 ≤ cause ∧ cause ≤ 3) then
    .next (({ s with power := { s.power with psuFault := some (output, cause) } }).raise 1 0x0002 (dCode 112 8 output + dCode 104 8 cause))
  else .next s

/- Cooling (R391 to R394). -/

/-- The straight line between two rows of Table 18.2, in 0.1 m³/h. -/
def airLine (t t0 a0 perDegree : Int) : Nat := (a0 + (t - t0) * perDegree).toNat

/-- Airflow that Table 18.2 requires at an inlet temperature, in 0.1 m³/h. -/
def airflow (t : Int) : Nat :=
  if t ≤ 25 then 1100
  else if t ≤ 35 then airLine t 25 1100 30
  else if t ≤ 45 then airLine t 35 1400 30
  else if t ≤ 55 then airLine t 45 1700 35
  else if t ≤ 65 then airLine t 55 2050 40
  else if t ≤ 75 then airLine t 65 2450 45
  else airLine t 75 2900 50

/-- The speed that the loop chooses (R392, R393, R394). -/
def State.fanSpeed (s : State) : Nat :=
  if s.power.fansFull || !s.power.fansFailed.isEmpty then Config.fanFull
  else max (Config.fanRpm (airflow (s.power.readings.getD (sysSite 0) 25))) (Config.fanNeed s.power.readings)

/-- THERMAL_WARNING and THERMAL_CLEAR of one reading (R394). -/
def State.thermalReading (s : State) (site : Nat) (t : Int) : State :=
  let p := s.power
  let (warn, stop) := s.thresholds site
  let hot := match stop with | some x => decide (x ≤ t) | none => false
  let since := if hot then (if p.stopSince.has site then p.stopSince else p.stopSince.put site s.now) else p.stopSince.del site
  let s1 : State := { s with power := { p with readings := p.readings.put site t, stopSince := since } }
  if isStack site then s1
  else match warn with
    | none => s1
    | some w =>
      let was := p.warned.contains site
      let data := dCode 88 32 site + dInt 80 8 t
      if !was && decide (w ≤ t) then ({ s1 with power := { s1.power with warned := p.warned ++ [site] } }).raise 2 0x0003 data
      else if was && decide (t < w - 5) then
        ({ s1 with power := { s1.power with warned := p.warned.filter (· != site) } }).raise 2 0x0004 data
      else s1

/-- A failed fan position reads correctly again (R393). -/
def State.fanCheck (s : State) (fan rpm : Nat) : State :=
  if s.power.fansFailed.contains fan && decide (s.power.fanCommand ≤ 2 * rpm) then
    ({ s with power := { s.power with fansFailed := s.power.fansFailed.filter (· != fan) } }).raise 2 0x0002 (dCode 112 8 fan)
  else s

/-- The supervisor's thermal loop runs while the supply outputs are up. -/
def State.cooled (s : State) : Bool :=
  match s.start.run with
  | .off => false
  | .standby => false
  | _ => true

/-- THERMAL_LOOP (R392 to R394): every second the loop reads its sensors and tachometers and sets one speed for all fans. -/
def execThermalLoop (dt : Nat) (readings : List (Nat × Int)) (tachs : List Nat) (s0 : State) : Out :=
  let s := s0.advance dt
  let due := match s.power.loopAt with | some t => decide (t + sec 1 ≤ s.start.balance) | none => true
  if s.cooled && due then
    let s1 := readings.foldl (fun (t : State) r => t.thermalReading r.1 r.2) s
    let s2 := ((List.range tachs.length).zip tachs).foldl (fun (t : State) f => t.fanCheck f.1 f.2) s1
    .next { s2 with power := { s2.power with fanCommand := s2.fanSpeed, loopAt := some s2.start.balance } }
  else .next s

/-- FAN_FAILED (R393): a tachometer has read below half the commanded speed for 2 s; the other fans run at full speed. -/
def execFanFailed (dt fan rpm : Nat) (s0 : State) : Out :=
  let s := s0.advance dt
  if s.merging && decide (fan < 6) && decide (2 * rpm < s.power.fanCommand) && !s.power.fansFailed.contains fan then
    let s1 := s.raise 2 0x0001 (dCode 112 8 fan + dBits 96 16 s.power.fanCommand + dBits 80 16 rpm)
    .next { s1 with power := { s1.power with fansFailed := s1.power.fansFailed ++ [fan], fanCommand := Config.fanFull } }
  else .next s

/-- THERMAL_STOP (R394): a sensor has stayed at or above its stop threshold for 1 s. Every port transmitter goes quiet, every domain
except 1 stops, and the fans run at full speed; the stop is a failed start at stage 1 with cause 3. -/
def execThermalStop (dt site : Nat) (s0 : State) : Out :=
  let s := s0.advance dt
  match s.power.stopSince.find site with
  | some t =>
    if s.merging && decide (t + sec 1 ≤ s.now) then
      let deg := s.power.readings.getD site 0
      let s1 := s.failedStart { stage := 1, cause := 3, site := site, detail := (deg % (2 ^ 32 : Nat)).toNat }
      .next { s1 with power := { s1.power with fansFull := true, portsQuiet := true, fanCommand := Config.fanFull } }
    else .next s
  | none => .next s

end Sys2Proof.Machine
end

