-- ==== Sys2Proof/Machine/ReplyOps.lean ====
section
/-! DEFINITION. The reply of a packet, and how the changes of packets take effect (R39, R45, R46, R65).
When changes take effect: DEDUCED (log entries 9, 12, 15 to 17). -/

namespace Sys2Proof.Machine

/- Changes that come due. -/

/-- The clusters that a change touches hold it from its beat on (R45, R65); a cluster without a bound slot has no beat before. -/
def State.markClusters (s : State) (x : Staged) : State :=
  (x.change.clusters s).foldl (fun t n =>
    let e := t.esc n
    let held := if e.held.any (fun p => p.1 == x.beat) then e.held else e.held ++ [(x.beat, compileCluster s n)]
    let last := if e.active.slots.isEmpty then max e.lastBeat (x.beat - 1) else e.lastBeat
    t.setEsc n { e with held := held, lastBeat := last }) s

/-- One change takes effect at its effective instant. A change that steps the counter moves what has passed since with it. -/
def State.takeOne (s : State) (x : Staged) : State :=
  let late := s.now - x.eff.getD s.now
  let s1 := (s.markClusters x).bury x.beat x.change
  let s2 := applyChange x.change { s1 with now := s1.now - late }
  { s2 with now := s2.now + late }

/-- A copy of a packet's reply is still in the module: queued, waiting for a cell, or on its way out. -/
def State.replyInside (s : State) (session seq : Nat) : Bool :=
  let mine := fun (c : Copy) => match c.payload with | .reply ses _ r _ => ses == session && r.cmdSeq == seq | _ => false
  s.egress.ifaces.any (fun p => p.2.internal.any mine || p.2.waiting.any mine || (match p.2.tx with | some t => mine t.copy | none => false))

/-- A change is due by the module's own hand: one of the effective instant itself, one of a mix where the die has no MIX entry, or one
that waits until its reply has left, with its effective instant (`afterSent`) or whatever that is (`afterReply`, R57, R58). The others are
taken by their objects' tasks. -/
def Staged.due (s : State) (after : Bool) (x : Staged) : Bool :=
  match x.eff with
  | none => false
  | some t =>
    match x.scope with
    | .instant => decide (t ≤ s.now)
    | .mixing d => decide (t ≤ s.now) && (mixHost s d).isNone
    | .afterSent => decide (t ≤ s.now) && after && !s.replyInside x.session x.seq
    | .afterReply => after && !s.replyInside x.session x.seq
    | _ => false

/-- The first of the due changes in the order of their effective instants, with the others in their order. -/
def firstDue (due : Staged → Bool) : List Staged → Option (Staged × List Staged)
  | [] => none
  | x :: xs =>
    match firstDue due xs with
    | none => if due x then some (x, xs) else none
    | some (y, others) => if due x && decide (x.eff.getD 0 ≤ y.eff.getD 0) then some (x, xs) else some (y, x :: others)

/-- Take every due change, in order, while the module is live (on fuel: the staged changes only become fewer). -/
def applyDue (after : Bool) : Nat → State → State
  | 0, s => s
  | f + 1, s =>
    if !s.live then s
    else match firstDue (Staged.due s after) s.staged with
      | none => s
      | some (x, rest) => applyDue after f (State.takeOne { s with staged := rest } x)

/-- The object whose task is to take a change no longer exists. -/
def Staged.orphan (s : State) (x : Staged) : Bool :=
  (match x.eff with | some t => decide (t ≤ s.now) | none => false) &&
  (match x.scope with
   | .composition o => !s.video.outputs.has o
   | .encoding l => !s.video.encodes.has l
   | .audioTask l => !s.audio.legs.has l
   | _ => false)

/-- What is due takes effect; changes of objects that are gone lapse. -/
def State.takeDue (s : State) (after : Bool) : State :=
  let s1 := applyDue after s.staged.length s
  { s1 with staged := s1.staged.filter (fun x => !x.orphan s1) }

/- The reply. -/

/-- Changes of a packet that have no effective instant yet. -/
def State.changesOf (s : State) (p : ExecPkt) : List Staged :=
  s.staged.filter (fun x => x.session == p.session && x.seq == p.seq && x.eff.isNone)

/-- Smallest distance of two swaps of one cluster (R65). -/
def swapGap : Instant := ns 500000

/-- The packet is too late in cluster n (R46, R65): the cluster's first beat from apply_at on cannot be staged by w, or lies too close
to a beat for which an accepted packet is pending. -/
def State.lateIn (s : State) (applyAt : Instant) (n : Nat) : Bool :=
  match firstBeat (s.bankAt n applyAt).slots applyAt with
  | none => false
  | some b =>
    decide (b ≤ s.now + walkLead) ||
    (s.affectedBeats n).any (fun c => c != b && decide (max b c - min b c < swapGap))

/-- TOO_LATE (R46): only a packet with an apply_at is, and only for the clusters whose beats its changes touch. -/
def State.tooLate (s : State) (p : ExecPkt) : Bool :=
  p.applyAt != 0 && (dedup ((s.changesOf p).map (fun x => s.clustersOf x.change)).flatten).any (s.lateIn p.applyAt)

/-- The effective instant of a packet whose changes are written at w, and the first instant whose beats take them (R45). -/
def effOf (applyAt w : Instant) : Instant × Instant :=
  if applyAt = 0 then (w, w + walkLead) else if w ≤ applyAt then (applyAt, applyAt) else (w, w + walkLead)

/-- Fix the effective instant of a packet's changes. -/
def State.fixEff (s : State) (p : ExecPkt) (eff beat : Instant) : State :=
  { s with staged := s.staged.map (fun x =>
      if x.session = p.session ∧ x.seq = p.seq ∧ x.eff.isNone then
        { x with eff := some eff, beat := beat,
                 change := match x.change with | .video (.graphicFlip h _) => .video (.graphicFlip h beat) | c => c }
      else x) }

/-- The packet closes its own session (R57). -/
def State.closesSelf (s : State) (p : ExecPkt) : Bool := (s.changesOf p).any (fun x => x.change == .vcp (.sessionClose p.session))

/-- Send the reply of a packet all of whose commands have run: it is numbered, cached unless the packet closes its own session, and queued,
and what is due takes effect (R39, R41, R45, R57). What follows the sent reply is due once no copy of it is in the module (R57, R58). -/
def State.reply (s : State) (p : ExecPkt) : State :=
  match s.vcp.session p.session with
  | none => s
  | some x =>
    let late := p.status == .ok && s.tooLate p
    let closing := !late && s.closesSelf p
    let s1 := if late then s.undo p else s
    let changes := !(s1.changesOf p).isEmpty
    let (eff, beat) := effOf p.applyAt s.now
    let s2 := s1.fixEff p eff beat
    let st := if late then .tooLate else p.status
    let recs := if st == .ok then p.results else []
    let (r, y) := x.formReply p.seq st p.arrival (if changes then eff else 0) recs
    let z := if closing then y else y.record p.seq p.tag (.answered r)
    let s3 : State := { s2 with vcp := { s2.vcp with executing := s2.vcp.executing.filter (fun q => !(q.session == p.session && q.seq == p.seq)) } }
    ((s3.modSession p.session (fun _ => z)).sendReply p.peer p.session r).takeDue false

/- The bound of R39. -/

/-- A 16-bit or 32-bit field of a block, or its default where the block ends before it. -/
def blockField (b : List Byte) (off w dflt : Nat) : Nat := if b.length < off + w then dflt else beNat ((b.drop off).take w)

/-- The largest result block that an opcode can return for the parameters given. -/
def resultMax (op : Nat) (b : List Byte) : Nat :=
  match op with
  | 0x0005 => 1028 | 0x0101 => 56 | 0x0104 => 84 | 0x0207 => 112 | 0x0208 => 112 | 0x0303 => 48 | 0x0406 => 40 | 0x0409 => 72
  | 0x0102 => if blockField b 5 1 0 = 1 then 4 + 8 * min (blockField b 8 2 16) 64 else 4 + 64 * min (blockField b 8 2 16) 16
  | 0x0505 => 104 | 0x0506 => 28 | 0x0605 => 112 | 0x0705 => 80 | 0x0806 => 132 | 0x0906 => 48 | 0x0907 => 40
  | 0x0808 => 4 + 4 * min (blockField b 4 2 256) 256
  | 0x0908 => 4 + 4 * min (blockField b 2 2 256) 256
  | 0x0A02 => 100 | 0x0A03 => 516 | 0x0A04 => 44
  | 0x0A05 => 4 + 4 * min (blockField b 2 2 95) 95
  | 0x0B01 => 64 | 0x0B04 => 96 | 0x0C01 => 88
  | 0x0C02 => 4 + min (blockField b 16 2 1024) 1024
  | 0x0C03 => 1028
  | 0x0C04 => let m := blockField b 4 1 0x1F; 4 + 24 * ((List.range 5).filter (fun k => m.testBit k)).length
  | 0x0D02 => 720 | 0x0D03 => 80
  | 0x0D06 => min (blockField b 4 2 128) 128
  | 0x0E02 => 224
  | 0x0E03 => 4 + 32 * min (blockField b 8 2 32) 32
  | 0x0F01 => 304
  | 0x0F03 => 12 + min (blockField b 2 2 1024) 1024
  | 0x0F04 => 352 | 0x0F07 => 32
  | 0x0F08 => min (blockField b 4 2 1024) 1024
  | 0x0F0B => 1028
  | _ => 24

/-- The bound of a command's result record: the larger of its own and the one that carries the error block. -/
def recordBound (r : PktRec) : ResultRec := { opcode := r.opcode, tag := r.tag, status := .ok, block := zeros (max 24 (resultMax r.opcode r.block)) }

/-- Fragments that the reply of these commands could need at a session's max_datagram. -/
def replyBound (maxDatagram : Nat) (l : List PktRec) : Nat := (packRecords (fragmentCap maxDatagram) (l.map recordBound) [] 0).length

end Sys2Proof.Machine
end

