-- ==== Sys2Proof/Machine/Vcp.lean ====
section
/-! DEFINITION. The command protocol: frames, sessions, replies, the roles of the packages (R14 to R18, R28 to R58, R84).
Corners of the protocol: DEDUCED (log entries 9, 10 and 13 to 18). -/

namespace Sys2Proof.Machine

/- The checks of R32 and R40. -/

/-- What the checks say of a VCP packet: dropped for a reason of VCP_DROPPED, answered BAD_VERSION, dropped without more (its reply
follows), answered with its cached reply, or accepted. -/
inductive VcpVerdict where
  | drop (reason : Nat)
  | version
  | silent
  | resend (r : Reply)
  | accept
deriving DecidableEq, Repr, Inhabited

/-- The sequence check of R40, for a packet whose tag verifies. -/
def Session.judge (y : Session) (seq tag : Nat) : VcpVerdict :=
  if y.high < seq then .accept
  else if seq + 1024 ≤ y.high then .drop 4
  else match y.entry seq with
    | none => .accept
    | some e =>
      if e.tag ≠ tag then .drop 5
      else match e.st with
        | .executing => .silent
        | .answered r => .resend r

/-- Types 1, 3 and 4 are the controller's; a CLIENT_FINISH carries sequence 0. -/
def vcpFramed (x : VcpRx) : Bool := x.framingOk && (x.type == 1 || (x.type == 3 && x.seq == 0) || x.type == 4)

/-- The half-open session of an identifier. -/
def VcpState.halfOpen (v : VcpState) (id : Nat) : Option HalfOpen := v.half.find? (fun h => h.id == id)

/-- The checks of R32 in their order. -/
def VcpState.judge (v : VcpState) (x : VcpRx) : VcpVerdict :=
  if !vcpFramed x then .drop 1
  else if x.version ≠ 1 then .version
  else if x.type = 1 then .accept
  else match v.session x.session with
    | some y => if x.tagOk y.keys then y.judge x.seq x.tag else .drop 3
    | none =>
      match v.halfOpen x.session with
      | some h => if x.type ≠ 3 then .drop 2 else if x.tagOk h.keys then .accept else .drop 3
      | none => .drop 2

/-- The tag of the packet was reached and verifies: the session has heard its controller (R37); EVENT packets follow its latest command
packet (R356). -/
def State.heard (s : State) (x : VcpRx) : State :=
  match s.vcp.session x.session with
  | some y =>
    if vcpFramed x && x.version == 1 && x.type != 1 && x.tagOk y.keys then
      s.modSession x.session (fun y => { y with lastPacket := s.now, peer := if x.type = 4 then x.peer else y.peer })
    else s
  | none => s

/-- The IPv6 link-local address of a port: EUI-64 from its MAC address (R29). -/
def linkLocal (port : Nat) : Nat :=
  let m := (Config.macAddress port).toNat
  let hi := m / 2 ^ 24
  let eui := ((hi ^^^ 2 ^ 17) * 2 ^ 16 + 0xFFFE) * 2 ^ 24 + m % 2 ^ 24
  0xFE80 * 2 ^ 112 + eui

/-- A datagram is a VCP packet (R28): it is addressed to the module on the port, at the port's VCP port, untagged or under the management VID. -/
def State.isVcp (s : State) (p : Peer) : Bool :=
  let a := s.vcp.addr p.port
  s.portRuns p.port && p.localUdp == a.vcpPort && ((a.addr != 0 && p.localAddr == a.addr) || p.localAddr == linkLocal p.port) &&
  (p.vid == 0 || p.vid == a.vid)

/-- An interface of a port that can receive. -/
def State.receives (s : State) (port iface : Nat) : Bool := s.portRuns port && (s.port port).ifaceUp iface

/-- VCP_PACKET_REJECTED (R32, R40): a packet that the checks drop, or answer with BAD_VERSION. -/
def execVcpPacketRejected (p : VcpRx) (s0 : State) : Out :=
  let s := s0.advance p.dt
  if !s.isVcp p.peer then .next s
  else match s.vcp.judge p with
    | .drop r => .next ((s.heard p).vcpDrop p.peer.port r p.session)
    | .version => .next (s.sendReject p.peer p.session .badVersion)
    | .silent => .next (s.heard p)
    | .resend _ => .next s
    | .accept => .next s

/-- CACHED_REPLY_RESEND (R40, R41): every fragment leaves again, byte for byte, with its sequences. -/
def execCachedReplyResend (p : VcpRx) (s0 : State) : Out :=
  let s := s0.advance p.dt
  if !s.isVcp p.peer then .next s
  else match s.vcp.judge p with
    | .resend r => .next ((s.heard p).sendReply p.peer p.session r)
    | _ => .next s

/- Session establishment. -/

/-- One more in this second, of a count that starts anew with each TAI second: whether it is within the limit. -/
def perSecond (second count now limit : Nat) : Bool × Nat × Nat :=
  let n := if second = secOf now then count else 0
  if limit ≤ n then (false, secOf now, n) else (true, secOf now, n + 1)

/-- Step 3 of R400: the payload's first failure. A payload that ends before cert_length differs from 136 + cert_length whatever that reads as. -/
def helloPayload (h : HelloRx) : Option Status :=
  firstFail
    [ (h.payload.length != 136 + h.certLength, .badLength)
    , (!(decide (1280 ≤ h.maxDatagram) && decide (h.maxDatagram ≤ 8960) && decide (1 ≤ h.certLength) && decide (h.certLength ≤ 2048)), .badValue)
    , (!h.reservedZero, .reservedNonzero)
    , (!h.shareOk, .badValue) ]

/-- The authority keys enrolled in the settings in force, as points (R33, R378). -/
def State.enrolled (s : State) : List Nat := match s.start.settings with | some (_, x) => x.keys.map keyPoint | none => []

/-- Step 5 of R400: the certificate checks of R33, in their order. -/
def State.helloCert (s : State) (h : HelloRx) : Option Status :=
  firstFail
    [ (!h.certConform, .certInvalid)
    , (match h.caKey with | some k => !s.enrolled.contains k | none => true, .certNotEnrolled)
    , (s.traceable && !(decide (h.notBefore ≤ secOf s.now) && decide (secOf s.now ≤ h.notAfter)), .certExpired) ]

/-- Where R400 stops a hello after its rate and repeat steps. -/
def State.helloStatus (s : State) (h : HelloRx) : Option Status :=
  match helloPayload h with
  | some st => some st
  | none =>
    if 8 ≤ s.vcp.established.length ∨ 16 ≤ s.vcp.half.length then some .sessionLimit else s.helloCert h

/-- A session identifier that is not in use, never 0 and never 0xFFFF_FFFF (Table 2.4); which one is a free value. -/
def VcpState.newId (v : VcpState) (draw : Nat) : Nat :=
  lowestFree (v.sessions.map (·.id) ++ v.half.map (·.id)) (draw % (2 ^ 32 - 34) + 1)

/-- Send a SERVER_HELLO in clear text (Tables 2.1 and 2.4). -/
def State.sendHello (s : State) (p : Peer) (h : ServerHello) : State := s.sendVcp p (vcpClear 2 0 h.payload) (.serverHello h)

/-- A hello is accepted: a half-open session, and its SERVER_HELLO (R34 to R36). The module draws its random, the identifier and the secret
of its share. -/
def State.acceptHello (s0 : State) (h : HelloRx) : State :=
  let (n, s1) := s0.draw
  let (k, s2) := s1.draw
  let (e, s) := s2.draw
  let id := s.vcp.newId (Config.random k)
  let rnd := Config.random n % 2 ^ 256
  let secret := Config.random e % (curveN - 1) + 1
  let blank : ServerHello :=
    { moduleRandom := rnd, session := id, maxDatagram := min h.maxDatagram 8960, validityUnchecked := !s.traceable,
      settingMode := s.inSetting, moduleShare := curveMul secret curveG, signature := 0 }
  let digest := transcript h.payload blank
  let hello := { blank with signature := identitySign digest }
  let half : HalfOpen :=
    { id := id, clientRandom := h.clientRandom, created := s.now, hello := hello,
      keys := sessionKeys h.clientRandom rnd (curveMul secret h.share / 2 ^ 384), certKey := h.caKey.getD 0, subjectKey := h.subjectKey,
      transcript := digest }
  ({ s with vcp := { s.vcp with half := s.vcp.half ++ [half] } }).sendHello h.peer hello

/-- The signing engine reaches the identity key (R382); from a scan unlock until mains is removed it does not, and no SERVER_HELLO is
made (R384). -/
def State.canSign (s : State) : Bool := s.start.otp0.keyPath && s.start.otp1.keyPath

/-- CLIENT_HELLO (R33 to R36, R384, R400). -/
def execClientHello (h : HelloRx) (s0 : State) : Out :=
  let s := s0.advance h.dt
  let port := h.peer.port
  if !(s.isVcp h.peer && s.vcp.judge h.packet == .accept && h.packet.type == 1) then .next s
  else
    let a := s.vcp.addr port
    let (ok, sec_, n) := perSecond a.helloSecond a.helloCount s.now 32
    let b := { a with helloSecond := sec_, helloCount := n, helloDrops := if ok then a.helloDrops else a.helloDrops + 1 }
    let s1 : State := { s with vcp := s.vcp.setAddr port b }
    if !ok then .next s1
    else match s1.vcp.half.find? (fun x => x.clientRandom == h.clientRandom) with
      | some x => .next (s1.sendHello h.peer x.hello)
      | none =>
        match s1.helloStatus h with
        | some st => .next (s1.sendReject h.peer 0 st)
        | none => .next (if s1.canSign then s1.acceptHello h else s1)

/-- The half-open session is established, and answered with the REPLY of sequence 0 (R35). -/
def State.establish (s : State) (h : HalfOpen) (x : VcpRx) : State :=
  let y : Session :=
    { id := h.id, maxDatagram := h.hello.maxDatagram, established := s.now, lastPacket := s.now, txSeq := 0, keys := h.keys,
      peer := x.peer, certKey := h.certKey }
  let (r, y1) := y.formReply 0 .ok s.now 0 []
  let z := y1.record 0 x.tag (.answered r)
  let v := { s.vcp with half := s.vcp.half.filter (fun q => q.id != h.id), sessions := s.vcp.sessions ++ [z] }
  ((({ s with vcp := v }).sendReply x.peer h.id r).raise 225 0x0001 (dCode 88 32 h.id + dCode 80 8 x.peer.port))

/-- controller_signature verifies (R35): the payload is 96 bytes, and signs the transcript under the key of the controller's certificate. -/
def HalfOpen.signedBy (h : HalfOpen) (x : VcpRx) : Bool :=
  match x.opened h.keys with
  | some b => b.length == 96 && ecdsaVerify h.subjectKey (beNat b) h.transcript
  | none => false

/-- CLIENT_FINISH (R35). -/
def execClientFinish (p : VcpRx) (s0 : State) : Out :=
  let s := s0.advance p.dt
  if !(s.isVcp p.peer && p.type == 3 && s.vcp.judge p == .accept) then .next s
  else match s.vcp.halfOpen p.session with
    | none => .next s
    | some h =>
      let gone : State := { s with vcp := { s.vcp with half := s.vcp.half.filter (fun q => q.id != h.id) } }
      if !h.signedBy p then .next (gone.sendReject p.peer h.id .handshakeSignature)
      else if 8 ≤ s.vcp.established.length then .next (gone.sendReject p.peer h.id .sessionLimit)
      else .next (s.establish h p)

/-- HALF_OPEN_TIMEOUT (R35): 5 s without a valid CLIENT_FINISH. -/
def execHalfOpenTimeout (dt id : Nat) (s0 : State) : Out :=
  let s := s0.advance dt
  if s.live && s.vcp.half.any (fun h => h.id == id && decide (h.created + sec 5 ≤ s.now)) then
    .next { s with vcp := { s.vcp with half := s.vcp.half.filter (fun h => h.id != id) } }
  else .next s

/- Sessions end (R37). -/

/-- SESSION_IDLE_TIMEOUT: 60 s with no authenticated packet. -/
def execSessionIdleTimeout (dt id : Nat) (s0 : State) : Out :=
  let s := s0.advance dt
  match s.vcp.session id with
  | none => .next s
  | some x => if s.live && x.expired.isNone && decide (x.lastPacket + sec 60 ≤ s.now) then .next (s.endSession id 2) else .next s

/-- SESSION_EXPIRING: one hour before the 24 h limit, once (R37, R354). -/
def execSessionExpiring (dt id : Nat) (s0 : State) : Out :=
  let s := s0.advance dt
  match s.vcp.session id with
  | none => .next s
  | some x =>
    let ends := x.established + sec 86400
    if s.live && x.expired.isNone && !x.expiringRaised && decide (ends ≤ s.now + sec 3600) then
      .next ((s.modSession id (fun y => { y with expiringRaised := true })).raise 225 0x0002
        (dCode 88 32 id + dBits 56 32 (secOf (ends - s.now))))
    else .next s

/-- SESSION_EXPIRY: 24 h after it was established, or sequence 2^32 in either direction (R37). Its subscription lapses. -/
def execSessionExpiry (dt id : Nat) (s0 : State) : Out :=
  let s := s0.advance dt
  match s.vcp.session id with
  | none => .next s
  | some x =>
    if s.live && x.expired.isNone && (decide (x.established + sec 86400 ≤ s.now) || decide (2 ^ 32 ≤ x.high) || decide (2 ^ 32 ≤ x.txSeq)) then
      .next (((s.modSession id (fun y => { y with expired := some s.now })).lapse id).raise 225 0x0003 (dCode 88 32 id + dCode 80 8 3))
    else .next s

/-- SESSION_ERASE: 60 s after expiry (R37). -/
def execSessionErase (dt id : Nat) (s0 : State) : Out :=
  let s := s0.advance dt
  match s.vcp.session id with
  | none => .next s
  | some x =>
    match x.expired with
    | none => .next s
    | some t => if s.live && decide (t + sec 60 ≤ s.now) then .next (s.endSession id 3) else .next s

/- Command packets (R39 to R47, R401). -/

/-- How many command packets of a session are in execution (R42). A packet that was refused waits for its reply only. -/
def VcpState.inExecution (v : VcpState) (id : Nat) : Nat := (v.executing.filter (fun p => p.session == id && p.status == .ok)).length

/-- The packet status of R401, for a packet that arrives now. A packet whose own sequence reaches 2^32 finds the session expired (R37). -/
def State.judgePacket (s : State) (y : Session) (seq : Nat) (c : CmdPayload) : Option Status :=
  firstFail
    [ (y.expired.isSome || decide (2 ^ 32 ≤ seq) || decide (2 ^ 32 ≤ y.txSeq), .sessionExpired)
    , (!(c.countOk && decide (1 ≤ c.records.length) && decide (c.records.length ≤ 32)), .badLength)
    , (!c.reservedZero || c.flags / 4 != 0 || !c.statusZero || c.deadline % 2 ^ 16 != 0 || c.applyAt % 2 ^ 16 != 0, .reservedNonzero)
    , (!(timeOk c.deadline && timeOk c.applyAt), .badValue)
    , (decide (16 < replyBound y.maxDatagram c.records), .badLength)
    , (c.deadline != 0 && decide (timeOf c.deadline < s.now), .deadlinePassed)
    , (decide (64 ≤ s.vcp.inExecution y.id), .busy) ]

/-- An accepted command packet enters execution; one that is BUSY is answered and not recorded (R41, R42). -/
def State.acceptPacket (s : State) (y : Session) (x : VcpRx) (c : CmdPayload) : State :=
  match s.judgePacket y x.seq c with
  | some .busy =>
    let (r, z) := y.formReply x.seq .busy s.now 0 []
    (s.modSession y.id (fun _ => z)).sendReply x.peer y.id r
  | st =>
    let p : ExecPkt :=
      { session := y.id, seq := x.seq, tag := x.tag, peer := x.peer, arrival := s.now,
        applyAt := if c.applyAt = 0 then 0 else timeOf c.applyAt,
        todo := if st.isNone then c.records else [], atomic := c.flags.testBit 0, stopOnError := c.flags.testBit 1,
        status := st.getD .ok }
    let s1 := s.modSession y.id (fun z => z.record x.seq x.tag .executing)
    { s1 with vcp := { s1.vcp with executing := s1.vcp.executing ++ [p] } }

/-- A packet of the command FIFO (R30): beyond 20,000 in a second it is dropped; a COMMAND that passes every check is accepted. The
other packets are judged by the rows that name what becomes of them. -/
def State.vcpFrame (s : State) (port : Nat) (x : VcpRx) : State :=
  let a := s.vcp.addr port
  let (ok, sec_, n) := perSecond a.vcpSecond a.vcpCount s.now 20000
  let s1 : State := { s with vcp := s.vcp.setAddr port { a with vcpSecond := sec_, vcpCount := n } }
  if !ok then s1.vcpDrop port 6 x.session
  else if x.type = 4 ∧ s1.vcp.judge x = .accept then
    let s2 := s1.heard x
    match s2.vcp.session x.session with
    | some y => s2.acceptPacket y x (readCommand ((x.opened y.keys).getD []))
    | none => s2
  else s1

/-- REPLY (R39, R45, R46): every command of the packet has run, and the reply is sent. -/
def execReply (dt session seq : Nat) (s0 : State) : Out :=
  let s := s0.advance dt
  match s.vcp.packet session seq with
  | none => .next s
  | some p0 =>
    let first := match s.running with | some q => q.session == session && q.seq == seq | none => false
    if !s.live || (!p0.todo.isEmpty && !first) || s.producerWaits p0.peer.port then .next s
    else
      let (s1, p) := flushUndefined s p0 p0.todo
      if p.todo.isEmpty then .next ((s1.setPacket p).reply p) else .next s

/-- EFFECTIVE_INSTANT (R45): what is due takes effect. -/
def execEffectiveInstant (dt : Nat) (s0 : State) : Out :=
  let s := s0.advance dt
  if s.live then .next (s.takeDue true) else .next s

/- Management addressing (R29). -/

/-- DHCP_TIMEOUT: no server has answered a step within 10 s, so the other step follows. -/
def execDhcpTimeout (dt port : Nat) (s0 : State) : Out :=
  let s := s0.advance dt
  let a := s.vcp.addr port
  if !(s.portRuns port && decide (a.phaseSince + sec 10 ≤ s.now)) then .next s
  else match a.phase with
    | .dhcp6 => .next (s.startDhcp port .dhcp4)
    | .dhcp4 => .next (s.startDhcp port .dhcp6)
    | _ => .next s

/-- The family whose server a port waits for or holds a lease of. -/
def AddrPhase.dhcpFamily : AddrPhase → Nat
  | .dhcp6 => 6 | .dhcp4 => 4 | .bound f => f | _ => 0

/-- DHCP_REPLY: a server gives the port an address, or extends its lease; the times of T1, T2 and the lease are in seconds. All ones is an
infinite lease (RFC 2131, RFC 8415). -/
def execDhcpReply (dt port family addr prefixLen gateway renewAfter rebindAfter lease : Nat) (s0 : State) : Out :=
  let s := s0.advance dt
  let a := s.vcp.addr port
  if !(s.receives port 0 && family != 0 && a.phase.dhcpFamily == family) then .next s
  else
    let b := { a with phase := .bound family, phaseSince := s.now, retransmissions := 0, family := family, addr := addr, gateway := gateway,
                      prefixLen := prefixLen, leaseEnd := s.now + sec lease, infinite := lease == 0xFFFFFFFF,
                      renewAt := s.now + sec renewAfter, rebindAt := s.now + sec rebindAfter, asking := 0 }
    .next { s with vcp := s.vcp.setAddr port b }

/-- How long a bound port waits before it asks again: DHCPv6 from 10 s up to 600 s; DHCPv4 half of the time that is left until T2, or until
the lease ends once it rebinds, and at least 60 s. -/
def askWait (a : PortAddr) (family asking n now draw : Nat) : Nat :=
  if family = 6 then renewWait n a.wait draw
  else max (sec 60) (((if asking = 2 then a.leaseEnd else a.rebindAt) - now) / 2)

/-- A bound port asks for its lease: kind 1 renews it with its server, kind 2 rebinds it with any. -/
def State.askLease (s0 : State) (port family asking n : Nat) : State :=
  let (d, s) := s0.draw
  let a := s.vcp.addr port
  let wait := askWait a family asking n s.now d
  ({ s with vcp := s.vcp.setAddr port { a with asking := asking, retransmissions := n, wait := wait, nextTx := s.now + wait } }).sendDhcp
    port family (2 + asking)

/-- DHCP_RETRANSMISSION: the timer of the port's latest request runs out, and the port sends it again as the RFC of its step prescribes. -/
def execDhcpRetransmission (dt port : Nat) (s0 : State) : Out :=
  let s := s0.advance dt
  let a := s.vcp.addr port
  let again := fun fam =>
    let (d, s1) := s.draw
    let wait := dhcpWait fam (a.retransmissions + 1) a.wait d
    Host.Outcome.next
      ((({ s1 with vcp := s1.vcp.setAddr port { a with retransmissions := a.retransmissions + 1, wait := wait, nextTx := s.now + wait } } : State)).sendDhcp
        port fam 2)
  if !(s.portRuns port && decide (a.nextTx ≤ s.now)) then .next s
  else match a.phase with
    | .dhcp6 => again 6
    | .dhcp4 => again 4
    | .bound f => if a.asking = 0 then .next s else .next (s.askLease port f a.asking (a.retransmissions + 1))
    | _ => .next s

/-- LEASE_EXPIRY: the lease ends without renewal, and the port returns to step 1. -/
def execLeaseExpiry (dt port : Nat) (s0 : State) : Out :=
  let s := s0.advance dt
  let a := s.vcp.addr port
  match a.phase with
  | .bound _ => if s.portRuns port && !a.infinite && decide (a.leaseEnd ≤ s.now) then .next (s.startDhcp port .dhcp6) else .next s
  | _ => .next s

/-- LEASE_RENEWAL: at T1 the port asks its server to extend the lease, and at T2 any server (RFC 2131 and RFC 8415). -/
def execLeaseRenewal (dt port : Nat) (s0 : State) : Out :=
  let s := s0.advance dt
  let a := s.vcp.addr port
  match a.phase with
  | .bound f =>
    if !s.portRuns port || a.infinite || decide (a.leaseEnd ≤ s.now) then .next s
    else if a.rebindAt ≤ s.now ∧ a.asking < 2 then .next (s.askLease port f 2 0)
    else if a.renewAt ≤ s.now ∧ a.asking = 0 then .next (s.askLease port f 1 0)
    else .next s
  | _ => .next s

/- The roles of the packages (R14 to R18). -/

/-- HEARTBEAT (R16, R18): once in 1 ms the primary's control complex sends it, and a standby answers. `sent` is false where the control
complex fails to. -/
def execHeartbeat (dt : Nat) (sent answered : Bool) (s0 : State) : Out :=
  let s := s0.advance dt
  let r := s.role
  if !(s.live && decide (r.lastTick + ms 1 ≤ s.now)) then .next s
  else
    .next { s with role := { r with lastTick := s.now, lastBeat := if sent then s.now else r.lastBeat,
                                    lastAnswer := if sent && answered then s.now else r.lastAnswer } }

/-- The packet is in execution on package p: it has arrived at its port, or a command that has still to run is one of p (R15, R17). -/
def State.runsOn (s : State) (p : Nat) (x : ExecPkt) : Bool :=
  x.peer.port == p || x.todo.any (fun r => s.executor x.peer.port r == p)

/-- Packets in execution on a failed primary are as if they had never arrived (R17); those that the other package executes go on. -/
def State.forgetPackets (s : State) (p : Nat) : State :=
  let gone := s.vcp.executing.filter (s.runsOn p)
  let s1 := gone.foldl State.undo s
  let lost := fun (x : Session) (e : WinEntry) => gone.any (fun q => q.session == x.id && q.seq == e.seq) && e.st == .executing
  let wipe := fun (x : Session) => { x with window := x.window.filter (fun e => !lost x e) }
  { s1 with vcp := { s1.vcp with executing := s.vcp.executing.filter (fun q => !s.runsOn p q), sessions := s1.vcp.sessions.map wipe } }

/-- Takeover (R14, R16 to R18, R282, R359): the standby becomes primary, and the old primary's package leaves media service. The event
names core 0 of the failed control complex, since only single cores have sites (DESIGN CHOICE, log entry 54). A new primary whose package
has no media die left makes a failed start (DEDUCED, log entry 55). -/
def State.takeover (s : State) : State :=
  let old := s.role.primary
  let new := 1 - old
  let held := { s.role with primary := new, takeovers := s.role.takeovers + 1, lastTick := s.now, lastBeat := s.now, lastAnswer := s.now,
                            coresHeld0 := s.role.coresHeld0 || old == 0, coresHeld1 := s.role.coresHeld1 || old == 1 }
  let s1 : State := { s.forgetPackets old with role := held, time := { s.time with otherErr := 0 } }
  let s2 := (s1.raise 0 0x0001 (dCode 88 32 (ccSite old 0) + dCode 80 8 new) new).raise 16 0x0007 (dCode 112 8 new) new
  let s3 := (s2.leave old).eventsTakeover
  if s.mayServe new then s3 else s3.failedStart noPackageLeft

/-- HEARTBEAT_LOSS (R16): the standby sees no heartbeat for 4 ms. -/
def execHeartbeatLoss (dt : Nat) (s0 : State) : Out :=
  let s := s0.advance dt
  if s.live && s.role.up0 && s.role.up1 && decide (s.role.lastBeat + ms 4 ≤ s.now) then .next s.takeover else .next s

/-- The standby's package leaves media service, and the primary goes on if its own package may serve (R14, R18). -/
def State.loseStandby (s : State) : State :=
  let p := s.role.primary
  let s1 := s.leave (1 - p)
  if s.mayServe p then s1 else s1.failedStart noPackageLeft

/-- STANDBY_LOSS (R18): the primary sees no answer for 4 ms. -/
def execStandbyLoss (dt : Nat) (s0 : State) : Out :=
  let s := s0.advance dt
  if s.live && s.role.up0 && s.role.up1 && decide (s.role.lastAnswer + ms 4 ≤ s.now) then .next s.loseStandby else .next s

/-- PRIMARY_LOSS_NO_STANDBY (R18): its own supervisor detects the loss, and the module makes a failed start. The record names core 0 of
the control complex, since only single cores have sites (DESIGN CHOICE, log entry 54). -/
def execPrimaryLossNoStandby (dt : Nat) (s0 : State) : Out :=
  let s := s0.advance dt
  if s.live && !(s.role.up0 && s.role.up1) && decide (s.role.lastBeat + ms 4 ≤ s.now) then
    .next (s.failedStart { stage := 4, cause := 1, site := ccSite s.role.primary 0 })
  else .next s

/- Frames (R28, R82, R84, R331). -/

/-- A double-bit error of the frame's FIFO. -/
def Hap.isDouble : Hap → Bool
  | .fifoUncorrected _ _ => true
  | _ => false

/-- A PTP message that the module does not support is dropped (R289). The others have rows of their own. -/
def State.ptpFrame (s : State) (f : FrameRx) : State :=
  let x : PtpRx := { dt := 0, port := f.port, rxMac := s.now, bytes := f.bytes }
  let drop := fun reason =>
    let s1 := s.passPtp x
    if s1.time.ptp.hasPort f.port then s1.dropPtp f.port reason else s1
  match x.kind with
  | 2 => drop 2
  | 3 => drop 2
  | 10 => drop 2
  | 8 => drop 1
  | 13 => drop 5
  | _ => s

/-- A frame goes to firmware (Table 4.1): ARP, ICMP, LLDP, DHCP and STUN. What firmware makes of DHCP has rows of its own; of the others the
spec states no effect. -/
def State.toFirmware (s : State) : State := { s with fwd := { s.fwd with toFirmware := s.fwd.toFirmware + 1 } }

/-- Table 4.1 from rule 11 on, for a UDP payload u. -/
def State.mediaFrame (s : State) (f : FrameRx) : State :=
  let ip := f.ip
  let u := f.udp
  let contexts := s.fwd.bound f.port ip.family ip.dst f.dstUdp
  if contexts.isEmpty then s.modParse f.port (fun c => { c with unmatched := c.unmatched + 1 })
  else if fieldAt u 0 1 / 64 = 0 ∧ fieldAt u 4 4 = 0x2112A442 then
    if contexts.any (fun p => p.2.cfg.stun) then s.toFirmware else s.modParse f.port (fun c => { c with stunDropped := c.stunDropped + 1 })
  else if fieldAt u 0 1 / 64 ≠ 2 then s.modParse f.port (fun c => { c with notRtp := c.notRtp + 1 })
  else if 192 ≤ fieldAt u 1 1 ∧ fieldAt u 1 1 ≤ 223 then s
  else if f.fifoFull then s.clusterOverrun f.port (clusterOf f.port ip.family ip.dst f.dstUdp f.ssrc)
  else match s.fwd.lookup f.port ip.family ip.dst f.dstUdp f.ssrc with
    | some _ => s
    | none => s.unknownSsrc f.port ip.dst f.dstUdp f.ssrc

/-- Table 4.1 (R84). Frames to an armed import's address and port are taken as segments ahead of rule 11 (R132); their row judges them. -/
def State.classify (s : State) (f : FrameRx) : State :=
  let count := fun (g : ParseCtrs → ParseCtrs) => s.modParse f.port g
  let e := f.eth
  let ip := f.ip
  if 1 < e.tags then count (fun c => { c with vlanStacked := c.vlanStacked + 1 })
  else if e.isPtp then s.ptpFrame f
  else if e.isControl then s.toFirmware
  else if ip.family = 0 then count (fun c => { c with notIp := c.notIp + 1 })
  else if ip.bad then count (fun c => { c with ipBad := c.ipBad + 1 })
  else if ip.options then count (fun c => { c with ipOptions := c.ipOptions + 1 })
  else if ip.fragment then count (fun c => { c with ipFragment := c.ipFragment + 1 })
  else if !ip.isUdp then count (fun c => { c with notUdp := c.notUdp + 1 })
  else if f.dstUdp = (s.vcp.addr f.port).vcpPort then
    if !s.isVcp f.vcp.peer then s
    else if f.haps.any Hap.isDouble then s.vcpDrop f.port 3 0
    else s.vcpFrame f.port f.vcp
  else if f.dstUdp = 68 ∨ f.dstUdp = 546 then s.toFirmware
  else if s.importTakes f then s
  else s.mediaFrame f

/-- The frame is for the command FIFO (Table 4.1 rule 9). -/
def State.commandFrame (s : State) (f : FrameRx) : Bool := f.ip.isUdp && f.dstUdp == (s.vcp.addr f.port).vcpPort

/-- RECEIVED_FRAME (R84, R331): a frame reaches the MAC of an interface. -/
def execReceivedFrame (f : FrameRx) (s0 : State) : Out :=
  let s := s0.advance f.dt
  if !s.receives f.port f.iface then .next s
  else
    let s1 := s.haps f.haps
    let mac := fun (g : Iface → Iface) => s1.modIface f.port f.iface g
    if !f.fcsOk || decide (f.len < 64) || decide (s.mtu f.port < f.len) || (f.haps.any Hap.isDouble && !s.commandFrame f) then
      .next (mac (fun i => { i with rxErrors := i.rxErrors + 1 }))
    else if f.pause then .next (mac (fun i => { i with rxPause := i.rxPause + 1 }))
    else
      let s2 := mac (fun i => { i with rxFrames := i.rxFrames + 1 })
      .next ((s2.modParse f.port (fun c => { c with frames := c.frames + 1 })).classify f)

/- The commands of the range 0x00xx. -/

/-- CMD_NOP. -/
def nopDef : CmdDef where
  opcode := 0x0001
  reads := true
  setting := true

def execCmdNop (r : CmdRef) (b : List Byte) (s : State) : Out := runCmd nopDef r b s

/-- CMD_SESSION_CLOSE (R37, R57): 0 means this session. R57 says when the sending session is closed; another session is closed at the packet's
effective instant, as R45 has it of every change (DESIGN CHOICE, log entry 60). -/
def sessionCloseDef : CmdDef where
  opcode := 0x0002
  setting := true
  fields := [fD 4 0]
  checks := fun e => [needsSt (e.at 0 == 0 || (e.vw.vcp.session (e.at 0)).isSome) .notFound 0]
  effect := fun e =>
    if e.at 0 = 0 ∨ e.at 0 = e.session then { stage := [(.afterReply, .vcp (.sessionClose e.session))] }
    else { stage := [(.instant, .vcp (.sessionClose (e.at 0)))] }

def execCmdSessionClose (r : CmdRef) (b : List Byte) (s : State) : Out := runCmd sessionCloseDef r b s

/-- CMD_MODULE_INFO (Table 2.10). In setting mode the package that receives the command answers for itself (R369). -/
def moduleInfoDef : CmdDef where
  opcode := 0x0003
  reads := true
  setting := true
  effect := fun e =>
    let s := e.s
    let pkg := if s.inSetting then e.peer.port else s.role.primary
    { result := beBytes 1 (b2n Config.variant) ++ beBytes 1 (b2n s.inSetting) ++ beBytes 1 s.role.primary ++ beBytes 1 s.fencedBits ++
        beBytes 4 (s.start.runningVersion pkg) ++ beBytes 4 s.videoLegs ++ beBytes 4 s.audioLegs ++ beBytes 4 s.taskSlots ++
        beBytes 4 s.vcp.established.length }

def execCmdModuleInfo (r : CmdRef) (b : List Byte) (s : State) : Out := runCmd moduleInfoDef r b s

/-- CMD_SET_ADDRESS (Table 2.11, R58). The unused bytes of an IPv4 address are reserved bits (R49). -/
def setAddressDef : CmdDef where
  opcode := 0x0004
  setting := true
  fields := [fN 1, fN 1, fN 1, fR 1, fN 16, fD 16 0, fD 2 4740, fD 2 0]
  zero := fun v _ => [(fv v 1 == 4 && decide (2 ^ 32 ≤ fv v 3), 4), (fv v 1 == 4 && decide (2 ^ 32 ≤ fv v 4), 20)]
  checks := fun e =>
    [ range (e.at 0) 0 1 0, needs (e.at 1 == 0 || e.at 1 == 4 || e.at 1 == 6) 1, range (e.at 2) 0 (if e.at 1 = 4 then 32 else 128) 2
    , range (e.at 5) 1 65535 36, range (e.at 6) 0 4094 38 ]
  effect := fun e =>
    { stage := [(.afterReply, .vcp (.address (e.at 0) (e.at 1) (e.at 2) (e.at 3) (e.at 4) (e.at 5) (e.at 6)))] }

def execCmdSetAddress (r : CmdRef) (b : List Byte) (s : State) : Out := runCmd setAddressDef r b s

/-- A claim is listed under a site (R399). -/
def Claim.under (c : Claim) (site : Nat) : Bool :=
  siteUnder site c.site ||
  (match c.res with | .tieLine _ _ dst _ => site == dieSite dst || site == xpSite dst | _ => false)

/-- An entry of CMD_CLAIM_QUERY. -/
def Claim.bytes (s : State) (c : Claim) : List Byte :=
  beBytes 4 c.id ++ beBytes 4 c.site ++ beBytes 4 (s.heldErr c c.site 0).holderSession ++ beBytes 2 c.opcode ++ zeros 2 ++ timeBytes c.taken

/-- CMD_CLAIM_QUERY (Table 2.12, R399). Claims stand in ascending order of identifier, in which they are taken. -/
def claimQueryDef : CmdDef where
  opcode := 0x0005
  reads := true
  setting := true
  fields := [fD 4 0xFFFFFFFF, fD 2 0, fRD 2]
  checks := fun e => if e.at 0 = noSite then [] else e.vw.siteChecks (e.at 0) true 0
  effect := fun e =>
    let l := e.s.vcp.claims.filter (fun c => c.under (e.at 0))
    let p := page l (e.at 1) 32
    { result := beBytes 2 p.length ++ beBytes 2 (pageRest l (e.at 1) 32) ++ (p.map (Claim.bytes e.s)).flatten }

def execCmdClaimQuery (r : CmdRef) (b : List Byte) (s : State) : Out := runCmd claimQueryDef r b s

/-- The changes of the freeing command of what a claim holds (R56). -/
def Resource.freeing : Resource → List (Scope × Change)
  | .timeOut => [(.instant, .time .timeOutFree)]
  | .launchTimer t => [(.instant, .egress (.timerFree t))]
  | .pin ctx => [(.instant, .fwd (.unpin ctx))]
  | .policer _ ctx => [(.instant, .fwd (.policerUnbind ctx))]
  | .sealExport pkg => [(.instant, .cipher (.exportDiscard pkg))]
  | .sealImport pkg => [(.instant, .cipher (.importDiscard pkg))]
  | .tieLine d p _ _ => [(.instant, .audio (.tieFree d p))]
  | .onCommandTest d => [(.instant, .start (.testAbort d))]
  | .bistSlice _ => []

/-- The freeing command of what a claim holds would be refused: a timed leg names the timer (R145), or a node the tie line's port
(R261). Releasing the claim has that command's effect (R56), its refusal included (DEDUCED). -/
def Resource.inUse (s : State) (r : Resource) : Bool :=
  match r with
  | .launchTimer t => timerNamed s t
  | _ => tieNamedByNode s r

/-- CMD_CLAIM_RELEASE (R56): a module-internal claim cannot be released by command. -/
def claimReleaseDef : CmdDef where
  opcode := 0x0006
  setting := true
  fields := [fN 4]
  checks := fun e =>
    match e.vw.vcp.claims.find? (fun c => c.id == e.at 0) with
    | none => [(true, badAt .noClaim 0)]
    | some c => [(c.session == 0, e.s.heldErr c c.site 0), needs (!c.res.inUse e.vw) 0]
  effect := fun e =>
    match e.vw.vcp.claims.find? (fun c => c.id == e.at 0) with
    | none => {}
    | some c => { stage := c.res.freeing ++ [(.instant, .vcp (.claimRelease c.id))] }

def execCmdClaimRelease (r : CmdRef) (b : List Byte) (s : State) : Out := runCmd claimReleaseDef r b s

end Sys2Proof.Machine
end

