-- ==== Sys2Proof/Machine/Dispatch.lean ====
section
/-! DEFINITION. One arm per command: each calls that command's meaning. -/

namespace Sys2Proof.Machine

def exec (i : Instr) (s : State) : Host.Outcome State Fault Refusal :=
  match i with
  | .clientHello h => Sys2Proof.Machine.execClientHello h s
  | .clientFinish p => Sys2Proof.Machine.execClientFinish p s
  | .halfOpenTimeout dt id => Sys2Proof.Machine.execHalfOpenTimeout dt id s
  | .vcpPacketRejected p => Sys2Proof.Machine.execVcpPacketRejected p s
  | .cachedReplyResend p => Sys2Proof.Machine.execCachedReplyResend p s
  | .reply dt session seq => Sys2Proof.Machine.execReply dt session seq s
  | .sessionIdleTimeout dt id => Sys2Proof.Machine.execSessionIdleTimeout dt id s
  | .sessionExpiring dt id => Sys2Proof.Machine.execSessionExpiring dt id s
  | .sessionExpiry dt id => Sys2Proof.Machine.execSessionExpiry dt id s
  | .sessionErase dt id => Sys2Proof.Machine.execSessionErase dt id s
  | .dhcpTimeout dt port => Sys2Proof.Machine.execDhcpTimeout dt port s
  | .dhcpReply dt port family addr prefixLen gateway renewAfter rebindAfter lease => Sys2Proof.Machine.execDhcpReply dt port family addr prefixLen gateway renewAfter rebindAfter lease s
  | .leaseExpiry dt port => Sys2Proof.Machine.execLeaseExpiry dt port s
  | .heartbeat dt sent answered => Sys2Proof.Machine.execHeartbeat dt sent answered s
  | .heartbeatLoss dt => Sys2Proof.Machine.execHeartbeatLoss dt s
  | .standbyLoss dt => Sys2Proof.Machine.execStandbyLoss dt s
  | .primaryLossNoStandby dt => Sys2Proof.Machine.execPrimaryLossNoStandby dt s
  | .cmdNop r b => Sys2Proof.Machine.execCmdNop r b s
  | .cmdSessionClose r b => Sys2Proof.Machine.execCmdSessionClose r b s
  | .cmdModuleInfo r b => Sys2Proof.Machine.execCmdModuleInfo r b s
  | .cmdSetAddress r b => Sys2Proof.Machine.execCmdSetAddress r b s
  | .cmdClaimQuery r b => Sys2Proof.Machine.execCmdClaimQuery r b s
  | .cmdClaimRelease r b => Sys2Proof.Machine.execCmdClaimRelease r b s
  | .cmdEscapementStatus r b => Sys2Proof.Machine.execCmdEscapementStatus r b s
  | .cmdTableRead r b => Sys2Proof.Machine.execCmdTableRead r b s
  | .cmdPoolStatus r b => Sys2Proof.Machine.execCmdPoolStatus r b s
  | .cmdTaskTraceArm r b => Sys2Proof.Machine.execCmdTaskTraceArm r b s
  | .cmdTaskTraceRead r b => Sys2Proof.Machine.execCmdTaskTraceRead r b s
  | .cmdStreamCreate r b => Sys2Proof.Machine.execCmdStreamCreate r b s
  | .cmdStreamDelete r b => Sys2Proof.Machine.execCmdStreamDelete r b s
  | .cmdTargetAdd r b => Sys2Proof.Machine.execCmdTargetAdd r b s
  | .cmdTargetSelect r b => Sys2Proof.Machine.execCmdTargetSelect r b s
  | .cmdTargetRemove r b => Sys2Proof.Machine.execCmdTargetRemove r b s
  | .cmdStreamPin r b => Sys2Proof.Machine.execCmdStreamPin r b s
  | .cmdStreamUnpin r b => Sys2Proof.Machine.execCmdStreamUnpin r b s
  | .cmdStreamStatus r b => Sys2Proof.Machine.execCmdStreamStatus r b s
  | .cmdParseCounters r b => Sys2Proof.Machine.execCmdParseCounters r b s
  | .cmdKeyInstall r b => Sys2Proof.Machine.execCmdKeyInstall r b s
  | .cmdKeyDelete r b => Sys2Proof.Machine.execCmdKeyDelete r b s
  | .cmdKeyStatus r b => Sys2Proof.Machine.execCmdKeyStatus r b s
  | .cmdKeyLimit r b => Sys2Proof.Machine.execCmdKeyLimit r b s
  | .cmdKeyLink r b => Sys2Proof.Machine.execCmdKeyLink r b s
  | .cmdKeyRoll r b => Sys2Proof.Machine.execCmdKeyRoll r b s
  | .cmdSealKey r b => Sys2Proof.Machine.execCmdSealKey r b s
  | .cmdSealExportSend r b => Sys2Proof.Machine.execCmdSealExportSend r b s
  | .cmdSealExportResend r b => Sys2Proof.Machine.execCmdSealExportResend r b s
  | .cmdSealExportStatus r b => Sys2Proof.Machine.execCmdSealExportStatus r b s
  | .cmdSealExportDiscard r b => Sys2Proof.Machine.execCmdSealExportDiscard r b s
  | .cmdSealImportArm r b => Sys2Proof.Machine.execCmdSealImportArm r b s
  | .cmdSealImportStatus r b => Sys2Proof.Machine.execCmdSealImportStatus r b s
  | .cmdSealImportOpen r b => Sys2Proof.Machine.execCmdSealImportOpen r b s
  | .cmdSealImportDiscard r b => Sys2Proof.Machine.execCmdSealImportDiscard r b s
  | .cmdLegSet r b => Sys2Proof.Machine.execCmdLegSet r b s
  | .cmdLegDelete r b => Sys2Proof.Machine.execCmdLegDelete r b s
  | .cmdClassSet r b => Sys2Proof.Machine.execCmdClassSet r b s
  | .cmdPolicerSet r b => Sys2Proof.Machine.execCmdPolicerSet r b s
  | .cmdPolicerDelete r b => Sys2Proof.Machine.execCmdPolicerDelete r b s
  | .cmdPolicerStatus r b => Sys2Proof.Machine.execCmdPolicerStatus r b s
  | .cmdDscpColour r b => Sys2Proof.Machine.execCmdDscpColour r b s
  | .cmdLaunchTimerSet r b => Sys2Proof.Machine.execCmdLaunchTimerSet r b s
  | .cmdLaunchTimerFree r b => Sys2Proof.Machine.execCmdLaunchTimerFree r b s
  | .cmdLaunchTimerRead r b => Sys2Proof.Machine.execCmdLaunchTimerRead r b s
  | .cmdLaunchTimerChange r b => Sys2Proof.Machine.execCmdLaunchTimerChange r b s
  | .cmdQueueStatus r b => Sys2Proof.Machine.execCmdQueueStatus r b s
  | .cmdQueueSampling r b => Sys2Proof.Machine.execCmdQueueSampling r b s
  | .cmdDecodeCreate r b => Sys2Proof.Machine.execCmdDecodeCreate r b s
  | .cmdDecodeDelete r b => Sys2Proof.Machine.execCmdDecodeDelete r b s
  | .cmdDecodeSelect r b => Sys2Proof.Machine.execCmdDecodeSelect r b s
  | .cmdDecodeResync r b => Sys2Proof.Machine.execCmdDecodeResync r b s
  | .cmdDecodeStatus r b => Sys2Proof.Machine.execCmdDecodeStatus r b s
  | .cmdDecodeLoad r b => Sys2Proof.Machine.execCmdDecodeLoad r b s
  | .cmdComposeCreate r b => Sys2Proof.Machine.execCmdComposeCreate r b s
  | .cmdComposeDelete r b => Sys2Proof.Machine.execCmdComposeDelete r b s
  | .cmdComposeLayer r b => Sys2Proof.Machine.execCmdComposeLayer r b s
  | .cmdComposeRegion r b => Sys2Proof.Machine.execCmdComposeRegion r b s
  | .cmdComposeStatus r b => Sys2Proof.Machine.execCmdComposeStatus r b s
  | .cmdGraphicCreate r b => Sys2Proof.Machine.execCmdGraphicCreate r b s
  | .cmdGraphicWrite r b => Sys2Proof.Machine.execCmdGraphicWrite r b s
  | .cmdGraphicFlip r b => Sys2Proof.Machine.execCmdGraphicFlip r b s
  | .cmdGraphicDelete r b => Sys2Proof.Machine.execCmdGraphicDelete r b s
  | .cmdComposeFilter r b => Sys2Proof.Machine.execCmdComposeFilter r b s
  | .cmdEncodeCreate r b => Sys2Proof.Machine.execCmdEncodeCreate r b s
  | .cmdEncodeDelete r b => Sys2Proof.Machine.execCmdEncodeDelete r b s
  | .cmdEncodeSet r b => Sys2Proof.Machine.execCmdEncodeSet r b s
  | .cmdEncodeKeyframe r b => Sys2Proof.Machine.execCmdEncodeKeyframe r b s
  | .cmdEncodeRecovery r b => Sys2Proof.Machine.execCmdEncodeRecovery r b s
  | .cmdEncodeStatus r b => Sys2Proof.Machine.execCmdEncodeStatus r b s
  | .cmdEncodeLoad r b => Sys2Proof.Machine.execCmdEncodeLoad r b s
  | .cmdAudioLegCreate r b => Sys2Proof.Machine.execCmdAudioLegCreate r b s
  | .cmdAudioLegDelete r b => Sys2Proof.Machine.execCmdAudioLegDelete r b s
  | .cmdAudioSet r b => Sys2Proof.Machine.execCmdAudioSet r b s
  | .cmdAudioStage r b => Sys2Proof.Machine.execCmdAudioStage r b s
  | .cmdAudioSteer r b => Sys2Proof.Machine.execCmdAudioSteer r b s
  | .cmdAudioStatus r b => Sys2Proof.Machine.execCmdAudioStatus r b s
  | .cmdAudioLoad r b => Sys2Proof.Machine.execCmdAudioLoad r b s
  | .cmdAudioTableRead r b => Sys2Proof.Machine.execCmdAudioTableRead r b s
  | .cmdXpNode r b => Sys2Proof.Machine.execCmdXpNode r b s
  | .cmdXpTieConnect r b => Sys2Proof.Machine.execCmdXpTieConnect r b s
  | .cmdXpTieFree r b => Sys2Proof.Machine.execCmdXpTieFree r b s
  | .cmdXpTalkerGroupSet r b => Sys2Proof.Machine.execCmdXpTalkerGroupSet r b s
  | .cmdXpTalkerGroupDelete r b => Sys2Proof.Machine.execCmdXpTalkerGroupDelete r b s
  | .cmdXpTalkerMemberAdd r b => Sys2Proof.Machine.execCmdXpTalkerMemberAdd r b s
  | .cmdXpTalkerMemberRemove r b => Sys2Proof.Machine.execCmdXpTalkerMemberRemove r b s
  | .cmdXpNodeRead r b => Sys2Proof.Machine.execCmdXpNodeRead r b s
  | .cmdXpStatus r b => Sys2Proof.Machine.execCmdXpStatus r b s
  | .cmdXpTalkers r b => Sys2Proof.Machine.execCmdXpTalkers r b s
  | .cmdXpGainTableRead r b => Sys2Proof.Machine.execCmdXpGainTableRead r b s
  | .cmdBeaconSet r b => Sys2Proof.Machine.execCmdBeaconSet r b s
  | .cmdBeaconStatus r b => Sys2Proof.Machine.execCmdBeaconStatus r b s
  | .cmdBeaconHeard r b => Sys2Proof.Machine.execCmdBeaconHeard r b s
  | .cmdBeaconLoading r b => Sys2Proof.Machine.execCmdBeaconLoading r b s
  | .cmdBeaconTableRead r b => Sys2Proof.Machine.execCmdBeaconTableRead r b s
  | .cmdTimeStatus r b => Sys2Proof.Machine.execCmdTimeStatus r b s
  | .cmdPtpClock r b => Sys2Proof.Machine.execCmdPtpClock r b s
  | .cmdPtpPort r b => Sys2Proof.Machine.execCmdPtpPort r b s
  | .cmdPtpPortStatus r b => Sys2Proof.Machine.execCmdPtpPortStatus r b s
  | .cmdRegulatorSet r b => Sys2Proof.Machine.execCmdRegulatorSet r b s
  | .cmdRegulatorForceHoldover r b => Sys2Proof.Machine.execCmdRegulatorForceHoldover r b s
  | .cmdRegulatorReleaseHoldover r b => Sys2Proof.Machine.execCmdRegulatorReleaseHoldover r b s
  | .cmdTimeSet r b => Sys2Proof.Machine.execCmdTimeSet r b s
  | .cmdTimeIn r b => Sys2Proof.Machine.execCmdTimeIn r b s
  | .cmdTimeOutSet r b => Sys2Proof.Machine.execCmdTimeOutSet r b s
  | .cmdTimeOutFree r b => Sys2Proof.Machine.execCmdTimeOutFree r b s
  | .cmdTimeOutChange r b => Sys2Proof.Machine.execCmdTimeOutChange r b s
  | .cmdHbmStatus r b => Sys2Proof.Machine.execCmdHbmStatus r b s
  | .cmdMemRead r b found => Sys2Proof.Machine.execCmdMemRead r b found s
  | .cmdFifoStatus r b => Sys2Proof.Machine.execCmdFifoStatus r b s
  | .cmdAudit r b => Sys2Proof.Machine.execCmdAudit r b s
  | .cmdPortMode r b => Sys2Proof.Machine.execCmdPortMode r b s
  | .cmdPortStatus r b => Sys2Proof.Machine.execCmdPortStatus r b s
  | .cmdLaneStatus r b => Sys2Proof.Machine.execCmdLaneStatus r b s
  | .cmdLaneQuiet r b => Sys2Proof.Machine.execCmdLaneQuiet r b s
  | .cmdLaneTestEnd r b => Sys2Proof.Machine.execCmdLaneTestEnd r b s
  | .cmdLaneTestNearLoopback r b => Sys2Proof.Machine.execCmdLaneTestNearLoopback r b s
  | .cmdLaneTestFarLoopback r b => Sys2Proof.Machine.execCmdLaneTestFarLoopback r b s
  | .cmdLaneTestPrbs r b => Sys2Proof.Machine.execCmdLaneTestPrbs r b s
  | .cmdLaneTestSlip r b => Sys2Proof.Machine.execCmdLaneTestSlip r b s
  | .cmdLaneTestTxFfe r b => Sys2Proof.Machine.execCmdLaneTestTxFfe r b s
  | .cmdLaneTestFreeze r b => Sys2Proof.Machine.execCmdLaneTestFreeze r b s
  | .cmdLaneTestResume r b => Sys2Proof.Machine.execCmdLaneTestResume r b s
  | .cmdCmisRead r b => Sys2Proof.Machine.execCmdCmisRead r b s
  | .cmdCmisWrite r b => Sys2Proof.Machine.execCmdCmisWrite r b s
  | .cmdEventSubscribe r b => Sys2Proof.Machine.execCmdEventSubscribe r b s
  | .cmdEventCancel r b => Sys2Proof.Machine.execCmdEventCancel r b s
  | .cmdEventStatus r b => Sys2Proof.Machine.execCmdEventStatus r b s
  | .cmdEventReplay r b => Sys2Proof.Machine.execCmdEventReplay r b s
  | .cmdEventRaise r b => Sys2Proof.Machine.execCmdEventRaise r b s
  | .cmdStartReport r b => Sys2Proof.Machine.execCmdStartReport r b s
  | .cmdResetRestart r b => Sys2Proof.Machine.execCmdResetRestart r b s
  | .cmdResetRecoverDie r b => Sys2Proof.Machine.execCmdResetRecoverDie r b s
  | .cmdResetClearRestart r b => Sys2Proof.Machine.execCmdResetClearRestart r b s
  | .cmdIdentity r b => Sys2Proof.Machine.execCmdIdentity r b s
  | .cmdAttest r b => Sys2Proof.Machine.execCmdAttest r b s
  | .cmdFirmwareWrite r b => Sys2Proof.Machine.execCmdFirmwareWrite r b s
  | .cmdFirmwareCommit r b => Sys2Proof.Machine.execCmdFirmwareCommit r b s
  | .cmdFirmwareStatus r b => Sys2Proof.Machine.execCmdFirmwareStatus r b s
  | .cmdOtpRead r b => Sys2Proof.Machine.execCmdOtpRead r b s
  | .cmdOtpWriteSettings r b => Sys2Proof.Machine.execCmdOtpWriteSettings r b s
  | .cmdOtpWriteRepairs r b => Sys2Proof.Machine.execCmdOtpWriteRepairs r b s
  | .cmdBistControl r b => Sys2Proof.Machine.execCmdBistControl r b s
  | .cmdBistResults r b => Sys2Proof.Machine.execCmdBistResults r b s
  | .cmdTestRunStart r b => Sys2Proof.Machine.execCmdTestRunStart r b s
  | .cmdTestRunStatus r b => Sys2Proof.Machine.execCmdTestRunStatus r b s
  | .cmdTestRunAbort r b => Sys2Proof.Machine.execCmdTestRunAbort r b s
  | .cmdDieFence r b => Sys2Proof.Machine.execCmdDieFence r b s
  | .cmdTestUnlock r b => Sys2Proof.Machine.execCmdTestUnlock r b s
  | .triggerWord dt die kind rate index haps => Sys2Proof.Machine.execTriggerWord dt die kind rate index haps s
  | .beatTrigger dt die kind rate => Sys2Proof.Machine.execBeatTrigger dt die kind rate s
  | .escapementWalk dt cluster => Sys2Proof.Machine.execEscapementWalk dt cluster s
  | .escapementResume dt cluster => Sys2Proof.Machine.execEscapementResume dt cluster s
  | .taskStart dt die inst => Sys2Proof.Machine.execTaskStart dt die inst s
  | .taskExpired dt die inst => Sys2Proof.Machine.execTaskExpired dt die inst s
  | .testWindow dt die inst => Sys2Proof.Machine.execTestWindow dt die inst s
  | .decodeTask dt die inst haps => Sys2Proof.Machine.execDecodeTask dt die inst haps s
  | .composeTask dt die inst haps poison => Sys2Proof.Machine.execComposeTask dt die inst haps poison s
  | .graphicCopy dt surface => Sys2Proof.Machine.execGraphicCopy dt surface s
  | .encodeTask dt die inst haps poison => Sys2Proof.Machine.execEncodeTask dt die inst haps poison s
  | .gangFinish dt die inst haps poison => Sys2Proof.Machine.execGangFinish dt die inst haps poison s
  | .receiveTask dt die inst haps => Sys2Proof.Machine.execReceiveTask dt die inst haps s
  | .sendTask dt die inst haps poison => Sys2Proof.Machine.execSendTask dt die inst haps poison s
  | .mix dt die inst haps poison transit => Sys2Proof.Machine.execMix dt die inst haps poison transit s
  | .talkerSelection dt die => Sys2Proof.Machine.execTalkerSelection dt die s
  | .beaconLost dt leg => Sys2Proof.Machine.execBeaconLost dt leg s
  | .receivedFrame f => Sys2Proof.Machine.execReceivedFrame f s
  | .rtpPacket p => Sys2Proof.Machine.execRtpPacket p s
  | .expressPacket p => Sys2Proof.Machine.execExpressPacket p s
  | .tagVerdict dt cut => Sys2Proof.Machine.execTagVerdict dt cut s
  | .ingressFrameEnd dt cut => Sys2Proof.Machine.execIngressFrameEnd dt cut s
  | .rtcpPacket f => Sys2Proof.Machine.execRtcpPacket f s
  | .keyAutoRoll dt key => Sys2Proof.Machine.execKeyAutoRoll dt key s
  | .migrationSegment f => Sys2Proof.Machine.execMigrationSegment f s
  | .sealComplete dt pkg => Sys2Proof.Machine.execSealComplete dt pkg s
  | .segmentSend dt pkg => Sys2Proof.Machine.execSegmentSend dt pkg s
  | .egressSelect dt port iface => Sys2Proof.Machine.execEgressSelect dt port iface s
  | .transmitComplete dt port iface => Sys2Proof.Machine.execTransmitComplete dt port iface s
  | .launchWindowOpen dt timer => Sys2Proof.Machine.execLaunchWindowOpen dt timer s
  | .queueSample dt pkg => Sys2Proof.Machine.execQueueSample dt pkg s
  | .auAbandon dt stream => Sys2Proof.Machine.execAuAbandon dt stream s
  | .ptpSyncReceived x => Sys2Proof.Machine.execPtpSyncReceived x s
  | .ptpDelayReqReceived x => Sys2Proof.Machine.execPtpDelayReqReceived x s
  | .ptpDelayRespReceived x => Sys2Proof.Machine.execPtpDelayRespReceived x s
  | .ptpAnnounceReceived x => Sys2Proof.Machine.execPtpAnnounceReceived x s
  | .announceTimeout dt port => Sys2Proof.Machine.execAnnounceTimeout dt port s
  | .unicastNegotiation x => Sys2Proof.Machine.execUnicastNegotiation x s
  | .ptpSyncSend dt port => Sys2Proof.Machine.execPtpSyncSend dt port s
  | .ptpDelayReqSend dt port => Sys2Proof.Machine.execPtpDelayReqSend dt port s
  | .ptpAnnounceSend dt port => Sys2Proof.Machine.execPtpAnnounceSend dt port s
  | .regulatorUpdate dt => Sys2Proof.Machine.execRegulatorUpdate dt s
  | .sourceTimeout dt => Sys2Proof.Machine.execSourceTimeout dt s
  | .holdoverExpired dt => Sys2Proof.Machine.execHoldoverExpired dt s
  | .timeInEdge dt stamp => Sys2Proof.Machine.execTimeInEdge dt stamp s
  | .timeInAverage dt edges => Sys2Proof.Machine.execTimeInAverage dt edges s
  | .timeInLost dt amplitudeFailed => Sys2Proof.Machine.execTimeInLost dt amplitudeFailed s
  | .timeOutEdge dt => Sys2Proof.Machine.execTimeOutEdge dt s
  | .oneShot dt => Sys2Proof.Machine.execOneShot dt s
  | .counterCompare dt err => Sys2Proof.Machine.execCounterCompare dt err s
  | .replicaCheck dt die err => Sys2Proof.Machine.execReplicaCheck dt die err s
  | .ocxoStable dt => Sys2Proof.Machine.execOcxoStable dt s
  | .refreshDue dt stack pch issued reqs => Sys2Proof.Machine.execRefreshDue dt stack pch issued reqs s
  | .temperatureReading dt stack t => Sys2Proof.Machine.execTemperatureReading dt stack t s
  | .hbmScrub dt stack pch found => Sys2Proof.Machine.execHbmScrub dt stack pch found s
  | .beatAudit dt die leaks => Sys2Proof.Machine.execBeatAudit dt die leaks s
  | .opticsInserted dt port media modes advertisedMs highWarning => Sys2Proof.Machine.execOpticsInserted dt port media modes advertisedMs highWarning s
  | .opticsRemoved dt port => Sys2Proof.Machine.execOpticsRemoved dt port s
  | .cmisPoll dt port moduleState activated flags temperature status => Sys2Proof.Machine.execCmisPoll dt port moduleState activated flags temperature status s
  | .bringupStageComplete dt port iface mode limits => Sys2Proof.Machine.execBringupStageComplete dt port iface mode limits s
  | .bringupStageTimeout dt port iface => Sys2Proof.Machine.execBringupStageTimeout dt port iface s
  | .bringupRetry dt port iface => Sys2Proof.Machine.execBringupRetry dt port iface s
  | .upHoldEnd dt port iface => Sys2Proof.Machine.execUpHoldEnd dt port iface s
  | .downHoldEnd dt port iface => Sys2Proof.Machine.execDownHoldEnd dt port iface s
  | .fecWindow dt port iface estimate corrected uncorrectable => Sys2Proof.Machine.execFecWindow dt port iface estimate corrected uncorrectable s
  | .iplReplay dt dir => Sys2Proof.Machine.execIplReplay dt dir s
  | .laneFailure dt dir lane cause errors => Sys2Proof.Machine.execLaneFailure dt dir lane cause errors s
  | .eventArrival dt index haps => Sys2Proof.Machine.execEventArrival dt index haps s
  | .eventRelease dt => Sys2Proof.Machine.execEventRelease dt s
  | .eventPacketSend dt sub kind => Sys2Proof.Machine.execEventPacketSend dt sub kind s
  | .mainsApplied dt => Sys2Proof.Machine.execMainsApplied dt s
  | .startStageComplete dt fails => Sys2Proof.Machine.execStartStageComplete dt fails s
  | .startStageTimeout dt sites => Sys2Proof.Machine.execStartStageTimeout dt sites s
  | .restartDelay dt => Sys2Proof.Machine.execRestartDelay dt s
  | .settingModeRetry dt => Sys2Proof.Machine.execSettingModeRetry dt s
  | .dieToDieLinkFailure dt die => Sys2Proof.Machine.execDieToDieLinkFailure dt die s
  | .dieRecoveryComplete dt die failed => Sys2Proof.Machine.execDieRecoveryComplete dt die failed s
  | .bistSliceStart dt die kind target => Sys2Proof.Machine.execBistSliceStart dt die kind target s
  | .bistSliceEnd dt die target misr faults => Sys2Proof.Machine.execBistSliceEnd dt die target misr faults s
  | .onCommandTestComplete dt die done failures sigOk restartOk => Sys2Proof.Machine.execOnCommandTestComplete dt die done failures sigOk restartOk s
  | .jumper dt fitted => Sys2Proof.Machine.execJumper dt fitted s
  | .thermalLoop dt readings tachs => Sys2Proof.Machine.execThermalLoop dt readings tachs s
  | .fanFailed dt fan rpm => Sys2Proof.Machine.execFanFailed dt fan rpm s
  | .thermalStop dt site => Sys2Proof.Machine.execThermalStop dt site s
  | .mainsInterruption dt => Sys2Proof.Machine.execMainsInterruption dt s
  | .holdUpExpiry dt => Sys2Proof.Machine.execHoldUpExpiry dt s
  | .mainsRestored dt => Sys2Proof.Machine.execMainsRestored dt s
  | .standbyRailDrop dt => Sys2Proof.Machine.execStandbyRailDrop dt s
  | .psuInput dt state decivolts => Sys2Proof.Machine.execPsuInput dt state decivolts s
  | .psuFault dt output cause => Sys2Proof.Machine.execPsuFault dt output cause s
  | .effectiveInstant dt => Sys2Proof.Machine.execEffectiveInstant dt s
  | .leaseRenewal dt port => Sys2Proof.Machine.execLeaseRenewal dt port s
  | .dhcpRetransmission dt port => Sys2Proof.Machine.execDhcpRetransmission dt port s
  | .dfeTapLimit dt port lane tap => Sys2Proof.Machine.execDfeTapLimit dt port lane tap s
  | .ocxoAlarm dt on => Sys2Proof.Machine.execOcxoAlarm dt on s
  | .alignmentLoss dt port iface cause lost => Sys2Proof.Machine.execAlignmentLoss dt port iface cause lost s
  | .unicastGrantExpiry dt port id => Sys2Proof.Machine.execUnicastGrantExpiry dt port id s

end Sys2Proof.Machine
end

