-- ==== Sys2Proof/WellFormed.lean ====
section
/-! DEFINITION. Well-formed commands: operands that a happening of this block can carry (widths of Tables 2.1 to 2.7, the packages,
dies, ports and interfaces of R8 and R332). The machine's step is total on ill-formed commands too. -/

namespace Sys2Proof

/- The checks. -/

/-- Port A is 0 and port B is 1. -/
def portOk (p : Nat) : Bool := decide (p ≤ 1)
/-- The two packages (R8). -/
def packageOk (p : Nat) : Bool := decide (p ≤ 1)
/-- A port has at most eight interfaces (Table 15.1). -/
def ifaceOk (i : Nat) : Bool := decide (i ≤ 7)
/-- The eight media dies (R8). -/
def dieOk (d : Nat) : Bool := decide (d ≤ 7)
/-- Clusters are numbered die × 24 + code. -/
def clusterOk (c : Nat) : Bool := decide (c < 192)
/-- The ten HBM stacks (Table 14.1). -/
def stackOk (k : Nat) : Bool := decide (k ≤ 9)
/-- The 32 pseudo-channels of a stack (Table 14.1). -/
def channelOk (c : Nat) : Bool := decide (c ≤ 31)
/-- IPv4 or IPv6. -/
def familyOk (f : Nat) : Bool := f == 4 || f == 6
/-- An address of either family: IPv4 addresses lie below 2^32. -/
def addressOk (a : Nat) : Bool := decide (a < 2 ^ 128)
/-- A 16-bit field: UDP port, tag, opcode. -/
def bits16 (n : Nat) : Bool := decide (n < 2 ^ 16)
/-- A 32-bit field: session, identifier. -/
def bits32 (n : Nat) : Bool := decide (n < 2 ^ 32)
/-- A 64-bit field: packet sequence. -/
def bits64 (n : Nat) : Bool := decide (n < 2 ^ 64)
/-- A protocol's packet cannot exceed the largest UDP payload, and its length field has 16 bits. -/
def blockOk (b : List Byte) : Bool := decide (b.length < 2 ^ 16)

def Machine.Peer.wf (p : Machine.Peer) : Bool := portOk p.port && ifaceOk p.iface && addressOk p.addr && bits16 p.udp && addressOk p.localAddr && bits16 p.localUdp && decide (p.vid < 4096)

def CmdRef.wf (r : CmdRef) : Bool := bits32 r.session && bits64 r.seq && bits16 r.tag

def HelloRx.wf (h : HelloRx) : Bool := h.peer.wf && blockOk h.bytes

def VcpRx.wf (x : VcpRx) : Bool := x.peer.wf && blockOk x.bytes

/-- A frame's bytes on an interface of a port. -/
def RtpRx.wf (p : RtpRx) : Bool := portOk p.port && ifaceOk p.iface && blockOk p.bytes

/-- The header of a PTP message (IEEE 1588). -/
def PtpRx.wf (x : PtpRx) : Bool := portOk x.port && decide (64 ≤ x.bytes.length)

/-- A frame's bytes on an interface of a port. -/
def FrameRx.wf (f : FrameRx) : Bool := portOk f.port && ifaceOk f.iface && blockOk f.bytes

/-- A well-formed command. -/
def Instr.wf : Instr → Bool
  | .clientHello h => h.wf
  | .clientFinish p => p.wf
  | .halfOpenTimeout _ id => bits32 id
  | .vcpPacketRejected p => p.wf
  | .cachedReplyResend p => p.wf
  | .reply _ session seq => bits32 session && bits64 seq
  | .sessionIdleTimeout _ id => bits32 id
  | .sessionExpiring _ id => bits32 id
  | .sessionExpiry _ id => bits32 id
  | .sessionErase _ id => bits32 id
  | .dhcpTimeout _ port => portOk port
  | .dhcpReply _ port family addr prefixLen gateway _ _ _ => portOk port && familyOk family && addressOk addr && decide (prefixLen ≤ 128) && addressOk gateway
  | .leaseExpiry _ port => portOk port
  | .heartbeat _ _ _ => true
  | .heartbeatLoss _ => true
  | .standbyLoss _ => true
  | .primaryLossNoStandby _ => true
  | .cmdNop r b => r.wf && blockOk b
  | .cmdSessionClose r b => r.wf && blockOk b
  | .cmdModuleInfo r b => r.wf && blockOk b
  | .cmdSetAddress r b => r.wf && blockOk b
  | .cmdClaimQuery r b => r.wf && blockOk b
  | .cmdClaimRelease r b => r.wf && blockOk b
  | .cmdEscapementStatus r b => r.wf && blockOk b
  | .cmdTableRead r b => r.wf && blockOk b
  | .cmdPoolStatus r b => r.wf && blockOk b
  | .cmdTaskTraceArm r b => r.wf && blockOk b
  | .cmdTaskTraceRead r b => r.wf && blockOk b
  | .cmdStreamCreate r b => r.wf && blockOk b
  | .cmdStreamDelete r b => r.wf && blockOk b
  | .cmdTargetAdd r b => r.wf && blockOk b
  | .cmdTargetSelect r b => r.wf && blockOk b
  | .cmdTargetRemove r b => r.wf && blockOk b
  | .cmdStreamPin r b => r.wf && blockOk b
  | .cmdStreamUnpin r b => r.wf && blockOk b
  | .cmdStreamStatus r b => r.wf && blockOk b
  | .cmdParseCounters r b => r.wf && blockOk b
  | .cmdKeyInstall r b => r.wf && blockOk b
  | .cmdKeyDelete r b => r.wf && blockOk b
  | .cmdKeyStatus r b => r.wf && blockOk b
  | .cmdKeyLimit r b => r.wf && blockOk b
  | .cmdKeyLink r b => r.wf && blockOk b
  | .cmdKeyRoll r b => r.wf && blockOk b
  | .cmdSealKey r b => r.wf && blockOk b
  | .cmdSealExportSend r b => r.wf && blockOk b
  | .cmdSealExportResend r b => r.wf && blockOk b
  | .cmdSealExportStatus r b => r.wf && blockOk b
  | .cmdSealExportDiscard r b => r.wf && blockOk b
  | .cmdSealImportArm r b => r.wf && blockOk b
  | .cmdSealImportStatus r b => r.wf && blockOk b
  | .cmdSealImportOpen r b => r.wf && blockOk b
  | .cmdSealImportDiscard r b => r.wf && blockOk b
  | .cmdLegSet r b => r.wf && blockOk b
  | .cmdLegDelete r b => r.wf && blockOk b
  | .cmdClassSet r b => r.wf && blockOk b
  | .cmdPolicerSet r b => r.wf && blockOk b
  | .cmdPolicerDelete r b => r.wf && blockOk b
  | .cmdPolicerStatus r b => r.wf && blockOk b
  | .cmdDscpColour r b => r.wf && blockOk b
  | .cmdLaunchTimerSet r b => r.wf && blockOk b
  | .cmdLaunchTimerFree r b => r.wf && blockOk b
  | .cmdLaunchTimerRead r b => r.wf && blockOk b
  | .cmdLaunchTimerChange r b => r.wf && blockOk b
  | .cmdQueueStatus r b => r.wf && blockOk b
  | .cmdQueueSampling r b => r.wf && blockOk b
  | .cmdDecodeCreate r b => r.wf && blockOk b
  | .cmdDecodeDelete r b => r.wf && blockOk b
  | .cmdDecodeSelect r b => r.wf && blockOk b
  | .cmdDecodeResync r b => r.wf && blockOk b
  | .cmdDecodeStatus r b => r.wf && blockOk b
  | .cmdDecodeLoad r b => r.wf && blockOk b
  | .cmdComposeCreate r b => r.wf && blockOk b
  | .cmdComposeDelete r b => r.wf && blockOk b
  | .cmdComposeLayer r b => r.wf && blockOk b
  | .cmdComposeRegion r b => r.wf && blockOk b
  | .cmdComposeStatus r b => r.wf && blockOk b
  | .cmdGraphicCreate r b => r.wf && blockOk b
  | .cmdGraphicWrite r b => r.wf && blockOk b
  | .cmdGraphicFlip r b => r.wf && blockOk b
  | .cmdGraphicDelete r b => r.wf && blockOk b
  | .cmdComposeFilter r b => r.wf && blockOk b
  | .cmdEncodeCreate r b => r.wf && blockOk b
  | .cmdEncodeDelete r b => r.wf && blockOk b
  | .cmdEncodeSet r b => r.wf && blockOk b
  | .cmdEncodeKeyframe r b => r.wf && blockOk b
  | .cmdEncodeRecovery r b => r.wf && blockOk b
  | .cmdEncodeStatus r b => r.wf && blockOk b
  | .cmdEncodeLoad r b => r.wf && blockOk b
  | .cmdAudioLegCreate r b => r.wf && blockOk b
  | .cmdAudioLegDelete r b => r.wf && blockOk b
  | .cmdAudioSet r b => r.wf && blockOk b
  | .cmdAudioStage r b => r.wf && blockOk b
  | .cmdAudioSteer r b => r.wf && blockOk b
  | .cmdAudioStatus r b => r.wf && blockOk b
  | .cmdAudioLoad r b => r.wf && blockOk b
  | .cmdAudioTableRead r b => r.wf && blockOk b
  | .cmdXpNode r b => r.wf && blockOk b
  | .cmdXpTieConnect r b => r.wf && blockOk b
  | .cmdXpTieFree r b => r.wf && blockOk b
  | .cmdXpTalkerGroupSet r b => r.wf && blockOk b
  | .cmdXpTalkerGroupDelete r b => r.wf && blockOk b
  | .cmdXpTalkerMemberAdd r b => r.wf && blockOk b
  | .cmdXpTalkerMemberRemove r b => r.wf && blockOk b
  | .cmdXpNodeRead r b => r.wf && blockOk b
  | .cmdXpStatus r b => r.wf && blockOk b
  | .cmdXpTalkers r b => r.wf && blockOk b
  | .cmdXpGainTableRead r b => r.wf && blockOk b
  | .cmdBeaconSet r b => r.wf && blockOk b
  | .cmdBeaconStatus r b => r.wf && blockOk b
  | .cmdBeaconHeard r b => r.wf && blockOk b
  | .cmdBeaconLoading r b => r.wf && blockOk b
  | .cmdBeaconTableRead r b => r.wf && blockOk b
  | .cmdTimeStatus r b => r.wf && blockOk b
  | .cmdPtpClock r b => r.wf && blockOk b
  | .cmdPtpPort r b => r.wf && blockOk b
  | .cmdPtpPortStatus r b => r.wf && blockOk b
  | .cmdRegulatorSet r b => r.wf && blockOk b
  | .cmdRegulatorForceHoldover r b => r.wf && blockOk b
  | .cmdRegulatorReleaseHoldover r b => r.wf && blockOk b
  | .cmdTimeSet r b => r.wf && blockOk b
  | .cmdTimeIn r b => r.wf && blockOk b
  | .cmdTimeOutSet r b => r.wf && blockOk b
  | .cmdTimeOutFree r b => r.wf && blockOk b
  | .cmdTimeOutChange r b => r.wf && blockOk b
  | .cmdHbmStatus r b => r.wf && blockOk b
  | .cmdMemRead r b _ => r.wf && blockOk b
  | .cmdFifoStatus r b => r.wf && blockOk b
  | .cmdAudit r b => r.wf && blockOk b
  | .cmdPortMode r b => r.wf && blockOk b
  | .cmdPortStatus r b => r.wf && blockOk b
  | .cmdLaneStatus r b => r.wf && blockOk b
  | .cmdLaneQuiet r b => r.wf && blockOk b
  | .cmdLaneTestEnd r b => r.wf && blockOk b
  | .cmdLaneTestNearLoopback r b => r.wf && blockOk b
  | .cmdLaneTestFarLoopback r b => r.wf && blockOk b
  | .cmdLaneTestPrbs r b => r.wf && blockOk b
  | .cmdLaneTestSlip r b => r.wf && blockOk b
  | .cmdLaneTestTxFfe r b => r.wf && blockOk b
  | .cmdLaneTestFreeze r b => r.wf && blockOk b
  | .cmdLaneTestResume r b => r.wf && blockOk b
  | .cmdCmisRead r b => r.wf && blockOk b
  | .cmdCmisWrite r b => r.wf && blockOk b
  | .cmdEventSubscribe r b => r.wf && blockOk b
  | .cmdEventCancel r b => r.wf && blockOk b
  | .cmdEventStatus r b => r.wf && blockOk b
  | .cmdEventReplay r b => r.wf && blockOk b
  | .cmdEventRaise r b => r.wf && blockOk b
  | .cmdStartReport r b => r.wf && blockOk b
  | .cmdResetRestart r b => r.wf && blockOk b
  | .cmdResetRecoverDie r b => r.wf && blockOk b
  | .cmdResetClearRestart r b => r.wf && blockOk b
  | .cmdIdentity r b => r.wf && blockOk b
  | .cmdAttest r b => r.wf && blockOk b
  | .cmdFirmwareWrite r b => r.wf && blockOk b
  | .cmdFirmwareCommit r b => r.wf && blockOk b
  | .cmdFirmwareStatus r b => r.wf && blockOk b
  | .cmdOtpRead r b => r.wf && blockOk b
  | .cmdOtpWriteSettings r b => r.wf && blockOk b
  | .cmdOtpWriteRepairs r b => r.wf && blockOk b
  | .cmdBistControl r b => r.wf && blockOk b
  | .cmdBistResults r b => r.wf && blockOk b
  | .cmdTestRunStart r b => r.wf && blockOk b
  | .cmdTestRunStatus r b => r.wf && blockOk b
  | .cmdTestRunAbort r b => r.wf && blockOk b
  | .cmdDieFence r b => r.wf && blockOk b
  | .cmdTestUnlock r b => r.wf && blockOk b
  | .triggerWord _ die kind _ _ _ => dieOk die && decide (kind ≤ 1)
  | .beatTrigger _ die kind _ => dieOk die && decide (kind ≤ 1)
  | .escapementWalk _ cluster => clusterOk cluster
  | .escapementResume _ cluster => clusterOk cluster
  | .taskStart _ die _ => dieOk die
  | .taskExpired _ die _ => dieOk die
  | .testWindow _ die _ => dieOk die
  | .decodeTask _ die _ _ => dieOk die
  | .composeTask _ die _ _ _ => dieOk die
  | .graphicCopy _ surface => bits32 surface
  | .encodeTask _ die _ _ _ => dieOk die
  | .gangFinish _ die _ _ _ => dieOk die
  | .receiveTask _ die _ _ => dieOk die
  | .sendTask _ die _ _ _ => dieOk die
  | .mix _ die _ _ _ _ => dieOk die
  | .talkerSelection _ die => dieOk die
  | .beaconLost _ leg => bits32 leg
  | .receivedFrame f => f.wf
  | .rtpPacket p => p.wf
  | .expressPacket p => p.wf
  | .tagVerdict _ _ => true
  | .ingressFrameEnd _ _ => true
  | .rtcpPacket f => f.wf
  | .keyAutoRoll _ key => bits32 key
  | .migrationSegment f => f.wf
  | .sealComplete _ pkg => packageOk pkg
  | .segmentSend _ pkg => packageOk pkg
  | .egressSelect _ port iface => portOk port && ifaceOk iface
  | .transmitComplete _ port iface => portOk port && ifaceOk iface
  | .launchWindowOpen _ timer => bits32 timer
  | .queueSample _ pkg => packageOk pkg
  | .auAbandon _ stream => bits32 stream
  | .ptpSyncReceived x => x.wf
  | .ptpDelayReqReceived x => x.wf
  | .ptpDelayRespReceived x => x.wf
  | .ptpAnnounceReceived x => x.wf
  | .announceTimeout _ port => portOk port
  | .unicastNegotiation x => x.wf
  | .ptpSyncSend _ port => portOk port
  | .ptpDelayReqSend _ port => portOk port
  | .ptpAnnounceSend _ port => portOk port
  | .regulatorUpdate _ => true
  | .sourceTimeout _ => true
  | .holdoverExpired _ => true
  | .timeInEdge _ _ => true
  | .timeInAverage _ _ => true
  | .timeInLost _ _ => true
  | .timeOutEdge _ => true
  | .oneShot _ => true
  | .counterCompare _ _ => true
  | .replicaCheck _ die _ => dieOk die
  | .ocxoStable _ => true
  | .refreshDue _ stack pch issued _ => stackOk stack && channelOk pch && decide (issued ≤ 8)
  | .temperatureReading _ stack _ => stackOk stack
  | .hbmScrub _ stack pch _ => stackOk stack && channelOk pch
  | .beatAudit _ place _ => stackOk place
  | .opticsInserted _ port _ _ _ _ => portOk port
  | .opticsRemoved _ port => portOk port
  | .cmisPoll _ port _ _ _ _ _ => portOk port
  | .bringupStageComplete _ port iface mode _ => portOk port && ifaceOk iface && decide (mode ≤ 3)
  | .bringupStageTimeout _ port iface => portOk port && ifaceOk iface
  | .bringupRetry _ port iface => portOk port && ifaceOk iface
  | .upHoldEnd _ port iface => portOk port && ifaceOk iface
  | .downHoldEnd _ port iface => portOk port && ifaceOk iface
  | .fecWindow _ port iface _ _ _ => portOk port && ifaceOk iface
  | .iplReplay _ dir => packageOk dir
  | .laneFailure _ dir lane _ _ => packageOk dir && decide (lane ≤ 17)
  | .eventArrival _ _ _ => true
  | .eventRelease _ => true
  | .eventPacketSend _ sub kind => bits32 sub && decide (kind ≤ 1)
  | .mainsApplied _ => true
  | .startStageComplete _ _ => true
  | .startStageTimeout _ _ => true
  | .restartDelay _ => true
  | .settingModeRetry _ => true
  | .dieToDieLinkFailure _ die => dieOk die
  | .dieRecoveryComplete _ die _ => dieOk die
  | .bistSliceStart _ die kind target => dieOk die && decide (1 ≤ kind ∧ kind ≤ 7) && bits32 target
  | .bistSliceEnd _ die target _ _ => dieOk die && bits32 target
  | .onCommandTestComplete _ die _ _ _ _ => dieOk die
  | .jumper _ _ => true
  | .thermalLoop _ _ _ => true
  | .fanFailed _ fan _ => decide (fan < 6)
  | .thermalStop _ site => bits32 site
  | .mainsInterruption _ => true
  | .holdUpExpiry _ => true
  | .mainsRestored _ => true
  | .standbyRailDrop _ => true
  | .psuInput _ state _ => decide (state ≤ 1)
  | .psuFault _ _ cause => decide (1 ≤ cause ∧ cause ≤ 3)
  | .effectiveInstant _ => true
  | .leaseRenewal _ port => portOk port
  | .dhcpRetransmission _ port => portOk port
  | .dfeTapLimit _ port lane tap => portOk port && decide (lane ≤ 7) && decide (16 ≤ tap ∧ tap ≤ 27)
  | .ocxoAlarm _ _ => true
  | .alignmentLoss _ port iface _ _ => portOk port && ifaceOk iface
  | .unicastGrantExpiry _ port id => portOk port && bits32 id

end Sys2Proof
end

