-- ==== Sys2Proof/Safety.lean ====
section
/-! DEFINITION. The terms in which statements speak of a run: when a command of a packet is taken and accepted, what an accepted one
leaves (R45, R55, R68), the canonical form of claims (R55), and the machine's invariant. -/

namespace Sys2Proof.Machine

/-- The command stands next (R44): the module is live, the packet is the one to execute, and its first record that is not of an
undefined opcode is this command. The state is the one in which that record has been taken off. -/
def CmdDef.taken (d : CmdDef) (r : CmdRef) (b : List Byte) (s : State) : Option (State × ExecPkt) :=
  let z := s.advance r.dt
  match z.running with
  | none => none
  | some p0 =>
    if z.live && p0.session == r.session && p0.seq == r.seq then
      let (y, p) := flushUndefined z p0 p0.todo
      match p.todo with
      | [] => none
      | x :: rest => if d.isNext r b x then some (y.setPacket { p with todo := rest }, { p with todo := rest }) else none
    else none

/-- The command is accepted: its packet has not stopped, the module runs it, and every step of R68 passes; with what its checks saw. -/
def CmdDef.accepts (d : CmdDef) (r : CmdRef) (b : List Byte) (s : State) : Option (State × ExecPkt × Env) :=
  match d.taken r b s with
  | none => none
  | some (z, p) =>
    if p.stopped || (d.barred z r.firmwareFault).isSome then none
    else match d.parse b with
      | .error _ => none
      | .ok (v, tl) => if (d.refuses z p (envOf z p d.reads v tl)).isSome then none else some (z, p, envOf z p d.reads v tl)

/-- The command is refused by a check of R68, with this error; and the changes that the refusal itself makes. -/
def CmdDef.rejects (d : CmdDef) (r : CmdRef) (b : List Byte) (s : State) : Option (State × ExecPkt × Err × List Change) :=
  match d.taken r b s with
  | none => none
  | some (z, p) =>
    if p.stopped || (d.barred z r.firmwareFault).isSome then none
    else match d.parse b with
      | .error x => some (z, p, x, [])
      | .ok (v, tl) =>
        let e := envOf z p d.reads v tl
        (d.refuses z p e).map (fun x => (z, p, x, d.onFail e x))

/-- The claims that an accepted command takes, numbered from the next identifier on (R55). -/
def newClaims (z : State) (p : ExecPkt) (opcode : Nat) (l : List (Nat × Resource)) : List Claim :=
  l.zipIdx.map (fun c => { id := z.vcp.nextClaim + c.2, site := c.1.1, session := p.session, opcode := opcode, taken := z.now, res := c.1.2 })

/-- What an accepted command leaves: its changes are staged behind those already there, its claims are held under the next
identifiers, and its packet has one more result record, OK with the result block. -/
def State.completed (z : State) (p : ExecPkt) (opcode tag : Nat) (o : CmdOut) : State :=
  let new := newClaims z p opcode o.claims
  let z1 : State :=
    { z with staged := z.staged ++ o.stage.map (fun c => { session := p.session, seq := p.seq, scope := c.1, change := c.2 })
             vcp := { z.vcp with claims := z.vcp.claims ++ new, nextClaim := z.vcp.nextClaim + o.claims.length } }
  (applyAll o.atOnce z1).setPacket
    { p with results := p.results ++ [{ opcode := opcode, tag := tag, status := .ok, block := o.result }]
             claims := p.claims ++ new.map (·.id) }

/-- What a command leaves of which only a result record comes: status and block as given (R38, R51). -/
def State.answered (z : State) (p : ExecPkt) (opcode tag : Nat) (st : Status) (block : List Byte) : State :=
  z.setPacket { p with results := p.results ++ [{ opcode := opcode, tag := tag, status := st, block := block }] }

/-- The command c, which is row d, completes with that row's own effect whenever it is accepted. -/
def CmdDef.Completes (d : CmdDef) (c : CmdRef → List Byte → Instr) : Prop :=
  ∀ (r : CmdRef) (b : List Byte) (s z : State) (p : ExecPkt) (e : Env),
    d.accepts r b s = some (z, p, e) → exec (c r b) s = .next (z.completed p d.opcode r.tag (d.effect e))

/-- The command only reads: what it leaves differs from what it met in its packet's record alone. -/
def CmdDef.ReadsOnly (d : CmdDef) (c : CmdRef → List Byte → Instr) : Prop :=
  ∀ (r : CmdRef) (b : List Byte) (s z : State) (p : ExecPkt) (e : Env),
    d.accepts r b s = some (z, p, e) →
    exec (c r b) s = .next (z.answered p d.opcode r.tag .ok (d.effect e).result)

/-- The command of a packet that a row is: its form, its packet and its block. The other rows are none. -/
def packetCommand (i : Instr) : Option (CmdDef × CmdRef × List Byte) :=
  match i with
  | .cmdNop r b => some (nopDef, r, b)
  | .cmdSessionClose r b => some (sessionCloseDef, r, b)
  | .cmdModuleInfo r b => some (moduleInfoDef, r, b)
  | .cmdSetAddress r b => some (setAddressDef, r, b)
  | .cmdClaimQuery r b => some (claimQueryDef, r, b)
  | .cmdClaimRelease r b => some (claimReleaseDef, r, b)
  | .cmdEscapementStatus r b => some (escStatusDef, r, b)
  | .cmdTableRead r b => some (tableReadDef, r, b)
  | .cmdPoolStatus r b => some (poolStatusDef, r, b)
  | .cmdTaskTraceArm r b => some (traceArmDef, r, b)
  | .cmdTaskTraceRead r b => some (traceReadDef, r, b)
  | .cmdStreamCreate r b => some (streamCreateDef, r, b)
  | .cmdStreamDelete r b => some (streamDeleteDef, r, b)
  | .cmdTargetAdd r b => some (targetAddDef, r, b)
  | .cmdTargetSelect r b => some (targetSelectDef, r, b)
  | .cmdTargetRemove r b => some (targetRemoveDef, r, b)
  | .cmdStreamPin r b => some (streamPinDef, r, b)
  | .cmdStreamUnpin r b => some (streamUnpinDef, r, b)
  | .cmdStreamStatus r b => some (streamStatusDef, r, b)
  | .cmdParseCounters r b => some (parseCountersDef, r, b)
  | .cmdKeyInstall r b => some (keyInstallDef, r, b)
  | .cmdKeyDelete r b => some (keyDeleteDef, r, b)
  | .cmdKeyStatus r b => some (keyStatusDef, r, b)
  | .cmdKeyLimit r b => some (keyLimitDef, r, b)
  | .cmdKeyLink r b => some (keyLinkDef, r, b)
  | .cmdKeyRoll r b => some (keyRollDef, r, b)
  | .cmdSealKey r b => some (sealKeyDef, r, b)
  | .cmdSealExportSend r b => some (exportSendDef, r, b)
  | .cmdSealExportResend r b => some (exportResendDef, r, b)
  | .cmdSealExportStatus r b => some (exportStatusDef, r, b)
  | .cmdSealExportDiscard r b => some (exportDiscardDef, r, b)
  | .cmdSealImportArm r b => some (importArmDef, r, b)
  | .cmdSealImportStatus r b => some (importStatusDef, r, b)
  | .cmdSealImportOpen r b => some (importOpenDef, r, b)
  | .cmdSealImportDiscard r b => some (importDiscardDef, r, b)
  | .cmdLegSet r b => some (legSetDef, r, b)
  | .cmdLegDelete r b => some (legDeleteDef, r, b)
  | .cmdClassSet r b => some (classSetDef, r, b)
  | .cmdPolicerSet r b => some (policerSetDef, r, b)
  | .cmdPolicerDelete r b => some (policerDeleteDef, r, b)
  | .cmdPolicerStatus r b => some (policerStatusDef, r, b)
  | .cmdDscpColour r b => some (dscpColourDef, r, b)
  | .cmdLaunchTimerSet r b => some (timerSetDef, r, b)
  | .cmdLaunchTimerFree r b => some (timerFreeDef, r, b)
  | .cmdLaunchTimerRead r b => some (timerReadDef, r, b)
  | .cmdLaunchTimerChange r b => some (timerChangeDef, r, b)
  | .cmdQueueStatus r b => some (queueStatusDef, r, b)
  | .cmdQueueSampling r b => some (queueSamplingDef, r, b)
  | .cmdDecodeCreate r b => some (decodeCreateDef, r, b)
  | .cmdDecodeDelete r b => some (decodeDeleteDef, r, b)
  | .cmdDecodeSelect r b => some (decodeSelectDef, r, b)
  | .cmdDecodeResync r b => some (decodeResyncDef, r, b)
  | .cmdDecodeStatus r b => some (decodeStatusDef, r, b)
  | .cmdDecodeLoad r b => some (decodeLoadDef, r, b)
  | .cmdComposeCreate r b => some (composeCreateDef, r, b)
  | .cmdComposeDelete r b => some (composeDeleteDef, r, b)
  | .cmdComposeLayer r b => some (composeLayerDef, r, b)
  | .cmdComposeRegion r b => some (composeRegionDef, r, b)
  | .cmdComposeStatus r b => some (composeStatusDef, r, b)
  | .cmdGraphicCreate r b => some (graphicCreateDef, r, b)
  | .cmdGraphicWrite r b => some (graphicWriteDef, r, b)
  | .cmdGraphicFlip r b => some (graphicFlipDef, r, b)
  | .cmdGraphicDelete r b => some (graphicDeleteDef, r, b)
  | .cmdComposeFilter r b => some (composeFilterDef, r, b)
  | .cmdEncodeCreate r b => some (encodeCreateDef, r, b)
  | .cmdEncodeDelete r b => some (encodeDeleteDef, r, b)
  | .cmdEncodeSet r b => some (encodeSetDef, r, b)
  | .cmdEncodeKeyframe r b => some (encodeKeyframeDef, r, b)
  | .cmdEncodeRecovery r b => some (encodeRecoveryDef, r, b)
  | .cmdEncodeStatus r b => some (encodeStatusDef, r, b)
  | .cmdEncodeLoad r b => some (encodeLoadDef, r, b)
  | .cmdAudioLegCreate r b => some (audioLegCreateDef, r, b)
  | .cmdAudioLegDelete r b => some (audioLegDeleteDef, r, b)
  | .cmdAudioSet r b => some (audioSetDef, r, b)
  | .cmdAudioStage r b => some (audioStageDef, r, b)
  | .cmdAudioSteer r b => some (audioSteerDef, r, b)
  | .cmdAudioStatus r b => some (audioStatusDef, r, b)
  | .cmdAudioLoad r b => some (audioLoadDef, r, b)
  | .cmdAudioTableRead r b => some (audioTableDef, r, b)
  | .cmdXpNode r b => some (xpNodeDef, r, b)
  | .cmdXpTieConnect r b => some (tieConnectDef, r, b)
  | .cmdXpTieFree r b => some (tieFreeDef, r, b)
  | .cmdXpTalkerGroupSet r b => some (groupSetDef, r, b)
  | .cmdXpTalkerGroupDelete r b => some (groupDeleteDef, r, b)
  | .cmdXpTalkerMemberAdd r b => some (memberAddDef, r, b)
  | .cmdXpTalkerMemberRemove r b => some (memberRemoveDef, r, b)
  | .cmdXpNodeRead r b => some (xpNodeReadDef, r, b)
  | .cmdXpStatus r b => some (xpStatusDef, r, b)
  | .cmdXpTalkers r b => some (xpTalkersDef, r, b)
  | .cmdXpGainTableRead r b => some (gainTableDef, r, b)
  | .cmdBeaconSet r b => some (beaconSetDef, r, b)
  | .cmdBeaconStatus r b => some (beaconStatusDef, r, b)
  | .cmdBeaconHeard r b => some (beaconHeardDef, r, b)
  | .cmdBeaconLoading r b => some (beaconLoadingDef, r, b)
  | .cmdBeaconTableRead r b => some (beaconTableDef, r, b)
  | .cmdTimeStatus r b => some (timeStatusDef, r, b)
  | .cmdPtpClock r b => some (ptpClockDef, r, b)
  | .cmdPtpPort r b => some (ptpPortDef, r, b)
  | .cmdPtpPortStatus r b => some (ptpPortStatusDef, r, b)
  | .cmdRegulatorSet r b => some (regulatorSetDef, r, b)
  | .cmdRegulatorForceHoldover r b => some (regulatorForceDef, r, b)
  | .cmdRegulatorReleaseHoldover r b => some (regulatorReleaseDef, r, b)
  | .cmdTimeSet r b => some (timeSetDef, r, b)
  | .cmdTimeIn r b => some (timeInDef, r, b)
  | .cmdTimeOutSet r b => some (timeOutSetDef, r, b)
  | .cmdTimeOutFree r b => some (timeOutFreeDef, r, b)
  | .cmdTimeOutChange r b => some (timeOutChangeDef, r, b)
  | .cmdHbmStatus r b => some (hbmStatusDef, r, b)
  | .cmdMemRead r b found => some (memReadDef found, r, b)
  | .cmdFifoStatus r b => some (fifoStatusDef, r, b)
  | .cmdAudit r b => some (auditDef, r, b)
  | .cmdPortMode r b => some (portModeDef, r, b)
  | .cmdPortStatus r b => some (portStatusDef, r, b)
  | .cmdLaneStatus r b => some (laneStatusDef, r, b)
  | .cmdLaneQuiet r b => some (laneQuietDef, r, b)
  | .cmdLaneTestEnd r b => some (laneTestEndDef, r, b)
  | .cmdLaneTestNearLoopback r b => some (laneTestNearLoopbackDef, r, b)
  | .cmdLaneTestFarLoopback r b => some (laneTestFarLoopbackDef, r, b)
  | .cmdLaneTestPrbs r b => some (laneTestPrbsDef, r, b)
  | .cmdLaneTestSlip r b => some (laneTestSlipDef, r, b)
  | .cmdLaneTestTxFfe r b => some (laneTestTxFfeDef, r, b)
  | .cmdLaneTestFreeze r b => some (laneTestFreezeDef, r, b)
  | .cmdLaneTestResume r b => some (laneTestResumeDef, r, b)
  | .cmdCmisRead r b => some (cmisReadDef, r, b)
  | .cmdCmisWrite r b => some (cmisWriteDef, r, b)
  | .cmdEventSubscribe r b => some (cmdEventSubscribe, r, b)
  | .cmdEventCancel r b => some (cmdEventCancel, r, b)
  | .cmdEventStatus r b => some (cmdEventStatus, r, b)
  | .cmdEventReplay r b => some (cmdEventReplay, r, b)
  | .cmdEventRaise r b => some (cmdEventRaise, r, b)
  | .cmdStartReport r b => some (startReportDef, r, b)
  | .cmdResetRestart r b => some (resetRestartDef, r, b)
  | .cmdResetRecoverDie r b => some (resetRecoverDieDef, r, b)
  | .cmdResetClearRestart r b => some (resetClearDef, r, b)
  | .cmdIdentity r b => some (identityDef, r, b)
  | .cmdAttest r b => some (attestDef, r, b)
  | .cmdFirmwareWrite r b => some (firmwareWriteDef, r, b)
  | .cmdFirmwareCommit r b => some (firmwareCommitDef, r, b)
  | .cmdFirmwareStatus r b => some (firmwareStatusDef, r, b)
  | .cmdOtpRead r b => some (otpReadDef, r, b)
  | .cmdOtpWriteSettings r b => some (otpWriteSettingsDef, r, b)
  | .cmdOtpWriteRepairs r b => some (otpWriteRepairsDef, r, b)
  | .cmdBistControl r b => some (bistControlDef, r, b)
  | .cmdBistResults r b => some (bistResultsDef, r, b)
  | .cmdTestRunStart r b => some (testRunStartDef, r, b)
  | .cmdTestRunStatus r b => some (testRunStatusDef, r, b)
  | .cmdTestRunAbort r b => some (testRunAbortDef, r, b)
  | .cmdDieFence r b => some (dieFenceDef, r, b)
  | .cmdTestUnlock r b => some (testUnlockDef, r, b)
  | _ => none

/-- The commands that change something at once: a peak, a postponed count, the errors that a read or an audit meets, or the event of an
image opened in vain. -/
def changesAtOnce (i : Instr) : Bool :=
  match i with
  | .cmdPoolStatus _ _ | .cmdHbmStatus _ _ | .cmdMemRead _ _ _ | .cmdAudit _ _ | .cmdSealImportOpen _ _ => true
  | _ => false

/-- Claims in their canonical form (R55): identifiers strictly rise in the order in which they were taken, and lie below the next one,
so none is ever given twice. -/
def VcpState.claimsOk (v : VcpState) : Prop :=
  v.claims.Pairwise (fun a b => a.id < b.id) ∧ ∀ c ∈ v.claims, c.id < v.nextClaim

/-- The invariant of the claims. -/
def State.ClaimsInv (s : State) : Prop := s.vcp.claimsOk

/- What a command leaves unchanged. -/

/-- The parts of the state. The claims are a part of their own; `vcp` is the rest of the command complex. -/
inductive Part where
  | queue | now | staged | claims | vcp | role | escs | pools | fwd | cipher | egress | video | audio | time | mem | ports | events | start | power
deriving DecidableEq, Repr

/-- The part p is the same in both states. -/
def Part.same : Part → State → State → Prop
  | .queue, s, t => t.pending = s.pending
  | .now, s, t => t.now = s.now
  | .staged, s, t => t.staged = s.staged
  | .claims, s, t => t.vcp.claims = s.vcp.claims ∧ t.vcp.nextClaim = s.vcp.nextClaim
  | .vcp, s, t => { t.vcp with claims := [], nextClaim := 0 } = { s.vcp with claims := [], nextClaim := 0 }
  | .role, s, t => t.role = s.role
  | .escs, s, t => t.escs = s.escs
  | .pools, s, t => t.pools = s.pools
  | .fwd, s, t => t.fwd = s.fwd
  | .cipher, s, t => t.cipher = s.cipher
  | .egress, s, t => t.egress = s.egress
  | .video, s, t => t.video = s.video
  | .audio, s, t => t.audio = s.audio
  | .time, s, t => t.time = s.time
  | .mem, s, t => t.mem = s.mem
  | .ports, s, t => t.ports = s.ports
  | .events, s, t => t.events = s.events
  | .start, s, t => t.start = s.start
  | .power, s, t => t.power = s.power

/-- The state t differs from s in no part but those listed. -/
def Within (l : List Part) (s t : State) : Prop := ∀ p, p ∉ l → p.same s t

/-- The outcome is a next state, which differs from s in no part but those listed. -/
def NextWithin (l : List Part) (s : State) (o : Out) : Prop := ∃ t, o = .next t ∧ Within l s t

/-- The state on which a composition of beat c works: with the output that beats before its removal still have (R64). -/
def State.forOutput (s : State) (id : Nat) (c : Instant) : State :=
  match s.goneAt id c GoneObj.asOutput with
  | some g => s.setOutput id g
  | none => s

/-- The state on which an encode of beat c works: with the leg that beats before its removal still have (R64). -/
def State.forEncode (s : State) (id : Nat) (c : Instant) : State :=
  match s.goneAt id c GoneObj.asEncode with
  | some g => s.setEncode id g
  | none => s

/-- Every part but the queue, which no command touches. -/
def allParts : List Part :=
  [.now, .staged, .claims, .vcp, .role, .escs, .pools, .fwd, .cipher, .egress, .video, .audio, .time, .mem, .ports, .events, .start, .power]

/-- For a row that is no command of a packet: the time since the command before it, and the parts of the state that it may change. A task
takes the changes that wait for its object, which may be of any part; a start, a loss of the outputs and a step of the timebase reach most
parts. -/
def rowParts (i : Instr) : Option (Nat × List Part) :=
  match i with
  | .clientHello h => some (h.dt, [.vcp, .egress, .ports])
  | .clientFinish p => some (p.dt, [.vcp, .egress, .ports, .events])
  | .halfOpenTimeout dt _ => some (dt, [.vcp])
  | .vcpPacketRejected p => some (p.dt, [.vcp, .egress, .ports, .events])
  | .cachedReplyResend p => some (p.dt, [.vcp, .egress, .ports])
  | .reply dt _ _ => some (dt, allParts)
  | .sessionIdleTimeout dt _ => some (dt, [.staged, .vcp, .events])
  | .sessionExpiring dt _ => some (dt, [.vcp, .events])
  | .sessionExpiry dt _ => some (dt, [.vcp, .events])
  | .sessionErase dt _ => some (dt, [.staged, .vcp, .events])
  | .dhcpTimeout dt _ => some (dt, [.vcp, .egress, .ports])
  | .dhcpReply dt _ _ _ _ _ _ _ _ => some (dt, [.vcp])
  | .leaseExpiry dt _ => some (dt, [.vcp, .egress, .ports])
  | .heartbeat dt _ _ => some (dt, [.role])
  | .heartbeatLoss dt => some (dt, allParts.erase .now)
  | .standbyLoss dt => some (dt, allParts.erase .now)
  | .primaryLossNoStandby dt => some (dt, allParts.erase .now)
  | .triggerWord dt _ _ _ _ _ => some (dt, [.pools, .mem, .events])
  | .beatTrigger dt _ _ _ => some (dt, [.pools, .video])
  | .escapementWalk dt _ => some (dt, [.escs, .pools, .video, .events])
  | .escapementResume dt _ => some (dt, [.escs, .pools, .video, .events])
  | .taskStart dt _ _ => some (dt, [.escs, .pools, .video, .events])
  | .taskExpired dt _ _ => some (dt, [.escs, .pools, .video, .events])
  | .testWindow dt _ _ => some (dt, [.escs, .pools, .video, .mem, .events, .start])
  | .decodeTask dt _ _ _ => some (dt, [.escs, .pools, .video, .mem, .events])
  | .composeTask dt _ _ _ _ => some (dt, allParts)
  | .graphicCopy dt _ => some (dt, [.video])
  | .encodeTask dt _ _ _ _ => some (dt, allParts)
  | .gangFinish dt _ _ _ _ => some (dt, [.escs, .pools, .fwd, .cipher, .egress, .video, .mem, .events])
  | .receiveTask dt _ _ _ => some (dt, allParts)
  | .sendTask dt _ _ _ _ => some (dt, allParts)
  | .mix dt _ _ _ _ _ => some (dt, allParts)
  | .talkerSelection dt _ => some (dt, [.audio, .events])
  | .beaconLost dt _ => some (dt, [.audio, .events])
  | .receivedFrame f => some (f.dt, [.vcp, .fwd, .egress, .time, .mem, .ports, .events])
  | .rtpPacket p => some (p.dt, [.escs, .pools, .fwd, .cipher, .egress, .video, .audio, .mem, .events])
  | .expressPacket p => some (p.dt, [.fwd, .cipher, .egress, .mem, .events])
  | .tagVerdict dt _ => some (dt, [.escs, .pools, .fwd, .egress, .video, .audio, .events])
  | .ingressFrameEnd dt _ => some (dt, [.fwd, .egress, .events])
  | .rtcpPacket f => some (f.dt, [.fwd, .cipher, .egress, .video, .mem, .ports, .events])
  | .keyAutoRoll dt _ => some (dt, [.fwd, .cipher])
  | .migrationSegment f => some (f.dt, [.cipher, .events])
  | .sealComplete dt _ => some (dt, [.cipher, .events])
  | .segmentSend dt _ => some (dt, [.cipher, .egress, .events])
  | .egressSelect dt _ _ => some (dt, [.fwd, .egress, .time, .ports, .events])
  | .transmitComplete dt _ _ => some (dt, [.egress, .ports])
  | .launchWindowOpen dt _ => some (dt, [.egress, .events])
  | .queueSample dt _ => some (dt, [.egress, .events])
  | .auAbandon dt _ => some (dt, [.escs, .pools, .video, .events])
  | .ptpSyncReceived x => some (x.dt, [.egress, .time, .mem, .ports, .events])
  | .ptpDelayReqReceived x => some (x.dt, [.egress, .time, .mem, .ports, .events])
  | .ptpDelayRespReceived x => some (x.dt, [.egress, .time, .mem, .ports, .events])
  | .ptpAnnounceReceived x => some (x.dt, [.egress, .time, .mem, .ports, .events])
  | .announceTimeout dt _ => some (dt, [.time, .events])
  | .unicastNegotiation x => some (x.dt, [.egress, .time, .mem, .ports, .events])
  | .ptpSyncSend dt _ => some (dt, [.egress, .time, .ports])
  | .ptpDelayReqSend dt _ => some (dt, [.egress, .time, .ports])
  | .ptpAnnounceSend dt _ => some (dt, [.egress, .time, .ports])
  | .regulatorUpdate dt => some (dt, [.now, .vcp, .role, .escs, .pools, .egress, .time, .mem, .ports, .events, .start, .power])
  | .sourceTimeout dt => some (dt, [.time, .events])
  | .holdoverExpired dt => some (dt, [.time, .events])
  | .timeInEdge dt _ => some (dt, [.time, .events])
  | .timeInAverage dt _ => some (dt, [.time, .events])
  | .timeInLost dt _ => some (dt, [.time, .events])
  | .timeOutEdge dt => some (dt, [.time])
  | .oneShot dt => some (dt, [.time, .events])
  | .counterCompare dt _ => some (dt, [.time])
  | .replicaCheck dt _ _ => some (dt, [.pools, .events])
  | .ocxoStable dt => some (dt, [.time, .events])
  | .refreshDue dt _ _ _ _ => some (dt, [.mem])
  | .temperatureReading dt _ _ => some (dt, [.mem, .events])
  | .hbmScrub dt _ _ _ => some (dt, [.mem, .events])
  | .beatAudit dt _ _ => some (dt, [.mem, .events])
  | .opticsInserted dt _ _ _ _ _ => some (dt, [.ports, .events])
  | .opticsRemoved dt _ => some (dt, [.time, .ports, .events])
  | .cmisPoll dt _ _ _ _ _ _ => some (dt, [.time, .ports, .events])
  | .bringupStageComplete dt _ _ _ _ => some (dt, [.time, .ports, .events])
  | .bringupStageTimeout dt _ _ => some (dt, [.ports, .events])
  | .bringupRetry dt _ _ => some (dt, [.ports])
  | .upHoldEnd dt _ _ => some (dt, [.time, .ports, .events])
  | .downHoldEnd dt _ _ => some (dt, [.time, .ports, .events])
  | .fecWindow dt _ _ _ _ _ => some (dt, [.ports, .events])
  | .iplReplay dt _ => some (dt, [.ports, .events])
  | .laneFailure dt _ _ _ _ => some (dt, [.ports, .events])
  | .eventArrival dt _ _ => some (dt, [.mem, .events])
  | .eventRelease dt => some (dt, [.events])
  | .eventPacketSend dt _ _ => some (dt, [.vcp, .egress, .ports, .events])
  | .mainsApplied dt => some (dt, allParts)
  | .startStageComplete dt _ => some (dt, allParts.erase .now)
  | .startStageTimeout dt _ => some (dt, allParts.erase .now)
  | .restartDelay dt => some (dt, allParts)
  | .settingModeRetry dt => some (dt, allParts)
  | .dieToDieLinkFailure dt _ => some (dt, [.claims, .escs, .pools, .cipher, .events, .start])
  | .dieRecoveryComplete dt _ _ => some (dt, [.escs, .pools, .audio, .mem, .events, .start])
  | .bistSliceStart dt _ _ _ => some (dt, [.claims, .cipher, .start])
  | .bistSliceEnd dt _ _ _ _ => some (dt, [.claims, .cipher, .events, .start])
  | .onCommandTestComplete dt _ _ _ _ _ => some (dt, [.claims, .escs, .pools, .audio, .mem, .events, .start])
  | .jumper dt _ => some (dt, [.events, .start])
  | .thermalLoop dt _ _ => some (dt, [.events, .power])
  | .fanFailed dt _ _ => some (dt, [.events, .power])
  | .thermalStop dt _ => some (dt, allParts.erase .now)
  | .mainsInterruption dt => some (dt, [.power])
  | .holdUpExpiry dt => some (dt, allParts.erase .now)
  | .mainsRestored dt => some (dt, allParts.erase .now)
  | .standbyRailDrop dt => some (dt, allParts)
  | .psuInput dt _ _ => some (dt, [.events, .power])
  | .psuFault dt _ _ => some (dt, [.events, .power])
  | .effectiveInstant dt => some (dt, allParts)
  | .leaseRenewal dt _ => some (dt, [.vcp, .egress, .ports])
  | .dhcpRetransmission dt _ => some (dt, [.vcp, .egress, .ports])
  | .dfeTapLimit dt _ _ _ => some (dt, [.events])
  | .ocxoAlarm dt _ => some (dt, [.time, .events])
  | .alignmentLoss dt _ _ _ _ => some (dt, [.time, .ports, .events])
  | .unicastGrantExpiry dt _ _ => some (dt, [.egress, .time, .ports])
  | _ => none

end Sys2Proof.Machine
end

