-- ==== Sys2Proof/Certificates/Slice0/Obligations.lean ====
section
/-! DEFINITION. The statements about the model. Throughout, `z` is the state in which a command acts: the one it met, with the time
since the command before it passed (R6). A frame is said with `NextWithin`: a next state, that differs from `z` in no part but those listed. -/

open Sys2Proof Sys2Proof.Machine

/- The queue, reset, and whole-machine rules. -/

/-- A step takes the command at the front of the queue and runs it on the state with the queue's rest. -/
def Obligations.StepRunsFrontCommand : Prop :=
  ∀ (s : State) (c : Instr) (rest : List Instr), s.pending = c :: rest → step s = exec c { s with pending := rest }

/-- On an empty queue the block idles (the model's choice, log entry 1). -/
def Obligations.EmptyQueueIdles : Prop := ∀ s : State, s.pending = [] → step s = .next s

/-- Every command has its effect: from every state a step answers a next state, and takes exactly one command off the queue. -/
def Obligations.EveryStepAnswers : Prop := ∀ s : State, ∃ t, step s = .next t ∧ t.pending = s.pending.tail

/-- Reset: no mains, no session, no claim, nothing staged, every table empty; the OTP blocks and firmware stores as the factory wrote
them. The values are the model's (log entry 3). -/
def Obligations.ResetIsEmpty : Prop :=
  State.reset.pending = [] ∧ State.reset.start.run = .off ∧ State.reset.now = 0 ∧ State.reset.vcp = {} ∧ State.reset.staged = [] ∧
  State.reset.role = {} ∧ State.reset.escs = [] ∧ State.reset.pools = [] ∧ State.reset.fwd = {} ∧ State.reset.cipher = {} ∧
  State.reset.egress = {} ∧ State.reset.video = {} ∧ State.reset.audio = {} ∧ State.reset.time = {} ∧ State.reset.mem = {} ∧
  State.reset.ports = {} ∧ State.reset.events = {} ∧ State.reset.power = {} ∧
  State.reset.start = { otp0 := .factory, otp1 := .factory, fw0 := .factory, fw1 := .factory }

/-- The claims of the reset state are in their canonical form. -/
def Obligations.ResetHasClaimsInv : Prop := State.reset.ClaimsInv

/-- Every step keeps the claims in their canonical form: no identifier is held twice, each lies below the next one to be given, and
claims stand in the order in which they were taken (R55). -/
def Obligations.StepsKeepClaims : Prop := ∀ s t : State, s.ClaimsInv → step s = .next t → t.ClaimsInv

/- Blocks, tables, identifiers. -/

/-- A block's fields are read as they were written: every field's values, at every value that its width and its reserved bits admit, with
the data that follow. -/
def Obligations.FieldsReadAsWritten : Prop :=
  ∀ (fs : List Fld) (vs : List Nat) (off : Nat) (tail : List Byte),
    fieldsFit fs vs = true → readFields fs off (writeFields fs vs ++ tail) = some (vs, [], tail)

/-- A block may end before a run of fields that all have defaults; the omitted ones take them. A block that ends inside a field, or
before one that has no default, is not read. (Where a block may end otherwise is the model's reading, log entry 11.) -/
def Obligations.OmittedFieldsTakeDefaults : Prop :=
  (∀ (fs gs : List Fld) (vs : List Nat) (off : Nat), fieldsFit fs vs = true →
    (∀ g ∈ gs, ∃ d, g.dflt = some d ∧ d &&& g.rsv = 0) →
    readFields (fs ++ gs) off (writeFields fs vs) = some (vs ++ (gs.filter (fun g => !g.skip)).map (fun g => g.dflt.getD 0), [], [])) ∧
  (∀ (fs gs : List Fld) (g : Fld) (vs : List Nat) (off : Nat), fieldsFit fs vs = true → g.dflt = none →
    readFields (fs ++ g :: gs) off (writeFields fs vs) = none) ∧
  (∀ (fs gs : List Fld) (g : Fld) (vs : List Nat) (off : Nat) (part : List Byte), fieldsFit fs vs = true →
    part ≠ [] → part.length < g.w → readFields (fs ++ g :: gs) off (writeFields fs vs ++ part) = none)

/-- Every multi-byte field is in network byte order: the first byte is the most significant. -/
def Obligations.FieldsAreBigEndian : Prop :=
  ∀ w x : Nat, (beBytes w x).length = w ∧ beNat (beBytes w x) = x % 256 ^ w ∧
    ∀ i, i < w → (beBytes w x)[i]? = some (BitVec.ofNat 8 (x / 256 ^ (w - 1 - i)))

/-- Where the module assigns an identifier it takes the lowest free one from the base on (R403). -/
def Obligations.LowestFreeIdentifier : Prop :=
  ∀ (used : List Nat) (base : Nat),
    lowestFree used base ∉ used ∧ base ≤ lowestFree used base ∧ ∀ k, base ≤ k → k ∉ used → lowestFree used base ≤ k

/-- A table of numbered objects: what is put is found, deleting removes that number alone, and both keep strictly rising numbers. -/
def Obligations.TablesHoldWhatIsPut : Prop :=
  ∀ (α : Type) (t : Tab α) (j k : Nat) (a : α),
    ((t.put k a).find j = if j = k then some a else t.find j) ∧
    ((t.del k).find j = if j = k then none else t.find j) ∧
    (Tab.wf t = true → Tab.wf (t.put k a) = true ∧ Tab.wf (t.del k) = true)

/- Commands of packets. `Completes`: whenever the command stands next and every check of R68 passes, it leaves its changes staged (R45),
its claims held (R55) and its OK record, and nothing else. `ReadsOnly`: it leaves its record alone. -/

/-- Every command of 0x00xx (sessions, addresses, claims) completes, or only reads, when it is accepted. -/
def Obligations.BaseCommandsComplete : Prop :=
  nopDef.ReadsOnly .cmdNop ∧
  sessionCloseDef.Completes .cmdSessionClose ∧
  moduleInfoDef.ReadsOnly .cmdModuleInfo ∧
  setAddressDef.Completes .cmdSetAddress ∧
  claimQueryDef.ReadsOnly .cmdClaimQuery ∧
  claimReleaseDef.Completes .cmdClaimRelease

/-- Every command of 0x01xx (escapements and tasks) completes, or only reads, when it is accepted. -/
def Obligations.TaskCommandsComplete : Prop :=
  escStatusDef.ReadsOnly .cmdEscapementStatus ∧
  tableReadDef.ReadsOnly .cmdTableRead ∧
  poolStatusDef.Completes .cmdPoolStatus ∧
  traceArmDef.Completes .cmdTaskTraceArm ∧
  traceReadDef.ReadsOnly .cmdTaskTraceRead

/-- Every command of 0x02xx (streams and targets) completes, or only reads, when it is accepted. -/
def Obligations.ForwardingCommandsComplete : Prop :=
  streamCreateDef.Completes .cmdStreamCreate ∧
  streamDeleteDef.Completes .cmdStreamDelete ∧
  targetAddDef.Completes .cmdTargetAdd ∧
  targetSelectDef.Completes .cmdTargetSelect ∧
  targetRemoveDef.Completes .cmdTargetRemove ∧
  streamPinDef.Completes .cmdStreamPin ∧
  streamUnpinDef.Completes .cmdStreamUnpin ∧
  streamStatusDef.ReadsOnly .cmdStreamStatus ∧
  parseCountersDef.ReadsOnly .cmdParseCounters

/-- Every command of 0x03xx (keys and sealed images) completes, or only reads, when it is accepted. -/
def Obligations.CipherCommandsComplete : Prop :=
  keyInstallDef.Completes .cmdKeyInstall ∧
  keyDeleteDef.Completes .cmdKeyDelete ∧
  keyStatusDef.ReadsOnly .cmdKeyStatus ∧
  keyLimitDef.Completes .cmdKeyLimit ∧
  keyLinkDef.Completes .cmdKeyLink ∧
  keyRollDef.Completes .cmdKeyRoll ∧
  sealKeyDef.Completes .cmdSealKey ∧
  exportSendDef.Completes .cmdSealExportSend ∧
  exportResendDef.Completes .cmdSealExportResend ∧
  exportStatusDef.ReadsOnly .cmdSealExportStatus ∧
  exportDiscardDef.Completes .cmdSealExportDiscard ∧
  importArmDef.Completes .cmdSealImportArm ∧
  importStatusDef.ReadsOnly .cmdSealImportStatus ∧
  importOpenDef.Completes .cmdSealImportOpen ∧
  importDiscardDef.Completes .cmdSealImportDiscard

/-- Every command of 0x04xx (legs, classes, policers, timers, queues) completes, or only reads, when it is accepted. -/
def Obligations.EgressCommandsComplete : Prop :=
  legSetDef.Completes .cmdLegSet ∧
  legDeleteDef.Completes .cmdLegDelete ∧
  classSetDef.Completes .cmdClassSet ∧
  policerSetDef.Completes .cmdPolicerSet ∧
  policerDeleteDef.Completes .cmdPolicerDelete ∧
  policerStatusDef.ReadsOnly .cmdPolicerStatus ∧
  dscpColourDef.Completes .cmdDscpColour ∧
  timerSetDef.Completes .cmdLaunchTimerSet ∧
  timerFreeDef.Completes .cmdLaunchTimerFree ∧
  timerReadDef.ReadsOnly .cmdLaunchTimerRead ∧
  timerChangeDef.Completes .cmdLaunchTimerChange ∧
  queueStatusDef.ReadsOnly .cmdQueueStatus ∧
  queueSamplingDef.Completes .cmdQueueSampling

/-- Every command of 0x05xx (decode streams) completes, or only reads, when it is accepted. -/
def Obligations.DecodeCommandsComplete : Prop :=
  decodeCreateDef.Completes .cmdDecodeCreate ∧
  decodeDeleteDef.Completes .cmdDecodeDelete ∧
  decodeSelectDef.Completes .cmdDecodeSelect ∧
  decodeResyncDef.Completes .cmdDecodeResync ∧
  decodeStatusDef.ReadsOnly .cmdDecodeStatus ∧
  decodeLoadDef.ReadsOnly .cmdDecodeLoad

/-- Every command of 0x06xx (outputs, layers, regions, graphics) completes, or only reads, when it is accepted. -/
def Obligations.ComposeCommandsComplete : Prop :=
  composeCreateDef.Completes .cmdComposeCreate ∧
  composeDeleteDef.Completes .cmdComposeDelete ∧
  composeLayerDef.Completes .cmdComposeLayer ∧
  composeRegionDef.Completes .cmdComposeRegion ∧
  composeStatusDef.ReadsOnly .cmdComposeStatus ∧
  graphicCreateDef.Completes .cmdGraphicCreate ∧
  graphicWriteDef.Completes .cmdGraphicWrite ∧
  graphicFlipDef.Completes .cmdGraphicFlip ∧
  graphicDeleteDef.Completes .cmdGraphicDelete ∧
  composeFilterDef.Completes .cmdComposeFilter

/-- Every command of 0x07xx (encode legs) completes, or only reads, when it is accepted. -/
def Obligations.EncodeCommandsComplete : Prop :=
  encodeCreateDef.Completes .cmdEncodeCreate ∧
  encodeDeleteDef.Completes .cmdEncodeDelete ∧
  encodeSetDef.Completes .cmdEncodeSet ∧
  encodeKeyframeDef.Completes .cmdEncodeKeyframe ∧
  encodeRecoveryDef.Completes .cmdEncodeRecovery ∧
  encodeStatusDef.ReadsOnly .cmdEncodeStatus ∧
  encodeLoadDef.ReadsOnly .cmdEncodeLoad

/-- Every command of 0x08xx (audio legs) completes, or only reads, when it is accepted. -/
def Obligations.AudioCommandsComplete : Prop :=
  audioLegCreateDef.Completes .cmdAudioLegCreate ∧
  audioLegDeleteDef.Completes .cmdAudioLegDelete ∧
  audioSetDef.Completes .cmdAudioSet ∧
  audioStageDef.Completes .cmdAudioStage ∧
  audioSteerDef.Completes .cmdAudioSteer ∧
  audioStatusDef.ReadsOnly .cmdAudioStatus ∧
  audioLoadDef.ReadsOnly .cmdAudioLoad ∧
  audioTableDef.ReadsOnly .cmdAudioTableRead

/-- Every command of 0x09xx (nodes, tie lines, talkers) completes, or only reads, when it is accepted. -/
def Obligations.CrosspointCommandsComplete : Prop :=
  xpNodeDef.Completes .cmdXpNode ∧
  tieConnectDef.Completes .cmdXpTieConnect ∧
  tieFreeDef.Completes .cmdXpTieFree ∧
  groupSetDef.Completes .cmdXpTalkerGroupSet ∧
  groupDeleteDef.Completes .cmdXpTalkerGroupDelete ∧
  memberAddDef.Completes .cmdXpTalkerMemberAdd ∧
  memberRemoveDef.Completes .cmdXpTalkerMemberRemove ∧
  xpNodeReadDef.ReadsOnly .cmdXpNodeRead ∧
  xpStatusDef.ReadsOnly .cmdXpStatus ∧
  xpTalkersDef.ReadsOnly .cmdXpTalkers ∧
  gainTableDef.ReadsOnly .cmdXpGainTableRead

/-- Every command of 0x0Axx (beacons) completes, or only reads, when it is accepted. -/
def Obligations.BeaconCommandsComplete : Prop :=
  beaconSetDef.Completes .cmdBeaconSet ∧
  beaconStatusDef.ReadsOnly .cmdBeaconStatus ∧
  beaconHeardDef.ReadsOnly .cmdBeaconHeard ∧
  beaconLoadingDef.ReadsOnly .cmdBeaconLoading ∧
  beaconTableDef.ReadsOnly .cmdBeaconTableRead

/-- Every command of 0x0Bxx (the timebase, PTP, the regulator) completes, or only reads, when it is accepted. -/
def Obligations.TimeCommandsComplete : Prop :=
  timeStatusDef.ReadsOnly .cmdTimeStatus ∧
  ptpClockDef.Completes .cmdPtpClock ∧
  ptpPortDef.Completes .cmdPtpPort ∧
  ptpPortStatusDef.ReadsOnly .cmdPtpPortStatus ∧
  regulatorSetDef.Completes .cmdRegulatorSet ∧
  regulatorForceDef.Completes .cmdRegulatorForceHoldover ∧
  regulatorReleaseDef.Completes .cmdRegulatorReleaseHoldover ∧
  timeSetDef.Completes .cmdTimeSet ∧
  timeInDef.Completes .cmdTimeIn ∧
  timeOutSetDef.Completes .cmdTimeOutSet ∧
  timeOutFreeDef.Completes .cmdTimeOutFree ∧
  timeOutChangeDef.Completes .cmdTimeOutChange

/-- Every command of 0x0Cxx (stacks, FIFOs, audits) completes, or only reads, when it is accepted. -/
def Obligations.MemoryCommandsComplete : Prop :=
  hbmStatusDef.Completes .cmdHbmStatus ∧
  (∀ found, (memReadDef found).Completes (fun r b => .cmdMemRead r b found)) ∧
  fifoStatusDef.ReadsOnly .cmdFifoStatus ∧
  auditDef.Completes .cmdAudit

/-- Every command of 0x0Dxx (ports and lanes) completes, or only reads, when it is accepted. -/
def Obligations.PortCommandsComplete : Prop :=
  portModeDef.Completes .cmdPortMode ∧
  portStatusDef.ReadsOnly .cmdPortStatus ∧
  laneStatusDef.ReadsOnly .cmdLaneStatus ∧
  laneQuietDef.Completes .cmdLaneQuiet ∧
  laneTestEndDef.Completes .cmdLaneTestEnd ∧
  laneTestNearLoopbackDef.Completes .cmdLaneTestNearLoopback ∧
  laneTestFarLoopbackDef.Completes .cmdLaneTestFarLoopback ∧
  laneTestPrbsDef.Completes .cmdLaneTestPrbs ∧
  laneTestSlipDef.Completes .cmdLaneTestSlip ∧
  laneTestTxFfeDef.Completes .cmdLaneTestTxFfe ∧
  laneTestFreezeDef.Completes .cmdLaneTestFreeze ∧
  laneTestResumeDef.Completes .cmdLaneTestResume ∧
  cmisReadDef.ReadsOnly .cmdCmisRead ∧
  cmisWriteDef.Completes .cmdCmisWrite

/-- Every command of 0x0Exx (subscribers, and the test event) completes, or only reads, when it is accepted. -/
def Obligations.EventCommandsComplete : Prop :=
  cmdEventSubscribe.Completes .cmdEventSubscribe ∧
  cmdEventCancel.Completes .cmdEventCancel ∧
  cmdEventStatus.ReadsOnly .cmdEventStatus ∧
  cmdEventReplay.ReadsOnly .cmdEventReplay ∧
  cmdEventRaise.Completes .cmdEventRaise

/-- Every command of 0x0Fxx (starts, identity, firmware, OTP, tests) completes, or only reads, when it is accepted. -/
def Obligations.StartCommandsComplete : Prop :=
  startReportDef.ReadsOnly .cmdStartReport ∧
  resetRestartDef.Completes .cmdResetRestart ∧
  resetRecoverDieDef.Completes .cmdResetRecoverDie ∧
  resetClearDef.Completes .cmdResetClearRestart ∧
  identityDef.ReadsOnly .cmdIdentity ∧
  attestDef.ReadsOnly .cmdAttest ∧
  firmwareWriteDef.Completes .cmdFirmwareWrite ∧
  firmwareCommitDef.Completes .cmdFirmwareCommit ∧
  firmwareStatusDef.ReadsOnly .cmdFirmwareStatus ∧
  otpReadDef.ReadsOnly .cmdOtpRead ∧
  otpWriteSettingsDef.Completes .cmdOtpWriteSettings ∧
  otpWriteRepairsDef.Completes .cmdOtpWriteRepairs ∧
  bistControlDef.Completes .cmdBistControl ∧
  bistResultsDef.ReadsOnly .cmdBistResults ∧
  testRunStartDef.Completes .cmdTestRunStart ∧
  testRunStatusDef.ReadsOnly .cmdTestRunStatus ∧
  testRunAbortDef.Completes .cmdTestRunAbort ∧
  dieFenceDef.Completes .cmdDieFence ∧
  testUnlockDef.Completes .cmdTestUnlock

/-- Opcodes (R53): opcode 0x00 of every range and those from 0x1000 on are reserved; the defined ones are those of the rows, each in the
range of its upper byte. A record of a reserved or undefined opcode returns BAD_OPCODE, which is 0x0002, in an error block that names no
field, no site and no holder. -/
def Obligations.UndefinedOpcodesAreRefused : Prop :=
  Status.badOpcode.code = 0x0002 ∧
  (∀ range : Nat, definedOpcode (256 * range) = false) ∧
  (∀ op : Nat, 0x1000 ≤ op → definedOpcode op = false) ∧
  (∀ op : Nat, definedOpcode op = true ↔ ∃ i d r b, packetCommand i = some (d, r, b) ∧ d.opcode = op) ∧
  (∀ (s : State) (p : ExecPkt) (x : PktRec),
    definedOpcode x.opcode = false → p.stopped = false → p.atomic = false → (s.vcp.packet p.session p.seq).isSome = true →
    let q := { p with results := p.results ++ [{ opcode := x.opcode, tag := x.tag, status := .badOpcode,
                                                 block := Err.block { status := .badOpcode } }], failed := true }
    flushUndefined s p [x] = (s.setPacket q, { q with todo := [] })) ∧
  (∀ (s : State) (p : ExecPkt) (x : PktRec),
    definedOpcode x.opcode = false → p.stopped = false → (s.vcp.packet p.session p.seq).isSome = true →
    (flushUndefined s p [x]).2.results.getLast? =
      some { opcode := x.opcode, tag := x.tag, status := .badOpcode, block := Err.block { status := .badOpcode } } ∧
    (flushUndefined s p [x]).2.failed = true)

/-- What a failing command leaves (R47). With neither flag every command runs, and a failure affects its own record alone. With
STOP_ON_ERROR or ATOMIC the commands after it carry NOT_EXECUTED. With ATOMIC the earlier ones are undone, their claims released, and
they carry NOT_EXECUTED too. -/
def Obligations.FailedCommands : Prop :=
  ∀ (i : Instr) (d : CmdDef) (r : CmdRef) (b : List Byte), packetCommand i = some (d, r, b) → ∀ (s z : State) (p : ExecPkt),
    (∀ (x : Err) (fx : List Change), d.rejects r b s = some (z, p, x, fx) → p.atomic = false →
      exec i s = .next (applyAll fx (z.setPacket { p with
        results := p.results ++ [{ opcode := d.opcode, tag := r.tag, status := x.status, block := x.block }], failed := true }))) ∧
    (∀ (x : Err) (fx : List Change), d.rejects r b s = some (z, p, x, fx) → p.atomic = true →
      exec i s = .next (applyAll fx (State.setPacket
        { z with staged := z.staged.filter (fun c => !(c.session == p.session && c.seq == p.seq))
                 vcp := { z.vcp with claims := z.vcp.claims.filter (fun c => !p.claims.contains c.id) } }
        { p with results := p.results.map (fun q => { q with status := .notExecuted, block := [] }) ++
                   [{ opcode := d.opcode, tag := r.tag, status := x.status, block := x.block }]
                 claims := [], failed := true }))) ∧
    (d.taken r b s = some (z, p) → p.stopped = false → r.firmwareFault = none → z.inSetting = true → d.setting = false →
      exec i s = .next (z.failCmd p d.opcode r.tag { status := .settingMode })) ∧
    (d.taken r b s = some (z, p) → p.failed = true → p.stopOnError = true ∨ p.atomic = true →
      exec i s = .next (z.answered p d.opcode r.tag .notExecuted [])) ∧
    (d.taken r b s = some (z, p) → p.failed = false ∨ (p.stopOnError = false ∧ p.atomic = false) →
      r.firmwareFault = none → z.inSetting = false ∨ d.setting = true → (d.accepts r b s).isSome = true ∨ (d.rejects r b s).isSome = true)

/-- The 24 bytes of an error block, field by field; and the holder that it names to a later claimant: 0 for the module itself,
0xFFFF_FFFF for a session that has ended. -/
def Obligations.ErrorBlockNamesHolder : Prop :=
  (∀ e : Err, e.block.length = 24 ∧
    (e.block.take 2 = beBytes 2 e.off ∧ (e.block.drop 2).take 2 = [0, 0] ∧ (e.block.drop 4).take 4 = beBytes 4 e.site ∧
     (e.block.drop 8).take 4 = beBytes 4 e.holderClaim ∧ (e.block.drop 12).take 4 = beBytes 4 e.holderSession ∧
     (e.block.drop 16).take 2 = beBytes 2 e.holderOpcode ∧ (e.block.drop 18).take 2 = [0, 0] ∧ e.block.drop 20 = beBytes 4 e.detail)) ∧
  (∀ (s : State) (c : Claim) (res : Resource) (off : Nat), s.vcp.holder res = some c →
    (heldBy s res off).status = .resourceHeld ∧ (heldBy s res off).holderClaim = c.id ∧ (heldBy s res off).holderOpcode = c.opcode ∧
    (c.session = 0 → (heldBy s res off).holderSession = 0) ∧
    (c.session ≠ 0 → (∀ y ∈ s.vcp.sessions, y.id = c.session → y.expired.isSome) → (heldBy s res off).holderSession = 0xFFFFFFFF) ∧
    (c.session ≠ 0 → (∃ y ∈ s.vcp.sessions, y.id = c.session ∧ y.expired = none) → (heldBy s res off).holderSession = c.session))

/-- Setting mode: the opcodes that it accepts, CMD_RESET with kinds 0 and 2 alone, and what any other command gets. -/
def Obligations.SettingModeOpcodes : Prop :=
  ∀ (i : Instr) (d : CmdDef) (r : CmdRef) (b : List Byte), packetCommand i = some (d, r, b) →
    (d.setting = true ↔ i ≠ .cmdResetRecoverDie r b ∧ d.opcode ∈ [0x0001, 0x0002, 0x0003, 0x0004, 0x0005, 0x0006, 0x0C01, 0x0C02, 0x0C03, 0x0D02, 0x0D03, 0x0D04, 0x0D05, 0x0D06,
      0x0F01, 0x0F02, 0x0F03, 0x0F04, 0x0F05, 0x0F06, 0x0F07, 0x0F08, 0x0F0B, 0x0F0E]) ∧
    (∀ (s z : State) (p : ExecPkt), d.taken r b s = some (z, p) → p.stopped = false → p.atomic = false → r.firmwareFault = none →
      z.inSetting = true → d.setting = false →
      exec i s = .next (z.setPacket { p with
        results := p.results ++ [{ opcode := d.opcode, tag := r.tag, status := .settingMode,
                                   block := Err.block { status := .settingMode } }], failed := true }))

/-- What running a command of a packet can change: the changes that wait, the claims and the command complex. Four commands also change
at once what only serves reading (a peak, a postponed count, the errors that a read or an audit meets), and two raise an event: one
that meets a fault of the control firmware, and one that opens a sealed image in vain. -/
def Obligations.CommandsChangeOnlyWhatWaits : Prop :=
  ∀ (i : Instr) (d : CmdDef) (r : CmdRef) (b : List Byte) (s : State), packetCommand i = some (d, r, b) →
    NextWithin [.staged, .claims, .vcp, .events, .pools, .mem] (s.advance r.dt) (exec i s) ∧
    (r.firmwareFault = none → changesAtOnce i = false →
      NextWithin [.staged, .claims, .vcp] (s.advance r.dt) (exec i s))

/- Sessions, packets, addresses, roles. -/

/-- Sessions end: a half-open one after 5 s without a valid CLIENT_FINISH, silently; an established one after 60 s without an
authenticated packet; one of 24 h, or of sequence 2^32, expires, which is announced one hour before; and an expired one is erased after
60 s. Its subscription lapses, its claims stay. -/
def Obligations.SessionsEnd : Prop :=
  (∀ (dt id : Nat) (s : State), let z := s.advance dt
    z.live = true → (∃ h ∈ z.vcp.half, h.id = id ∧ h.created + sec 5 ≤ z.now) →
    exec (.halfOpenTimeout dt id) s = .next { z with vcp := { z.vcp with half := z.vcp.half.filter (fun h => h.id != id) } }) ∧
  (∀ (dt id : Nat) (s : State) (x : Session), let z := s.advance dt
    z.live = true → z.vcp.session id = some x → x.expired = none → x.lastPacket + sec 60 ≤ z.now →
    ∃ t, exec (.sessionIdleTimeout dt id) s = .next t ∧ t.vcp.session id = none ∧ t.vcp.claims = z.vcp.claims ∧
      t.events.subs = z.events.subs.filter (fun p => p.2.session != id) ∧
      t.events.raised = z.events.raised ++ [{ stamp := z.now, source := 225, code := 3, data := BitVec.ofNat 120 (dCode 88 32 id + dCode 80 8 2) }]) ∧
  (∀ (dt id : Nat) (s : State) (x : Session), let z := s.advance dt
    z.live = true → z.vcp.session id = some x → x.expired = none → x.expiringRaised = false → x.established + sec 86400 ≤ z.now + sec 3600 →
    exec (.sessionExpiring dt id) s = .next ((z.modSession id (fun y => { y with expiringRaised := true })).raise 225 2
      (dCode 88 32 id + dBits 56 32 (secOf (x.established + sec 86400 - z.now))))) ∧
  (∀ (dt id : Nat) (s : State) (x : Session), let z := s.advance dt
    z.live = true → z.vcp.session id = some x → x.expired = none →
    x.established + sec 86400 ≤ z.now ∨ 2 ^ 32 ≤ x.high ∨ 2 ^ 32 ≤ x.txSeq →
    ∃ t, exec (.sessionExpiry dt id) s = .next t ∧ t.vcp.session id = some { x with expired := some z.now } ∧
      t.vcp.claims = z.vcp.claims ∧ t.events.subs = z.events.subs.filter (fun p => p.2.session != id) ∧
      t.events.raised = z.events.raised ++ [{ stamp := z.now, source := 225, code := 3, data := BitVec.ofNat 120 (dCode 88 32 id + dCode 80 8 3) }]) ∧
  (∀ (dt id : Nat) (s : State) (x : Session) (t0 : Instant), let z := s.advance dt
    z.live = true → z.vcp.session id = some x → x.expired = some t0 → t0 + sec 60 ≤ z.now →
    ∃ t, exec (.sessionErase dt id) s = .next t ∧ t.vcp.session id = none ∧ t.vcp.claims = z.vcp.claims ∧ t.events.raised = z.events.raised)

/-- The handshake: a hello that passes R400 makes a half-open session under a new identifier, unless the identity key is out of reach (R384); a
repeated one gets the same SERVER_HELLO; one beyond 32 a second is dropped and counted; a CLIENT_FINISH whose signature verifies establishes the
session with sequence 0 recorded as answered; one whose signature fails, or that finds eight sessions established, discards the half-open session
with a REJECT. -/
def Obligations.SessionsAreEstablished : Prop :=
  (∀ (h : HelloRx) (s : State), let z := s.advance h.dt; let a := z.vcp.addr h.peer.port
    z.isVcp h.peer = true → z.vcp.judge h.packet = .accept → h.packet.type = 1 → (perSecond a.helloSecond a.helloCount z.now 32).1 = true →
    (∀ x ∈ z.vcp.half, x.clientRandom ≠ h.clientRandom) → z.helloStatus h = none → z.canSign = true →
    ∃ t x, exec (.clientHello h) s = .next t ∧ t.vcp.half = z.vcp.half ++ [x] ∧ t.vcp.sessions = z.vcp.sessions ∧
      x.clientRandom = h.clientRandom ∧ x.created = z.now ∧ x.hello.session = x.id ∧ x.hello.maxDatagram = min h.maxDatagram 8960 ∧
      (∃ k, x.keys = sessionKeys h.clientRandom x.hello.moduleRandom (curveMul k h.share / 2 ^ 384) ∧ x.hello.moduleShare = curveMul k curveG) ∧
      1 ≤ x.id ∧ (∀ y ∈ z.vcp.half, y.id ≠ x.id) ∧ (∀ y ∈ z.vcp.sessions, y.id ≠ x.id)) ∧
  (∀ (h : HelloRx) (s : State), let z := s.advance h.dt; let a := z.vcp.addr h.peer.port
    let n := perSecond a.helloSecond a.helloCount z.now 32
    z.isVcp h.peer = true → z.vcp.judge h.packet = .accept → h.packet.type = 1 → n.1 = true →
    (∀ x ∈ z.vcp.half, x.clientRandom ≠ h.clientRandom) → z.helloStatus h = none → z.canSign = false →
    let v := z.vcp.setAddr h.peer.port { a with helloSecond := n.2.1, helloCount := n.2.2 }
    exec (.clientHello h) s = .next { z with vcp := v }) ∧
  (∀ (h : HelloRx) (s : State) (st : Status), let z := s.advance h.dt; let a := z.vcp.addr h.peer.port
    let n := perSecond a.helloSecond a.helloCount z.now 32
    z.isVcp h.peer = true → z.vcp.judge h.packet = .accept → h.packet.type = 1 → n.1 = true →
    (∀ x ∈ z.vcp.half, x.clientRandom ≠ h.clientRandom) → z.helloStatus h = some st →
    let v := z.vcp.setAddr h.peer.port { a with helloSecond := n.2.1, helloCount := n.2.2 }
    exec (.clientHello h) s = .next (State.sendReject { z with vcp := v } h.peer 0 st)) ∧
  (∀ (h : HelloRx) (s : State) (x : HalfOpen), let z := s.advance h.dt; let a := z.vcp.addr h.peer.port
    let n := perSecond a.helloSecond a.helloCount z.now 32
    z.isVcp h.peer = true → z.vcp.judge h.packet = .accept → h.packet.type = 1 → n.1 = true →
    z.vcp.half.find? (fun y => y.clientRandom == h.clientRandom) = some x →
    let v := z.vcp.setAddr h.peer.port { a with helloSecond := n.2.1, helloCount := n.2.2 }
    exec (.clientHello h) s = .next (State.sendHello { z with vcp := v } h.peer x.hello)) ∧
  (∀ (h : HelloRx) (s : State), let z := s.advance h.dt; let a := z.vcp.addr h.peer.port
    let n := perSecond a.helloSecond a.helloCount z.now 32
    z.isVcp h.peer = true → z.vcp.judge h.packet = .accept → h.packet.type = 1 → n.1 = false →
    let v := z.vcp.setAddr h.peer.port { a with helloSecond := n.2.1, helloCount := n.2.2, helloDrops := a.helloDrops + 1 }
    exec (.clientHello h) s = .next { z with vcp := v }) ∧
  (∀ (x : VcpRx) (s : State) (h : HalfOpen), let z := s.advance x.dt
    z.isVcp x.peer = true → x.type = 3 → z.vcp.judge x = .accept → z.vcp.halfOpen x.session = some h → h.signedBy x = true →
    z.vcp.established.length < 8 →
    ∃ t y, exec (.clientFinish x) s = .next t ∧ t.vcp.half = z.vcp.half.filter (fun q => q.id != h.id) ∧
      t.vcp.sessions = z.vcp.sessions ++ [y] ∧ y.id = h.id ∧ y.high = 0 ∧ y.txSeq = 1 ∧ y.established = z.now ∧ y.keys = h.keys ∧
      ∃ r, y.window = [{ seq := 0, tag := x.tag, st := .answered r }] ∧ r.cmdSeq = 0 ∧ r.status = .ok ∧ r.fragments = [[]] ∧ r.firstSeq = 0) ∧
  (∀ (x : VcpRx) (s : State) (h : HalfOpen), let z := s.advance x.dt
    z.isVcp x.peer = true → x.type = 3 → z.vcp.judge x = .accept → z.vcp.halfOpen x.session = some h →
    let v := { z.vcp with half := z.vcp.half.filter (fun q => q.id != h.id) }
    (h.signedBy x = false → exec (.clientFinish x) s = .next (State.sendReject { z with vcp := v } x.peer h.id .handshakeSignature)) ∧
    (h.signedBy x = true → 8 ≤ z.vcp.established.length →
      exec (.clientFinish x) s = .next (State.sendReject { z with vcp := v } x.peer h.id .sessionLimit)))

/-- Packets that the checks of R32 and R40 stop: dropped and counted, answered with a REJECT for their version, or answered with the
cached reply of their sequence. -/
def Obligations.CheckedPackets : Prop :=
  (∀ (x : VcpRx) (s : State) (reason : Nat), let z := s.advance x.dt
    z.isVcp x.peer = true → z.vcp.judge x = .drop reason →
    exec (.vcpPacketRejected x) s = .next ((z.heard x).vcpDrop x.peer.port reason x.session)) ∧
  (∀ (x : VcpRx) (s : State), let z := s.advance x.dt
    z.isVcp x.peer = true → z.vcp.judge x = .version →
    exec (.vcpPacketRejected x) s = .next (z.sendReject x.peer x.session .badVersion)) ∧
  (∀ (x : VcpRx) (s : State) (r : Reply), let z := s.advance x.dt
    z.isVcp x.peer = true → z.vcp.judge x = .resend r →
    exec (.cachedReplyResend x) s = .next ((z.heard x).sendReply x.peer x.session r))

/-- The replay window: a sequence above H is accepted; one 1,024 or more below H is dropped for reason 4; one recorded with another tag
for reason 5; one recorded with the same tag is answered from the cache, or dropped silently while it executes. -/
def Obligations.ReplayWindow : Prop :=
  ∀ (y : Session) (seq tag : Nat),
    (y.high < seq → y.judge seq tag = .accept) ∧
    (seq ≤ y.high → seq + 1024 ≤ y.high → y.judge seq tag = .drop 4) ∧
    (∀ e, seq ≤ y.high → y.high < seq + 1024 → y.entry seq = some e → e.tag ≠ tag → y.judge seq tag = .drop 5) ∧
    (∀ e r, seq ≤ y.high → y.high < seq + 1024 → y.entry seq = some e → e.tag = tag → e.st = .answered r → y.judge seq tag = .resend r) ∧
    (∀ e, seq ≤ y.high → y.high < seq + 1024 → y.entry seq = some e → e.tag = tag → e.st = .executing → y.judge seq tag = .silent) ∧
    (seq ≤ y.high → y.high < seq + 1024 → y.entry seq = none → y.judge seq tag = .accept) ∧
    (∀ st, (y.record seq tag st).high = max y.high seq ∧ (y.record seq tag st).entry seq =
      if y.high < seq + 1024 then some { seq := seq, tag := tag, st := st } else none)

/-- At most 64 packets of a session are in execution; a further one gets BUSY and is not recorded (R41, R42). A packet whose deadline is
not all zeros and lies before its arrival gets DEADLINE_PASSED, unless an earlier step of R401 stops it, and none of its commands runs;
one that arrives at its deadline or before is not stopped by it (R43).
(That a refused packet does not count as in execution is the model's reading, log entry 14.) -/
def Obligations.BusyAndLatePackets : Prop :=
  (∀ (s : State) (y : Session) (x : VcpRx) (c : CmdPayload), s.judgePacket y x.seq c = some .busy →
    64 ≤ s.vcp.inExecution y.id ∧ (s.acceptPacket y x c).vcp.executing = s.vcp.executing) ∧
  (∀ (s : State) (y : Session) (seq : Nat) (c : CmdPayload), 64 ≤ s.vcp.inExecution y.id →
    (let v := { s.vcp with executing := [] }; State.judgePacket { s with vcp := v } y seq c = none) → s.judgePacket y seq c = some .busy) ∧
  (∀ (s : State) (y : Session) (x : VcpRx) (c : CmdPayload) (id : Nat), s.vcp.inExecution id ≤ 64 →
    (s.acceptPacket y x c).vcp.inExecution id ≤ 64) ∧
  (∀ (s : State) (y : Session) (seq : Nat) (c : CmdPayload), c.deadline = 0 ∨ s.now ≤ timeOf c.deadline →
    s.judgePacket y seq c = s.judgePacket y seq { c with deadline := 0 } ∨
      s.judgePacket y seq c = some .reservedNonzero ∨ s.judgePacket y seq c = some .badValue) ∧
  (∀ (s : State) (y : Session) (seq : Nat) (c : CmdPayload), c.deadline = 0 ∨ s.now ≤ timeOf c.deadline →
    s.judgePacket y seq c ≠ some .deadlinePassed) ∧
  (∀ (s : State) (y : Session) (seq : Nat) (c : CmdPayload), c.deadline ≠ 0 → timeOf c.deadline < s.now →
    (s.judgePacket y seq c).isSome = true) ∧
  (∀ (s : State) (y : Session) (seq : Nat) (c : CmdPayload), c.deadline ≠ 0 → c.deadline % 2 ^ 16 = 0 → timeOk c.deadline = true →
    timeOf c.deadline < s.now → s.judgePacket y seq { c with deadline := 0 } = none ∨ s.judgePacket y seq { c with deadline := 0 } = some .busy →
    s.judgePacket y seq c = some .deadlinePassed) ∧
  (∀ (s : State) (y : Session) (x : VcpRx) (c : CmdPayload) (st : Status), s.judgePacket y x.seq c = some st → st ≠ .busy →
    ∃ p, (s.acceptPacket y x c).vcp.executing = s.vcp.executing ++ [p] ∧ p.status = st ∧ p.todo = [])

/-- A frame at the MAC: a damaged one counts as an error; a pause frame counts as one; a good one is counted and classified; a
COMMAND that passes every check enters execution. -/
def Obligations.FramesAreReceived : Prop :=
  (∀ (f : FrameRx) (s : State), let z := s.advance f.dt
    z.receives f.port f.iface = true → f.fcsOk = false ∨ f.len < 64 ∨ z.mtu f.port < f.len →
    exec (.receivedFrame f) s = .next ((z.haps f.haps).modIface f.port f.iface (fun i => { i with rxErrors := i.rxErrors + 1 }))) ∧
  (∀ (f : FrameRx) (s : State), let z := s.advance f.dt
    z.receives f.port f.iface = true → f.fcsOk = true → 64 ≤ f.len → f.len ≤ z.mtu f.port →
    (f.haps.any Hap.isDouble && !z.commandFrame f) = true →
    exec (.receivedFrame f) s = .next ((z.haps f.haps).modIface f.port f.iface (fun i => { i with rxErrors := i.rxErrors + 1 }))) ∧
  (∀ (f : FrameRx) (s : State), let z := s.advance f.dt
    z.receives f.port f.iface = true → f.fcsOk = true → 64 ≤ f.len → f.len ≤ z.mtu f.port →
    (f.haps.any Hap.isDouble && !z.commandFrame f) = false → f.pause = true →
    exec (.receivedFrame f) s = .next ((z.haps f.haps).modIface f.port f.iface (fun i => { i with rxPause := i.rxPause + 1 }))) ∧
  (∀ (f : FrameRx) (s : State), let z := s.advance f.dt
    z.receives f.port f.iface = true → f.fcsOk = true → 64 ≤ f.len → f.len ≤ z.mtu f.port →
    (f.haps.any Hap.isDouble && !z.commandFrame f) = false → f.pause = false →
    exec (.receivedFrame f) s = .next ((((z.haps f.haps).modIface f.port f.iface (fun i => { i with rxFrames := i.rxFrames + 1 })).modParse f.port
      (fun c => { c with frames := c.frames + 1 })).classify f)) ∧
  (∀ (z : State) (port : Nat) (x : VcpRx) (y : Session), let a := z.vcp.addr port
    let n := perSecond a.vcpSecond a.vcpCount z.now 20000; let c := readCommand ((x.opened y.keys).getD [])
    n.1 = true → x.type = 4 → z.vcp.judge x = .accept → z.vcp.session x.session = some y → z.judgePacket { y with lastPacket := z.now, peer := x.peer } x.seq c = none →
    ∃ p, (z.vcpFrame port x).vcp.executing = z.vcp.executing ++ [p] ∧ p.session = y.id ∧ p.seq = x.seq ∧ p.todo = c.records ∧
      p.arrival = z.now ∧ p.status = .ok ∧ p.atomic = c.flags.testBit 0 ∧ p.stopOnError = c.flags.testBit 1)

/-- The reply of a packet all of whose commands have run is numbered, cached and sent, and its changes have their effective instant;
what has come due takes effect at EFFECTIVE_INSTANT. -/
def Obligations.RepliesAndEffects : Prop :=
  (∀ (dt session seq : Nat) (s : State) (p : ExecPkt), let z := s.advance dt
    z.live = true → z.vcp.packet session seq = some p → p.todo = [] →
    exec (.reply dt session seq) s = .next ((z.setPacket p).reply p)) ∧
  (∀ (dt : Nat) (s : State), let z := s.advance dt
    z.live = true → exec (.effectiveInstant dt) s = .next (z.takeDue true)) ∧
  (∀ (z : State) (x : Staged) (t : Instant), z.live = true → z.staged = [x] → x.scope = .instant → x.eff = some t → t ≤ z.now →
    (z.takeDue true).staged = ((State.takeOne { z with staged := [] } x).staged.filter
      (fun c => !c.orphan (State.takeOne { z with staged := [] } x)))) ∧
  (∀ applyAt w : Instant, (applyAt = 0 → (effOf applyAt w).1 = w) ∧ (applyAt ≠ 0 → (effOf applyAt w).1 = max applyAt w))

/-- Management addresses (R29): DHCPv6 and DHCPv4 take turns while no server answers, and each request is repeated when its timer runs out; an
answer binds the address; a lease is renewed at T1 and rebound at T2, an infinite one never; and its end starts step 1 anew.
(How long a port waits before it asks again is that of RFC 2131 and RFC 8415: PRESUMED, log entry 14.) -/
def Obligations.AddressesAreAcquired : Prop :=
  (∀ (dt port : Nat) (s : State), let z := s.advance dt
    z.portRuns port = true → (z.vcp.addr port).phase = .dhcp6 → (z.vcp.addr port).phaseSince + sec 10 ≤ z.now →
    exec (.dhcpTimeout dt port) s = .next (z.startDhcp port .dhcp4)) ∧
  (∀ (dt port : Nat) (s : State), let z := s.advance dt
    z.portRuns port = true → (z.vcp.addr port).phase = .dhcp4 → (z.vcp.addr port).phaseSince + sec 10 ≤ z.now →
    exec (.dhcpTimeout dt port) s = .next (z.startDhcp port .dhcp6)) ∧
  (∀ (dt port family addr prefixLen gateway renewAfter rebindAfter lease : Nat) (s : State), let z := s.advance dt; let a := z.vcp.addr port
    z.receives port 0 = true → family ≠ 0 → a.phase.dhcpFamily = family →
    let b := { a with phase := .bound family, phaseSince := z.now, retransmissions := 0, family := family, addr := addr, gateway := gateway,
                      prefixLen := prefixLen, leaseEnd := z.now + sec lease, infinite := lease == 0xFFFFFFFF, renewAt := z.now + sec renewAfter,
                      rebindAt := z.now + sec rebindAfter, asking := 0 }
    exec (.dhcpReply dt port family addr prefixLen gateway renewAfter rebindAfter lease) s = .next { z with vcp := z.vcp.setAddr port b }) ∧
  (∀ (dt port : Nat) (s : State), let z := s.advance dt; let a := z.vcp.addr port; let n := a.retransmissions + 1
    let wait := dhcpWait a.phase.dhcpFamily n a.wait z.draw.1
    z.portRuns port = true → a.nextTx ≤ z.now → a.phase = .dhcp6 ∨ a.phase = .dhcp4 →
    let v := z.draw.2.vcp.setAddr port { a with retransmissions := n, wait := wait, nextTx := z.now + wait }
    exec (.dhcpRetransmission dt port) s = .next (State.sendDhcp { z.draw.2 with vcp := v } port a.phase.dhcpFamily 2)) ∧
  (∀ (dt port f : Nat) (s : State), let z := s.advance dt; let a := z.vcp.addr port
    z.portRuns port = true → a.nextTx ≤ z.now → a.phase = .bound f → a.asking ≠ 0 →
    exec (.dhcpRetransmission dt port) s = .next (z.askLease port f a.asking (a.retransmissions + 1))) ∧
  (∀ (dt port f : Nat) (s : State), let z := s.advance dt; let a := z.vcp.addr port
    z.portRuns port = true → a.phase = .bound f → a.infinite = false → a.leaseEnd ≤ z.now →
    exec (.leaseExpiry dt port) s = .next (z.startDhcp port .dhcp6)) ∧
  (∀ (dt port f : Nat) (s : State), let z := s.advance dt; let a := z.vcp.addr port
    z.portRuns port = true → a.phase = .bound f → a.infinite = false → z.now < a.leaseEnd →
    (a.rebindAt ≤ z.now → a.asking < 2 → exec (.leaseRenewal dt port) s = .next (z.askLease port f 2 0)) ∧
    (z.now < a.rebindAt → a.renewAt ≤ z.now → a.asking = 0 → exec (.leaseRenewal dt port) s = .next (z.askLease port f 1 0))) ∧
  (∀ (dt port f : Nat) (s : State), let z := s.advance dt; let a := z.vcp.addr port
    a.phase = .bound f → a.infinite = true →
    exec (.leaseRenewal dt port) s = .next z ∧ exec (.leaseExpiry dt port) s = .next z) ∧
  (∀ (z : State) (port family asking n : Nat), let a := z.vcp.addr port
    let wait := askWait a family asking n z.now z.draw.1
    let v := z.draw.2.vcp.setAddr port { a with asking := asking, retransmissions := n, wait := wait, nextTx := z.now + wait }
    z.askLease port family asking n = State.sendDhcp { z.draw.2 with vcp := v } port family (2 + asking))

/-- The roles of the packages: once in 1 ms a heartbeat is noted, with its answer; after 4 ms without one the standby takes over; after 4 ms
without an answer the standby's package leaves service; a primary without a standby that is lost makes a failed start of the module. After a
takeover the other package is primary, the old one's control cores are held, and what it executed is as if it had never arrived; so long as
the new primary's package may serve, the module goes on. -/
def Obligations.PackageRoles : Prop :=
  (∀ (dt : Nat) (sent answered : Bool) (s : State), let z := s.advance dt
    let r := { z.role with lastTick := z.now, lastBeat := if sent then z.now else z.role.lastBeat,
                           lastAnswer := if sent && answered then z.now else z.role.lastAnswer }
    z.live = true → z.role.lastTick + ms 1 ≤ z.now → exec (.heartbeat dt sent answered) s = .next { z with role := r }) ∧
  (∀ (dt : Nat) (sent answered : Bool) (s : State), let z := s.advance dt
    z.now < z.role.lastTick + ms 1 → exec (.heartbeat dt sent answered) s = .next z) ∧
  (∀ (dt : Nat) (s : State), let z := s.advance dt
    z.live = true → z.role.up0 = true → z.role.up1 = true → z.role.lastBeat + ms 4 ≤ z.now → exec (.heartbeatLoss dt) s = .next z.takeover) ∧
  (∀ (dt : Nat) (s : State), let z := s.advance dt
    z.live = true → z.role.up0 = true → z.role.up1 = true → z.role.lastAnswer + ms 4 ≤ z.now →
    exec (.standbyLoss dt) s = .next (if z.mayServe z.role.primary then z.leave (1 - z.role.primary)
      else (z.leave (1 - z.role.primary)).failedStart noPackageLeft)) ∧
  (∀ (dt : Nat) (s : State), let z := s.advance dt
    z.live = true → z.role.up0 = false ∨ z.role.up1 = false → z.role.lastBeat + ms 4 ≤ z.now →
    exec (.primaryLossNoStandby dt) s = .next (z.failedStart { stage := 4, cause := 1, site := ccSite z.role.primary 0 })) ∧
  (∀ z : State, z.role.primary = 0 ∨ z.role.primary = 1 → z.mayServe (1 - z.role.primary) = true →
    z.takeover.role.primary = 1 - z.role.primary ∧ z.takeover.role.takeovers = z.role.takeovers + 1 ∧
    z.takeover.vcp.executing = z.vcp.executing.filter (fun p => !z.runsOn z.role.primary p) ∧
    z.takeover.vcp.sessions.map (·.keys) = z.vcp.sessions.map (·.keys) ∧ z.takeover.vcp.sessions.map (·.high) = z.vcp.sessions.map (·.high))

/- Escapements and tasks. -/

/-- Trigger words and triggers (R302): the time unit sends a word at least 10,000 ns ahead of its beat and in beat order, and of a word that a
double-bit error spoils the die uses the one after the previous word (R323); the die releases its oldest word of the grid once its replica reads
the stamp plus 2 ns, and the grid's trigger is then that beat's. (The order and the release at stamp plus 2 ns follow log entry 21, the replica's
error between its checks log entry 39.) -/
def Obligations.TriggersAreReleased : Prop :=
  (∀ (dt die kind rate index : Nat) (haps : List Hap) (s : State), let z := s.advance dt; let g := gridOf kind rate
    z.serving = true → z.dieUpBy die (g.beatAt index) = true → z.gridRuns (pkgOfDie die) g = true → z.now + ns 10000 ≤ g.beatAt index →
    (∀ u, (z.pool die).triggerOf g = some u → u < g.beatAt index) → (∀ w ∈ (z.pool die).words, w.grid = g → w.index < index) →
    (∀ h ∈ haps, ∀ site fifo, h ≠ .fifoUncorrected site fifo) →
    exec (.triggerWord dt die kind rate index haps) s =
      .next ((z.haps haps).modPool die (fun q => { q with words := q.words ++ [{ grid := g, index := index, stamp := g.beatAt index }] }))) ∧
  (∀ (dt die kind rate index site fifo : Nat) (haps : List Hap) (s : State) (w : TriggerWord), let z := s.advance dt; let g := gridOf kind rate
    z.serving = true → z.dieUpBy die (g.beatAt index) = true → z.gridRuns (pkgOfDie die) g = true → z.now + ns 10000 ≤ g.beatAt index →
    (∀ u, (z.pool die).triggerOf g = some u → u < g.beatAt index) → (∀ w ∈ (z.pool die).words, w.grid = g → w.index < index) →
    .fifoUncorrected site fifo ∈ haps → ((z.pool die).words.filter (fun w => w.grid == g)).getLast? = some w →
    exec (.triggerWord dt die kind rate index haps) s =
      .next ((z.haps haps).modPool die (fun q => { q with words := q.words ++ [{ grid := g, index := w.index + 1, stamp := g.beatAt (w.index + 1) }] }))) ∧
  (∀ (dt die kind rate : Nat) (s : State) (w : TriggerWord), let z := s.advance dt; let g := gridOf kind rate
    z.serving = true → z.dieUp die = true → (z.pool die).words.find? (fun w => w.grid == g) = some w →
    releaseAt w.stamp ((z.pool die).replicaNow w.stamp) ≤ z.now →
    ∃ t, exec (.beatTrigger dt die kind rate) s = .next t ∧ (t.pool die).triggerOf g = some w.stamp ∧
      (t.pool die).insts = (z.pool die).insts ∧ (t.pool die).words = (z.pool die).words.filter (fun x => !(x.grid == g && x.index == w.index)))

/-- An escapement walks its next beat at the issue instant and not before, nor before the walk of its previous beat has ended (R63), and a
stalled walk goes on at the same entry once it can. A walk notes its beat; one that begins in time raises no ISSUE_LATE.
(That a walk is not before 100 us ahead of its beat is the reading of log entry 19.) -/
def Obligations.EscapementsWalk : Prop :=
  (∀ (dt cluster : Nat) (s : State) (b : Instant), let z := s.advance dt
    let z1 := (z.swapBank cluster b).modEsc cluster (fun e => { e with lastBeat := b })
    let work := (z1.esc cluster).active.firing b
    z.serving = true → (z.esc cluster).stalled = [] → z.nextWalk cluster = some b → z.dieUpBy (clusterDie cluster) b = true →
    b - ns 100000 ≤ z.now → (z.esc cluster).walkEnd ≤ z.now → (z1.esc cluster).stallEnd ≤ b - ns 100000 →
    exec (.escapementWalk dt cluster) s = .next (((State.issueAll cluster b work 0 z1).countStall cluster).markLate cluster false)) ∧
  (∀ (dt cluster : Nat) (s : State) (b : Instant), let z := s.advance dt
    let z1 := (z.swapBank cluster b).modEsc cluster (fun e => { e with lastBeat := b })
    let work := (z1.esc cluster).active.firing b
    z.serving = true → (z.esc cluster).stalled = [] → z.nextWalk cluster = some b → z.dieUpBy (clusterDie cluster) b = true →
    b - ns 100000 ≤ z.now → (z.esc cluster).walkEnd ≤ z.now → b - ns 100000 < (z1.esc cluster).stallEnd →
    exec (.escapementWalk dt cluster) s = .next (((State.issueAll cluster b work 0
      ((z1.modEsc cluster (fun e => { e with issueLate := bump32 e.issueLate })).escEvent z.now cluster 1 ((work.head?.map (·.entry)).getD 0)
        (nsOf (z.now - (b - ns 100000))))).countStall cluster).markLate cluster true)) ∧
  (∀ (dt cluster : Nat) (s : State) (b : Instant), let z := s.advance dt
    z.nextWalk cluster = some b → z.now < b - ns 100000 ∨ z.now < (z.esc cluster).walkEnd → exec (.escapementWalk dt cluster) s = .next z) ∧
  (∀ (dt cluster : Nat) (s : State) (x : ToIssue) (rest : List ToIssue) (d : Descriptor), let z := s.advance dt
    let z1 := State.issueAll cluster (z.esc cluster).stallBeat (x :: rest) 0 z
    z.serving = true → z.dieUp (clusterDie cluster) = true → (z.esc cluster).stalled = x :: rest →
    (z.esc cluster).active.entries[x.entry]? = some d → z.stallOf cluster x.entry d = 0 →
    exec (.escapementResume dt cluster) s = .next (if (z1.esc cluster).stalled.isEmpty then z1.markLate cluster true else z1.countStall cluster))

/-- A unit takes the ready instance of the earliest beat, lowest segment and lowest entry, once its trigger has come and the unit and its
flow are free (R71), unless the die starts no instance any more (R325). The instance is then in service. -/
def Obligations.TasksStartInOrder : Prop :=
  (∀ (dt die inst : Nat) (s : State) (i : Inst), let z := s.advance dt
    z.serving = true → z.dieUp die = true → z.startsHeld die = false → (z.pool die).inst inst = some i → i.phase = .ready → (z.pool die).reached i = true →
    (∀ j ∈ (z.pool die).insts, j.desc.unit = i.desc.unit → j.serving = false) →
    (i.desc.flow = 0 ∨ ∀ j ∈ (z.pool die).insts, j.desc.flow = i.desc.flow → j.serving = false) →
    (∀ j ∈ (z.pool die).insts, j.desc.unit = i.desc.unit → (z.pool die).startable j = true → Inst.before j i = false) →
    i.desc.op ≠ .testWindow →
    exec (.taskStart dt die inst) s = .next (z.begin_ die i)) ∧
  (∀ (dt die inst : Nat) (s : State) (i : Inst), let z := s.advance dt
    (z.pool die).inst inst = some i → i.phase ≠ .ready → exec (.taskStart dt die inst) s = .next z) ∧
  (∀ (z : State) (die : Nat) (i : Inst), (z.pool die).inst i.id = some i → (∀ id, i.desc.op ≠ .decode id) →
    ((z.begin_ die i).pool die).inst i.id = some { i with phase := .inService z.now })

/-- An instance whose deadline passes with its count above zero expires (R76), once the nanosecond of its deadline, in which an arrival comes
first (R75), is over; a test window ends at once where no slice holds its unit, and otherwise runs for its length and runs the unit's slice
(R78). (Test windows follow log entry 23.) -/
def Obligations.TasksExpireAndWindowsEnd : Prop :=
  (∀ (dt die inst : Nat) (s : State) (i : Inst), let z := s.advance dt
    z.serving = true → z.dieUp die = true → (z.pool die).inst inst = some i → i.phase = .waiting → 0 < i.count → i.deadline < wholeNs z.now →
    exec (.taskExpired dt die inst) s = .next (State.decrement die decrFuel (z.expireNow die i i.deadline).2 (z.expireNow die i i.deadline).1)) ∧
  (∀ (dt die inst : Nat) (s : State) (i : Inst), let z := s.advance dt
    (z.pool die).inst inst = some i → wholeNs z.now ≤ i.deadline → exec (.taskExpired dt die inst) s = .next z) ∧
  (∀ (dt die inst : Nat) (s : State) (i : Inst), let z := s.advance dt
    z.serving = true → z.dieUp die = true → (z.pool die).inst inst = some i → i.desc.op = .testWindow → i.phase = .ready →
    (z.pool die).next i = true →
    exec (.testWindow dt die inst) s = .next (if sliceOn z i.desc.unit then (z.begin_ die i).runSlices i.desc.unit
      else (z.begin_ die i).complete die { i with phase := .inService z.now } [])) ∧
  (∀ (dt die inst : Nat) (s : State) (i : Inst) (t0 : Instant), let z := s.advance dt
    z.serving = true → z.dieUp die = true → (z.pool die).inst inst = some i → i.desc.op = .testWindow → i.phase = .inService t0 →
    t0 + ns i.desc.service ≤ z.now → exec (.testWindow dt die inst) s = .next (z.complete die i []))

/-- A task that completes after the next beat of its own segment has overrun set in its outcome, and the escapement raises OVERRUN (R74). -/
def Obligations.LateCompletionIsOverrun : Prop :=
  ∀ (z : State) (die : Nat) (i : Inst) (rest : List Nat), i.desc.succ = [] → i.desc.record = true →
    (z.complete die i rest).events.raised = z.events.raised ++ (if i.nextBeat < z.now then
      [{ stamp := z.now, source := 128 + 8 * clusterDie i.cluster, code := 3, pkg := pkgOfDie (clusterDie i.cluster),
         data := BitVec.ofNat 120 (dCode 88 32 (clusterSite i.cluster) + dCode 72 16 i.entry + dBits 40 32 (nsOf (z.now - i.nextBeat))) }] else []) ∧
    ∃ r, ((z.complete die i rest).pool die).records = (z.pool die).records ++ [r] ∧
      r.outcome = b2n i.expired + 2 * b2n i.inputsIncomplete + 4 * b2n i.predExpired + 8 * b2n (decide (i.nextBeat < z.now)) ∧
      r.beat = i.beat ∧ r.completed = z.now

/-- The audio grid (R60): a beat every 2,500,000 ns, 400 to a TAI second, numbered from 400 times the second on; a codec frame every
eighth beat, so that the first of a second begins on it. -/
def Obligations.AudioGrid : Prop :=
  (∀ sc k : Nat, k < 400 → Grid.audio.beatAt (400 * sc + k) = sec sc + ns (k * 2500000)) ∧
  (∀ t : Instant, Grid.audio.isBeat t = true ↔ ∃ i, t = Grid.audio.beatAt i) ∧
  (∀ i : Nat, Grid.audio.indexOf (Grid.audio.beatAt i) = i) ∧
  (∀ sc : Nat, (400 * sc) % 8 = 0 ∧ ((List.range 400).filter (fun k => (400 * sc + k) % 8 == 0)).length = 50)

/- Video and audio tasks. -/

/-- The video rows complete: a decode, a composition, an encode or the finish of a gang in service does its work on the stream, output or leg that
its beat has (R89), posts what it made and leaves the pool; a graphic's new front is copied once every composition of the old one is over; and
access units whose timers have run out are abandoned. -/
def Obligations.VideoTasksComplete : Prop :=
  (∀ (dt die inst : Nat) (haps : List Hap) (s : State) (i : Inst) (id : Nat), let z := s.advance dt
    let w := (z.haps haps).onDecode id i.beat (fun t => t.decodeDone id i.beat)
    z.dieUp die = true → z.inService die inst = some i → i.desc.op = .decode id →
    exec (.decodeTask dt die inst haps) s = .next (w.1.complete die i w.2)) ∧
  (∀ (dt die inst : Nat) (haps : List Hap) (poison : List (Nat × Nat × Nat)) (s : State) (i : Inst) (id : Nat), let z := s.advance dt
    let w := (z.haps haps).onOutput id i.beat (fun t => t.composeDone id i.beat poison)
    z.dieUp die = true → z.inService die inst = some i → i.desc.op = .compose id →
    exec (.composeTask dt die inst haps poison) s = .next (w.1.complete die i w.2)) ∧
  (∀ (dt die inst : Nat) (haps : List Hap) (poison : List (Nat × Nat)) (s : State) (i : Inst) (id k : Nat), let z := s.advance dt
    z.dieUp die = true → z.inService die inst = some i → i.desc.op = .encode id k →
    exec (.encodeTask dt die inst haps poison) s =
      .next ((z.haps haps).onEncode id i.beat (fun t => (t.encodeDone die id k i poison, ()))).1) ∧
  (∀ (dt die inst : Nat) (haps : List Hap) (poison : List (Nat × Nat)) (s : State) (i : Inst) (id : Nat), let z := s.advance dt
    z.dieUp die = true → z.inService die inst = some i → i.desc.op = .gangFinish id →
    exec (.gangFinish dt die inst haps poison) s =
      .next ((z.haps haps).onEncode id i.beat (fun t => (t.gangDone die id i poison, ()))).1) ∧
  (∀ (z : State) (id : Nat) (c : Instant) (f : State → State × Unit), z.goneAt id c GoneObj.asEncode = none → z.onEncode id c f = f z) ∧
  (∀ (z : State) (die id k : Nat) (i : Inst) (poison : List (Nat × Nat)) (x : EncodeLeg), let y := z.takeScoped (.encoding id) i.beat
    let w := y.codeFrame id i.beat i.inputsIncomplete poison
    y.encode id = some x →
    (x.cfg.gang = false → z.encodeDone die id k i poison = w.1.postFrame die id i w.2.1 w.2.2) ∧
    (x.cfg.gang = true → z.encodeDone die id k i poison = (y.setEncode id { x with tilesDone := x.tilesDone ++
      [{ beat := i.beat, tile := k, incomplete := i.inputsIncomplete, poison := poison }] }).complete die i [])) ∧
  (∀ (z : State) (die id : Nat) (i : Inst) (poison : List (Nat × Nat)) (x : EncodeLeg),
    let w := z.codeFrame id i.beat false (((x.tilesDone.filter (fun d => d.beat == i.beat)).map (·.poison)).flatten ++ poison)
    z.encode id = some x →
    (x.gangWhole i.beat = true → z.gangDone die id i poison = w.1.postFrame die id i w.2.1 w.2.2) ∧
    (x.gangWhole i.beat = false → z.gangDone die id i poison = (z.setEncode id
      { x with repeatNext := true, tilesDone := x.tilesDone.filter (fun q => q.beat != i.beat) }).complete die i (x.discardRec id))) ∧
  (∀ (dt surface : Nat) (s : State) (g : Graphic) (t0 : Instant), let z := s.advance dt
    z.serving = true → z.video.graphics.find surface = some g → g.copyPending = some t0 → t0 ≤ z.now → drawsOld z surface t0 = false →
    exec (.graphicCopy dt surface) s = .next (z.setGraphic surface (g.copied z.now))) ∧
  (∀ (dt stream : Nat) (s : State) (x : DecodeStream) (t0 : Instant), let z := s.advance dt
    z.serving = true → z.decode stream = some x → x.abandonAt = some t0 → t0 ≤ z.now →
    exec (.auAbandon dt stream) s = .next (State.lapseAus stream z.now true x.held.length (z.abandonHead stream t0)))

/-- The audio rows complete: a RECEIVE, a SEND or a mix in service takes the changes that wait for its object, works its beat and leaves
the pool, while its unit does not run with X alone (R225); talkers are judged for the codec frame whose last beat is over; and entries that a leg
has not heard for its timeout go. -/
def Obligations.AudioTasksComplete : Prop :=
  (∀ (dt die inst : Nat) (haps : List Hap) (s : State) (i : Inst) (id : Nat), let z := s.advance dt
    z.dieUp die = true → z.inService die inst = some i → i.desc.op = .receive id → z.xAlone (legUnit id) = false →
    exec (.receiveTask dt die inst haps) s =
      .next ((((z.haps haps).takeScoped (.audioTask id) i.beat).receiveBeat id i.beat).complete die i [])) ∧
  (∀ (dt die inst : Nat) (haps : List Hap) (poison : List Nat) (s : State) (i : Inst) (id : Nat), let z := s.advance dt
    let w := ((z.haps haps).takeScoped (.audioTask id) i.beat).sendBeat id i.beat i.inputsIncomplete poison
    z.dieUp die = true → z.inService die inst = some i → i.desc.op = .send id → z.xAlone (legUnit id) = false →
    exec (.sendTask dt die inst haps poison) s = .next (match w.2 with
      | some p => (w.1.complete die i []).postAudio id p
      | none => w.1.complete die i [])) ∧
  (∀ (dt die inst : Nat) (haps : List Hap) (poison : List (Nat × Nat)) (transit : List Nat) (s : State) (i : Inst) (t0 : Instant), let z := s.advance dt
    z.dieUp die = true → (z.pool die).inst inst = some i → i.phase = .inService t0 → i.desc.op = .mix →
    exec (.mix dt die inst haps poison transit) s =
      .next (((z.haps haps).mixBeat die i.beat t0 i.inputsIncomplete poison transit).complete die i [])) ∧
  (∀ (dt die : Nat) (s : State), let z := s.advance dt; let i := Grid.audio.indexAtOrBefore z.now
    z.live = true → z.dieUp die = true → 8 ≤ i →
    exec (.talkerSelection dt die) s = .next ((z.xp die).groups.keys.foldl (State.judgeGroup die (i / 8 - 1)) z)) ∧
  (∀ (dt leg : Nat) (s : State) (x : AudioLeg), let z := s.advance dt
    z.serving = true → z.audioLeg leg = some x →
    ∃ t, exec (.beaconLost dt leg) s = .next t ∧
      t.audioLeg leg = some { x with beacon := { x.beacon with
        heard := x.beacon.heard.filter (fun h => decide (z.now < h.at_ + sec x.beacon.cfg.heardTimeout)) } } ∧
      t.events.raised.length = z.events.raised.length +
        (x.beacon.heard.filter (fun h => decide (h.at_ + sec x.beacon.cfg.heardTimeout ≤ z.now))).length)

/- Packets, images, egress. -/

/-- The packets of streams, for every frame that reaches the packet clusters of a package in service with a bound context: one of an unpinned
context takes the standard path. In clear, or under a key context that grants a use and verifies its tag, it is marked, authenticated and passed
on; a replay, a bad UDP checksum of a clear one, and a damaged tag are counted and go no further. One of a pinned context takes the express
path: at its layer decision its copies are made for every target, its tag's verdict and its frame's end follow once their bytes are in. RTCP is
taken under its key. -/
def Obligations.PacketsAreForwarded : Prop :=
  (∀ (p : RtpRx) (s : State) (ctx : Nat) (x : Stream), let z := s.advance p.dt
    z.reachesClusters p.frame = true → fcsGood p.bytes = true → z.contextOf p = some (ctx, x) → x.pinned = false →
    exec (.rtpPacket p) s = .next (z.standardPath ctx x p)) ∧
  (∀ (p : RtpRx) (s : State) (ctx i : Nat) (x : Stream), let z := s.advance p.dt
    let y := ((z.haps p.haps).countArrival ctx p.len).modStream ctx (fun y => y.mark i)
    z.reachesClusters p.frame = true → fcsGood p.bytes = true → z.contextOf p = some (ctx, x) → z.stream ctx = some x → x.pinned = false →
    z.egress.policers.find x.cfg.policer = none → rtpIndex x.highIndex p.seq.toNat = some i → x.replayed i = false →
    x.cfg.keyCtx = 0 → p.udpOk = true → p.poison = false →
    exec (.rtpPacket p) s = .next ((y.authenticate ctx i 0).passPacket ctx p p.rtp)) ∧
  (∀ (p : RtpRx) (s : State) (ctx i key : Nat) (x : Stream), let z := s.advance p.dt
    let y := ((z.haps p.haps).countArrival ctx p.len).modStream ctx (fun y => y.mark i)
    let w := (y.grant key false).1.openRtp ctx i x.cfg key p
    z.reachesClusters p.frame = true → fcsGood p.bytes = true → z.contextOf p = some (ctx, x) → z.stream ctx = some x → x.pinned = false →
    z.egress.policers.find x.cfg.policer = none → rtpIndex x.highIndex p.seq.toNat = some i → x.replayed i = false →
    x.cfg.keyCtx ≠ 0 → p.poison = false → z.namedKey x p.rtp.body = some key → (y.grant key false).2 = true →
    (z.verifies key i p.header p.rtp.body = true →
      exec (.rtpPacket p) s = .next ((w.authenticate ctx i key).passPacket ctx p (p.clear (z.key key) i))) ∧
    (z.verifies key i p.header p.rtp.body = false →
      exec (.rtpPacket p) s = .next ((w.unmark ctx i).authFailed ctx p.seq 1 x.targets.length))) ∧
  (∀ (p : RtpRx) (s : State) (ctx i : Nat) (x : Stream), let z := s.advance p.dt
    let y := (z.haps p.haps).countArrival ctx p.len
    z.reachesClusters p.frame = true → fcsGood p.bytes = true → z.contextOf p = some (ctx, x) → z.stream ctx = some x → x.pinned = false →
    (x.cfg.keyCtx = 0 → p.udpOk = false → exec (.rtpPacket p) s = .next (y.modParse p.port (fun c => { c with udpChecksum := c.udpChecksum + 1 }))) ∧
    (x.cfg.keyCtx ≠ 0 ∨ p.udpOk = true → rtpIndex x.highIndex p.seq.toNat = some i → x.replayed i = true →
      exec (.rtpPacket p) s = .next (y.countStream ctx (fun c => { c with replay := c.replay + 1 })))) ∧
  (∀ (p : RtpRx) (s : State) (ctx : Nat) (x : Stream), let z := s.advance p.dt
    z.reachesClusters p.frame = true → z.contextOf p = some (ctx, x) → x.pinned = true →
    exec (.expressPacket p) s = .next (z.expressPath ctx x p)) ∧
  (∀ (p : RtpRx) (s : State) (ctx i : Nat) (x : Stream), let z := s.advance p.dt
    let y := ((z.haps p.haps).countArrival ctx p.len).modStream ctx (fun y => y.mark i)
    let g := if x.cfg.keyCtx = 0 then (y, true) else y.grant x.cfg.keyCtx false
    let r := p.clear (g.1.key x.cfg.keyCtx) i; let f := rtpFwd r x z.now; let cut := g.1.cutOf ctx i x p r
    let w := (g.1.seenPacket ctx r.seq r.ts (rtpStruct r x) f.layers).modStream ctx (fun y => { y with sender := some (p.ip.src, p.ip.srcUdp) })
    let v := { w.fwd with cuts := w.fwd.cuts ++ [cut], nextCut := cut.id + 1 }
    z.reachesClusters p.frame = true → z.contextOf p = some (ctx, x) → z.stream ctx = some x → x.pinned = true →
    z.egress.policers.find x.cfg.policer = none → rtpIndex x.highIndex p.seq.toNat = some i → x.replayed i = false → g.2 = true →
    exec (.expressPacket p) s =
      .next (x.targets.keys.foldl (State.expressOne p f (rtpStruct r x).isSome ctx cut.id) { w with fwd := v })) ∧
  (∀ (dt cut : Nat) (s : State) (c : Cut), let z := s.advance dt; let y := z.modCut cut (fun c => { c with verdict := some c.good })
    z.fwd.cuts.find? (fun c => c.id == cut && c.verdict.isNone) = some c → c.tagAt ≤ z.now →
    exec (.tagVerdict dt cut) s = .next (if c.good then
      ((((y.authenticate c.ctx c.index c.keyUsed).deliver c.cfg c.payload c.arrival).releaseHeld c.id)).closeCut cut
      else (y.failCut c).closeCut cut)) ∧
  (∀ (dt cut : Nat) (s : State) (c : Cut), let z := s.advance dt; let y := z.modCut cut (fun c => { c with ended := true })
    z.fwd.cuts.find? (fun c => c.id == cut && !c.ended) = some c → c.endAt ≤ z.now →
    exec (.ingressFrameEnd dt cut) s = .next (if c.frameOk = true ∨ c.targets = [] then y.closeCut cut
      else (((y.markCuts c.id (fun h => { h with stomped := true })).countStream c.ctx
        (fun k => { k with fcsStomped := k.fcsStomped + BitVec.ofNat 64 c.targets.length })).raise (fwdSource (ctxPkg c.ctx)) 4
          (ctxSeqData c.ctx c.seq + dCode 76 8 (targetBits c.targets)) (ctxPkg c.ctx)).closeCut cut)) ∧
  (∀ (f : FrameRx) (s : State) (ctx : Nat) (x : Stream), let z := s.advance f.dt; let y := z.haps f.haps
    z.reachesClusters f = true → f.fcsOk = true → fieldAt f.udp 0 1 / 64 = 2 → 192 ≤ fieldAt f.udp 1 1 → fieldAt f.udp 1 1 ≤ 223 →
    z.fwd.lookup f.port f.ip.family f.ip.dst f.dstUdp f.rtcpSsrc = some (ctx, x) →
    exec (.rtcpPacket f) s = .next (y.rtcpOf ctx x f) ∧
    (x.cfg.keyCtx = 0 → exec (.rtcpPacket f) s = .next (if (y.rtcpBudget f.port).2
      then (rtcpPackets f.udp.length f.udp).foldl State.feedback (y.rtcpBudget f.port).1 else (y.rtcpBudget f.port).1))) ∧
  (∀ (f : FrameRx) (s : State), let z := s.advance f.dt
    z.reachesClusters f = true → f.fcsOk = true → fieldAt f.udp 0 1 / 64 = 2 → 192 ≤ fieldAt f.udp 1 1 → fieldAt f.udp 1 1 ≤ 223 →
    z.fwd.bound f.port f.ip.family f.ip.dst f.dstUdp ≠ [] → z.fwd.lookup f.port f.ip.family f.ip.dst f.dstUdp f.rtcpSsrc = none →
    exec (.rtcpPacket f) s = .next ((z.haps f.haps).unknownSsrc f.port f.ip.dst f.dstUdp f.rtcpSsrc))

/-- Keys and sealed images: a promised roll moves every target of the key to its next one, up to 200,000 ns late and no later (R124); an image
that its unit has sealed is the header, the ciphertext and the tag (R128), and is sent segment by segment, each as one frame of the export's class,
the last of which ends the export; an arriving segment is taken where the import holds it, and the last missing one makes the image whole. -/
def Obligations.KeysRollAndImagesMove : Prop :=
  (∀ (dt key n : Nat) (s : State) (k : KeyCtx) (due : Instant), let z := s.advance dt
    z.key key = some k → k.rollDue = some due → z.now ≤ due + ns 200000 → z.rollNext k = some n →
    exec (.keyAutoRoll dt key) s = .next (applyAll ((z.fwd.targetsOfKey key).map (fun t => .fwd (.rollTarget t.1 t.2 n)))
      (z.setKey key { k with rollDue := none }))) ∧
  (∀ (dt key : Nat) (s : State) (k : KeyCtx) (due : Instant), let z := s.advance dt
    z.key key = some k → k.rollDue = some due → due + ns 200000 < z.now → exec (.keyAutoRoll dt key) s = .next z) ∧
  (∀ (dt pkg : Nat) (s : State) (m : CryptoMsg), let z := s.advance dt; let x := z.cipher.exp pkg
    let u := (z.cipher.unit (imageUnit pkg)).workTo z.now
    z.serving = true → pkg ≤ 1 → x.state = 1 → u.sealed_ = some m →
    ∃ t, exec (.sealComplete dt pkg) s = .next t ∧
      t.cipher.exp pkg = { x with state := 2, next := 0, lastSend := 0, image := x.header m.output.length ++ m.output ++ m.tag } ∧
      t.cipher.unit (imageUnit pkg) = { u with sealed_ := none } ∧
      t.events.raised = z.events.raised ++ [{ stamp := z.now, source := 75, code := 4, pkg := pkg, data := BitVec.ofNat 120 (dCode 88 32 x.imageId) }]) ∧
  (∀ (dt pkg : Nat) (s : State), let z := s.advance dt; let x := z.cipher.exp pkg
    let data := (x.image.drop (1024 * x.next)).take (segmentLen x.imageLen x.next)
    z.serving = true → pkg ≤ 1 → x.state = 2 → x.next < x.until_ → x.lastSend = 0 →
    ∃ t l c, exec (.segmentSend dt pkg) s = .next t ∧
      t.cipher.exp pkg = { x with next := x.next + 1, lastSend := z.now, bytesSent := x.bytesSent + segmentLen x.imageLen x.next,
                                  state := if x.next + 1 = x.until_ then 3 else 2 } ∧
      c.payload = .segment pkg x.next data ∧ c.body = segmentBytes x.imageId x.next data ∧
      c.len = segmentFrame x x.next ∧ c.dstAddr = x.dstAddress ∧ c.dstUdp = x.dstUdpPort ∧ c.srcUdp = x.srcUdpPort ∧ l.cfg.cls = x.trafficClass ∧
      t.egress = ((z.setLeg (exportLegNo pkg) l).enqueue (exportLegNo pkg) c).1.egress ∧
      (x.next + 1 = x.until_ → t.events.raised.getLast? = some
        { stamp := z.now, source := 75, code := 4, pkg := pkg, data := BitVec.ofNat 120 (dCode 88 32 x.imageId + dCode 80 8 1) })) ∧
  (∀ (f : FrameRx) (s : State), let z := s.advance f.dt; let x := z.cipher.imp f.port; let u := f.udp; let data := u.drop 16; let index := fieldAt u 8 4
    let x1 := { x with segments := x.segments.put index (data ++ (x.segments.getD index []).drop data.length) }
    z.serving = true → f.port ≤ 1 → f.fcsOk = true → f.ip.isUdp = true → z.importTakes f = true → fieldAt u 0 2 = 0x564D →
    fieldAt u 2 2 = data.length → f.ip.src = x.srcAddress → fieldAt u 4 4 = x.imageId → 16 ≤ data.length → data.length ≤ 1024 →
    1024 * index + data.length ≤ x.imageLength →
    ∃ t, exec (.migrationSegment f) s = .next t ∧
      t.cipher.imp f.port = { x1 with state := if x1.firstMissing = segmentCount x1.imageLength then 2 else 1 } ∧
      t.events.raised = z.events.raised ++ (if x1.firstMissing = segmentCount x1.imageLength ∧ x.state = 1 then
        [{ stamp := z.now, source := 75, code := 4, pkg := f.port, data := BitVec.ofNat 120 (dCode 88 32 x.imageId + dCode 80 8 2) }] else [])) ∧
  (∀ (f : FrameRx) (s : State), let z := s.advance f.dt; let x := z.cipher.imp f.port; let u := f.udp; let data := u.drop 16; let index := fieldAt u 8 4
    z.serving = true → f.port ≤ 1 → f.fcsOk = true → f.ip.isUdp = true → z.importTakes f = true →
    fieldAt u 0 2 ≠ 0x564D ∨ fieldAt u 2 2 ≠ data.length ∨ f.ip.src ≠ x.srcAddress ∨ fieldAt u 4 4 ≠ x.imageId ∨ data.length < 16 ∨
      1024 < data.length ∨ x.imageLength < 1024 * index + data.length →
    exec (.migrationSegment f) s = .next (z.setImport f.port { x with dropped := x.dropped + 1 }))

/-- Egress: an interface that transmits nothing starts the frame that its classes and legs choose; a frame that has ended frees its cells
and lets the next in; a timer's window opens and is counted once; and every listed queue is sampled at its instant. -/
def Obligations.FramesAreTransmitted : Prop :=
  (∀ (dt port iface k id : Nat) (s : State), let z := s.advance dt; let y := z.noteMisses port iface
    z.live = true → port ≤ 1 → (z.port port).hasIface iface = true → z.pkgUp port = true → (z.egress.iface (ifNo port iface)).tx = none →
    (chooseClass y port iface).1 = some k → (chooseLeg y port iface k).1 = some id →
    exec (.egressSelect dt port iface) s =
      .next ((y.startFrame port iface k id (chooseClass y port iface).2 (chooseLeg y port iface k).2).noteMisses port iface)) ∧
  (∀ (dt port iface : Nat) (s : State) (f : InTx), let z := s.advance dt; let x := z.egress.iface (ifNo port iface)
    x.tx = some f → f.until_ ≤ z.now →
    let left := x.cuts.filter (fun g => decide (z.now < g.until_)); let gone := x.cuts.filter (fun g => decide (g.until_ ≤ z.now))
    let e := ({ z.egress with ifaces := z.egress.ifaces.put (ifNo port iface) { x with cuts := left, tx := none } }).setCells port
      (z.egress.cells port - cellsOf f.copy.len)
    exec (.transmitComplete dt port iface) s =
      .next (State.countSent { z with egress := e.admitWaiting port z.now 64 } port iface (gone.length + 1))) ∧
  (∀ (dt port iface : Nat) (s : State) (f : InTx), let z := s.advance dt; let x := z.egress.iface (ifNo port iface)
    x.tx = some f → z.now < f.until_ → x.cuts = [] → exec (.transmitComplete dt port iface) s = .next z) ∧
  (∀ (dt timer : Nat) (s : State) (t : Timer), let z := s.advance dt; let o := (t.window z.now).1
    z.live = true → z.egress.timers.find timer = some t → o ≤ z.now → t.open_ ≠ some o →
    let e := { z.egress with timers := z.egress.timers.put timer { t with windows := t.windows + 1, open_ := some o } }
    exec (.launchWindowOpen dt timer) s = .next (State.noteMisses { z with egress := e } t.cfg.port t.cfg.iface)) ∧
  (∀ (dt pkg : Nat) (s : State), let z := s.advance dt; let c := z.egress.sampling pkg
    z.serving = true → pkg ≤ 1 → z.pkgUp pkg = true → c.intervalUs ≠ 0 → z.now % 65536 = 0 → nsOf z.now % 1000000000 % (c.intervalUs * 1000) = 0 →
    c.legs ≠ [] →
    ∃ t, exec (.queueSample dt pkg) s = .next t ∧
      t.egress.samplesWaiting = z.egress.samplesWaiting.filter (fun w => w.pkg != pkg) ++
        ((z.events.subs.filter (fun p => p.2.samples)).map (·.1)).map (fun i => { sub := i, pkg := pkg, instant := z.now, recs := c.legs.map (sampleOf z) }) ∧
      t.events.samplesLost = z.events.samplesLost +
        BitVec.ofNat 64 (sumN ((z.egress.samplesWaiting.filter (fun w => w.pkg == pkg)).map (fun w => w.recs.length))))

/- The timebase. -/

/-- PTP: a Sync measures; a Delay_Req is answered with its instant, the request's correction less the fraction of the instant; a Delay_Resp
to the request under way gives the path delay, and a port without one becomes SLAVE; an Announce is weighed by the BMCA, as is the want of
one; a port sends its own messages when they fall due; and grants are given to 256 peers, asked for again or ended.
(Readings of log entry 37.) -/
def Obligations.PtpRowsComplete : Prop :=
  (∀ (x : PtpRx) (s : State), let z := s.advance x.dt; let y := (z.takePtp x).1
    z.ptpComes x 0 = true → (z.takePtp x).2 = true →
    exec (.ptpSyncReceived x) s = .next ((y.modPtp x.port (fun p => { p with syncRx := p.syncRx + 1 })).syncMeasure x)) ∧
  (∀ (x : PtpRx) (s : State), let z := s.advance x.dt
    let y := (z.takePtp x).1.modPtp x.port (fun p => { p with delayReqRx := p.delayReqRx + 1 }); let t4 := y.tRx x.port x.rxMac
    z.ptpComes x 1 = true → (z.takePtp x).2 = true → (y.time.port x.port).portState = 6 → y.granted x.port x.peer 9 = true →
    let m : PtpMsg :=
      { kind := 9, source := portIdentity x.port, domain := x.domain, seq := x.seq, stamp := wholeNs t4, corr := x.corr - ((t4 - wholeNs t4 : Nat) : Int),
        requesting := x.source }
    exec (.ptpDelayReqReceived x) s = .next (y.sendPtp x.port m (if y.time.ptp.profile = 1 then x.peer else 0))) ∧
  (∀ (x : PtpRx) (s : State) (t3 : Instant) (d : Int), let z := s.advance x.dt; let y := (z.takePtp x).1; let p := y.time.port x.port
    z.ptpComes x 9 = true → (z.takePtp x).2 = true → p.t3 = some (x.seq, t3) → p.lastSync = some d → p.portState = 9 →
    x.requesting = portIdentity x.port →
    exec (.ptpDelayRespReceived x) s = .next (y.setPtp x.port { p with delay2 := some (d + (((x.stamp : Int) - x.corr) - (t3 : Int))), t3 := none })) ∧
  (∀ (x : PtpRx) (s : State), let z := s.advance x.dt; let y := (z.takePtp x).1; let p := y.time.port x.port
    z.ptpComes x 11 = true → (z.takePtp x).2 = true → x.source / 65536 ≠ clockIdentity → y.time.ptp.profile ≠ 1 ∨ x.peer ∈ p.cfg.masters →
    exec (.ptpAnnounceReceived x) s = .next ((y.setPtp x.port (p.heard x y.now)).bmca)) ∧
  (∀ (dt port : Nat) (s : State), let z := s.advance dt; let p := z.time.port port
    z.serving = true → port ≤ 1 → z.time.ptp.hasPort port = true → p.portState = 4 →
    p.lastAnnounce + p.cfg.announceTimeout * logInterval p.cfg.logAnnounce ≤ z.now →
    (∀ f ∈ p.foreign, f.qualified (logInterval p.cfg.logAnnounce) z.now = false) → z.time.ptp.slaveOnly = true →
    exec (.announceTimeout dt port) s = .next ((z.setPtp port { p with foreign := [], lastAnnounce := z.now }).bmca)) ∧
  (∀ (dt port : Nat) (s : State), let z := s.advance dt; let p := z.time.port port
    z.ptpDue port [6] (·.nextSync) = true →
    exec (.ptpSyncSend dt port) s = .next ((z.ptpPeers port 0).foldl
      (fun t a => t.sendPtp port { kind := 0, source := portIdentity port, domain := t.time.ptp.domain, seq := p.syncSeq } a)
      (z.setPtp port { p with nextSync := z.now + logInterval p.cfg.logSync, syncSeq := (p.syncSeq + 1) % 65536,
                              syncTx := p.syncTx + BitVec.ofNat 64 (z.ptpPeers port 0).length }))) ∧
  (∀ (dt port : Nat) (s : State), let z := s.advance dt; let p := z.time.port port
    z.ptpDue port [8, 9] (·.nextDelayReq) = true →
    let y := z.setPtp port { p with nextDelayReq := z.now + logInterval p.cfg.logDelayReq, delaySeq := (p.delaySeq + 1) % 65536, delayReqTx := p.delayReqTx + 1 }
    exec (.ptpDelayReqSend dt port) s = .next (y.sendPtp port { kind := 1, source := portIdentity port, domain := y.time.ptp.domain, seq := p.delaySeq }
      (if y.time.ptp.profile = 1 then p.parentPeer else 0))) ∧
  (∀ (dt port : Nat) (s : State), let z := s.advance dt; let p := z.time.port port
    z.ptpDue port [6] (·.nextAnnounce) = true →
    exec (.ptpAnnounceSend dt port) s = .next ((z.ptpPeers port 11).foldl
      (fun t a => t.sendPtp port { kind := 11, source := portIdentity port, domain := t.time.ptp.domain, seq := p.announceSeq, ds := some t.advertised } a)
      (z.setPtp port { p with nextAnnounce := z.now + logInterval p.cfg.logAnnounce, announceSeq := (p.announceSeq + 1) % 65536,
                              announceTx := p.announceTx + BitVec.ofNat 64 (z.ptpPeers port 11).length }))) ∧
  (∀ (x : PtpRx) (s : State), let z := s.advance x.dt; let y := (z.takePtp x).1
    z.ptpComes x 12 = true → (z.takePtp x).2 = true → y.time.ptp.profile = 1 →
    exec (.unicastNegotiation x) s = .next (x.tlvs.foldl (fun t v => t.negotiate x.port x.peer v.1 v.2.1 v.2.2) y)) ∧
  (∀ (port peer msgType duration : Nat) (z : State), let p := z.time.port port
    let others := p.grants.filter (fun g => g.grantor && !(g.peer == peer && g.msgType == msgType))
    let answer := fun d => ({ kind := 12, source := portIdentity port, domain := z.time.ptp.domain, tlv := some (1, msgType, d) } : PtpMsg)
    0 < duration →
    z.negotiate port peer 0 msgType duration = if others.length < 256
      then (z.setPtp port (p.putGrant peer msgType (z.now + sec duration) true)).sendPtp port (answer duration) peer
      else z.sendPtp port (answer 0) peer) ∧
  (∀ (dt port id : Nat) (s : State) (g : Grant), let z := s.advance dt; let p := z.time.port port
    let y := z.setPtp port { p with grants := p.grants.filter (fun h => h.id != id) }
    p.grants.find? (fun g => g.id == id) = some g → z.serving = true → port ≤ 1 → g.ends ≤ z.now →
    exec (.unicastGrantExpiry dt port id) s = .next (if g.grantor then y else y.askGrant port g.peer g.msgType))

/-- The timebase: the regulator takes the measurement of its source; a silent source gives way to the next one that is available; a
traceable HOLDOVER expires once at its limit; TIME_IN edges are taken or rejected, averaged, and missed; TIME_OUT gives its edges and
its one shot; counters and replicas are compared, and the OCXO reports. (Readings of log entries 38 and 39.) -/
def Obligations.TimeRowsComplete : Prop :=
  (∀ (dt x T : Nat) (e : Int) (s : State), let z := s.advance dt
    z.serving = true → z.time.forced = false → z.time.source = x → (z.time.reg.list.filter (fun y => (z.ready y).isSome)).head? = some x →
    z.ready x = some (e, T) → exec (.regulatorUpdate dt) s = .next (z.useUp.measure z.view e T)) ∧
  (∀ (dt : Nat) (s : State), let z := s.advance dt
    z.serving = true → z.time.reg.list.filter (fun y => (z.ready y).isSome) = [] → exec (.regulatorUpdate dt) s = .next z.useUp) ∧
  (∀ (dt x : Nat) (s : State), let z := s.advance dt
    z.serving = true → z.time.source ≠ 0 → z.time.lastMeasure + ms z.time.reg.sourceTimeout ≤ z.now →
    (z.loseSource.time.reg.list.filter (fun y => y != z.time.source && z.loseSource.available y)).head? = some x →
    exec (.sourceTimeout dt) s = .next (z.loseSource.takeSource x)) ∧
  (∀ (dt : Nat) (s : State), let z := s.advance dt; let y := { z.time with holdoverExpired := true }
    z.serving = true → z.time.mode = .holdover → z.time.holdoverTraceable = true → z.time.holdoverExpired = false →
    z.time.holdoverSince + sec z.time.reg.holdoverLimit ≤ z.now →
    exec (.holdoverExpired dt) s = .next ((State.raise { z with time := y } 16 6 (dBits 88 32 ((z.now - z.time.holdoverSince) / sec 1))).squelch)) ∧
  (∀ (dt stamp : Nat) (s : State), let z := s.advance dt; let edge := stamp / 16384 * 16384
    z.serving = true → z.time.timeInMode = 1 →
    (z.time.timeInLast = none ∨ ∃ l, z.time.timeInLast = some l ∧ (wrapAround ((edge : Int) - (l : Int)) (sec 1)).natAbs ≤ ns 1000) →
    exec (.timeInEdge dt stamp) s = .next (z.timeInMeasure (2 * wrapAround (edge : Int) (sec 1) - z.time.timeInDelay * 2 ^ 15) edge)) ∧
  (∀ (dt stamp l : Nat) (s : State), let z := s.advance dt; let edge := stamp / 16384 * 16384
    z.serving = true → z.time.timeInMode = 1 → z.time.timeInLast = some l → ns 1000 < (wrapAround ((edge : Int) - (l : Int)) (sec 1)).natAbs →
    ∃ t, exec (.timeInEdge dt stamp) s = .next t ∧ t.time.timeInLast = some l ∧ t.time.timeInNew = z.time.timeInNew ∧ t.time.lastMeasure = z.time.lastMeasure) ∧
  (∀ (dt l : Nat) (edges : List Nat) (s : State), let z := s.advance dt
    z.serving = true → z.time.timeInMode = 2 → edges.getLast? = some l →
    exec (.timeInAverage dt edges) s = .next (z.timeInMeasure (roundDivAway (sumI (edges.map (fun e =>
      wrapAround (2 * ((e / 16384 * 16384 : Nat) : Int) - z.time.timeInDelay * 2 ^ 15) (2 * ns 100)))) edges.length) l)) ∧
  (∀ (dt : Nat) (failed : Bool) (s : State), let z := s.advance dt; let y := { z.time with timeInLost := true, timeInLast := none, timeInNew := none }
    z.serving = true → z.time.timeInLost = false →
    (z.time.timeInMode = 1 ∧ (z.time.timeInLast.getD z.time.timeInSince) + sec 3 ≤ z.now) ∨ (z.time.timeInMode = 2 ∧ failed = true) →
    exec (.timeInLost dt failed) s = .next (State.raise { z with time := y } 19 1 0)) ∧
  (∀ (dt : Nat) (s : State) (c : TimeOutCfg), let z := s.advance dt; let m := z.now + c.delay * 16384
    let y := { z.time with lastEdge := some m, pulses := z.time.pulses + 1 }
    z.serving = true → z.time.timeOut = some c → c.edgeAt z m = true → z.time.squelched = false → z.time.lastEdge ≠ some m →
    exec (.timeOutEdge dt) s = .next { z with time := y }) ∧
  (∀ (dt : Nat) (s : State) (c : TimeOutCfg), let z := s.advance dt; let m := z.now + c.delay * 16384
    let y := { z.time with oneShotDone := true, lastEdge := some m, pulses := z.time.pulses + 1 }
    z.serving = true → z.time.timeOut = some c → c.mode = 4 → z.time.oneShotDone = false → c.instant ≤ m → z.time.squelched = false →
    exec (.oneShot dt) s = .next (State.raiseAt { z with time := y } (z.now + ns c.pulseWidth) 20 2 0)) ∧
  (∀ (dt : Nat) (err : Int) (s : State), let z := s.advance dt
    let y := { z.time with otherErr := err - clampI (-4000) 4000 err, lastCompare := z.now }
    z.live = true → z.time.lastCompare + sec 1 ≤ z.now → exec (.counterCompare dt err) s = .next { z with time := y }) ∧
  (∀ (dt die : Nat) (err : Int) (s : State), let z := s.advance dt
    z.serving = true → die ≤ 7 → z.dieUp die = true → (z.pool die).replicaAt + sec 1 ≤ z.now →
    exec (.replicaCheck dt die err) s = .next ((z.modPool die (fun p => { p with replicaErr := err, replicaAt := z.now })).raiseIf (decide (16 < err.natAbs)) 21 1
      (dCode 88 32 (dieSite die) + dInt 56 32 err) (pkgOfDie die))) ∧
  (∀ (dt : Nat) (s : State), let z := s.advance dt; let y := { z.time with ocxoStable := true }
    z.live = true → z.time.ocxoStable = false → z.time.ocxoAlarm = false → exec (.ocxoStable dt) s = .next (State.ocxoEvent { z with time := y })) ∧
  (∀ (dt : Nat) (on : Bool) (s : State), let z := s.advance dt; let y := { z.time with ocxoAlarm := on }
    z.live = true → z.time.ocxoAlarm ≠ on → exec (.ocxoAlarm dt on) s = .next (State.ocxoEvent { z with time := y }))

/- Memory, ports, events. -/

/-- Refresh, temperature, scrub and audit: a due refresh is issued; it waits while a real-time request waits and the allowance lasts; at the
allowance it is forced; a stack at 85 °C doubles its refresh, and below 82 °C it goes back; a scrub meets the errors of its
pseudo-channel and mends the correctable ones; and at an audio beat a die audits its books. (Readings of log entries 40 and 41.) -/
def Obligations.MemoryRowsComplete : Prop :=
  (∀ (dt stack pch issued : Nat) (reqs : List MemReq) (s : State), let z := s.advance dt; let x := z.stack stack; let p := x.pch pch
    let n := p.postponed - min issued p.postponed; let waiting := reqs.any (·.realTime)
    z.stackRuns stack = true → pch < 32 → x.mode ≠ .selfRefresh → p.due ≤ z.now →
    ∃ t, exec (.refreshDue dt stack pch issued reqs) s = .next t ∧ ((t.stack stack).pch pch).due = p.due + x.mode.interval ∧
      ((waiting = true ∧ n < x.mode.allowance) → ((t.stack stack).pch pch).postponed = n + 1 ∧ ((t.stack stack).pch pch).lastRefresh = p.lastRefresh ∧
        (t.stack stack).forced = x.forced ∧ (t.stack stack).refreshes = x.refreshes + BitVec.ofNat 64 (min issued p.postponed)) ∧
      (¬(waiting = true ∧ n < x.mode.allowance) → ((t.stack stack).pch pch).postponed = n ∧ ((t.stack stack).pch pch).lastRefresh = z.now ∧
        (t.stack stack).forced = x.forced + BitVec.ofNat 64 (b2n waiting) ∧
        (t.stack stack).refreshes = x.refreshes + BitVec.ofNat 64 (min issued p.postponed + 1))) ∧
  (∀ (dt stack : Nat) (t : Int) (s : State), let z := s.advance dt; let x := { z.stack stack with temperature := t, lastReading := z.now }
    z.stackRuns stack = true → (z.stack stack).lastReading + ns 10000 ≤ z.now → x.mode = .normal → 85 ≤ t →
    exec (.temperatureReading dt stack t) s = .next ((((z.setStack stack x).setStack stack (x.double z.now)).raise (96 + stack) 1
      (dInt 112 8 t + dBits 104 8 x.largest) (stackPkg stack)).overtemp stack t)) ∧
  (∀ (dt stack : Nat) (t : Int) (s : State), let z := s.advance dt; let x := { z.stack stack with temperature := t, lastReading := z.now }
    z.stackRuns stack = true → (z.stack stack).lastReading + ns 10000 ≤ z.now → x.mode = .doubled → t < 82 →
    exec (.temperatureReading dt stack t) s = .next (((z.setStack stack x).setStack stack x.single).raise (96 + stack) 2 (dInt 112 8 t) (stackPkg stack))) ∧
  (∀ (dt stack : Nat) (t : Int) (s : State), let z := s.advance dt; let x := { z.stack stack with temperature := t, lastReading := z.now }
    z.stackRuns stack = true → (z.stack stack).lastReading + ns 10000 ≤ z.now → (x.mode = .normal ∧ t < 85) ∨ (x.mode = .doubled ∧ 82 ≤ t ∧ t < 95) →
    exec (.temperatureReading dt stack t) s = .next (z.setStack stack x)) ∧
  (∀ (dt stack pch : Nat) (found : List (Nat × Bool)) (s : State), let z := s.advance dt
    let x := (z.stack stack).addFlaws (found.filter (fun f => pchOf stack f.1 == pch))
    let y := (z.meetErrors stack (x.flaws.filter (fun f => pchOf stack f.1 == pch)))
    z.stackRuns stack = true → pch < 32 → ((z.stack stack).pch pch).lastScrub + sec 14400 ≤ z.now →
    ∃ t, exec (.hbmScrub dt stack pch found) s = .next t ∧
      (t.stack stack).flaws = (y.stack stack).flaws.filter (fun f => !(pchOf stack f.1 == pch && f.2 == 1)) ∧
      (t.stack stack).scrubPasses = (if pch = 31 then (y.stack stack).scrubPasses + 1 else (y.stack stack).scrubPasses)) ∧
  (∀ (dt die : Nat) (leaks : List (Nat × Int)) (s : State), let z := s.advance dt
    let errs := (leaks.filter (fun l => holdsBook die l.1)).foldl (fun t l => t.put (bookKey die l.1) (t.getD (bookKey die l.1) 0 + l.2)) z.mem.bookError
    let m := { z.mem with bookError := errs, beatAudits := z.mem.beatAudits.put die z.now }
    z.stackRuns die = true → Grid.audio.isBeat z.now = true → exec (.beatAudit dt die leaks) s = .next (State.auditSite { z with mem := m } die 0 0x1F))

/-- Ports: optics come and go; CMIS polls update the optics and let an activated data path leave stage 1; stages complete in order or time
out, and a failed bring-up starts again after 100 ms; alignment holds for up_hold before the interface is up; a loss that lasts for
down_hold takes it down; FEC windows, DFE limits, replays and lane failures are counted and reported.
(Readings of log entries 42 and 43.) -/
def Obligations.PortRowsComplete : Prop :=
  (∀ (dt port media ad : Nat) (modes : List Nat) (w : Int) (s : State), let z := s.advance dt
    let o : Optics := { media := media, modes := modes, advertisedMs := ad, highWarning := w, insertedAt := z.now }
    let y := (z.modPort port (fun x => { x with optics := some o, mismatchRaised := false, resolved := 0 })).raise (32 + port) 4 (dCode 112 8 media)
    z.portRuns port = true → (z.port port).optics = none →
    exec (.opticsInserted dt port media modes ad w) s = .next ((List.range (y.port port).ifaceCount).foldl (fun t i => t.startIface port i) y)) ∧
  (∀ (dt port : Nat) (s : State), let z := s.advance dt
    z.portRuns port = true → (z.port port).optics ≠ none →
    exec (.opticsRemoved dt port) s =
      .next (((z.modPort port (fun x => { x with optics := none, resolved := 0 })).portDown port 3).raise (32 + port) 5 0)) ∧
  (∀ (dt port st status : Nat) (temp : Int) (s : State) (o : Optics) (t0 : Instant), let z := s.advance dt
    (z.port port).optics = some o → o.firstAccess = some t0 → z.portRuns port = true → (z.port port).lastPoll + ms 100 ≤ z.now →
    let o1 := { o with moduleState := st, flags := [], temperature := temp, status := status }
    exec (.cmisPoll dt port st [] [] temp status) s = .next (z.modPort port (fun x => { x with optics := some o1, lastPoll := z.now }))) ∧
  (∀ (dt port iface mode t : Nat) (limits : List (Nat × Nat)) (s : State), let z := s.advance dt; let p := z.port port; let x := p.iface iface
    z.portRuns port = true → p.hasIface iface = true → p.lacksMode = false → x.retryAt = none → p.stageTimeout x.stage = some t → z.now ≤ x.since + t →
    (x.stage = 1 ∨ x.stage = 3 → exec (.bringupStageComplete dt port iface mode limits) s = .next (z.ifaceStage port iface 4)) ∧
    (x.stage = 2 ∧ p.cfg.mode ≠ 0 → exec (.bringupStageComplete dt port iface mode limits) s = .next (z.ifaceStage port iface 3)) ∧
    (x.stage = 2 ∧ p.cfg.mode = 0 → ∃ y, y = (z.ifaceStage port iface 3).modPort port (fun q => { q with resolved := mode }) ∧
      exec (.bringupStageComplete dt port iface mode limits) s = .next (if y.serving then y.selectMode port else y)) ∧
    (x.stage = 4 → exec (.bringupStageComplete dt port iface mode limits) s =
      .next (limits.foldl (fun t l => t.raise (34 + 8 * port + l.1) 1 (dCode 112 8 l.2)) (z.ifaceStage port iface 5))) ∧
    (x.stage = 5 → exec (.bringupStageComplete dt port iface mode limits) s = .next (z.ifaceStage port iface 6))) ∧
  (∀ (dt port iface t : Nat) (s : State), let z := s.advance dt; let p := z.port port; let x := p.iface iface
    let f := fun (y : Iface) => { y with bringupFail := y.bringupFail + 1, failEvent := (x.failEvent.hit z.now (sec 1)).2, retryAt := some (z.now + ms 100) }
    z.portRuns port = true → p.hasIface iface = true → x.retryAt = none → p.stageTimeout x.stage = some t → x.since + t ≤ z.now →
    ∃ u, exec (.bringupStageTimeout dt port iface) s = .next u ∧ u.ports = ((z.ifaceStage port iface 0).modIface port iface f).ports) ∧
  (∀ (dt port iface : Nat) (s : State) (t : Instant), let z := s.advance dt
    ((z.port port).iface iface).retryAt = some t → z.portRuns port = true →
    exec (.bringupRetry dt port iface) s = .next (if t ≤ z.now then z.startIface port iface else z)) ∧
  (∀ (dt port iface : Nat) (s : State), let z := s.advance dt; let p := z.port port; let x := p.iface iface
    z.portRuns port = true → p.hasIface iface = true → x.stage = 6 →
    exec (.upHoldEnd dt port iface) s = .next (if x.since + ms p.cfg.upHold ≤ z.now then z.ifaceUp port iface else z)) ∧
  (∀ (dt port iface cause : Nat) (s : State), let z := s.advance dt; let p := z.port port; let x := p.iface iface
    z.portRuns port = true → p.hasIface iface = true → x.stage = 7 → x.lossSince = none →
    exec (.alignmentLoss dt port iface cause true) s = .next (if p.cfg.downHold = 0 then z.ifaceDown port iface cause
      else z.modIface port iface (fun y => { y with lossSince := some (z.now, cause) })) ∧
    exec (.alignmentLoss dt port iface cause false) s = .next (z.modIface port iface (fun y => { y with lossSince := none }))) ∧
  (∀ (dt port iface cause : Nat) (s : State) (t : Instant), let z := s.advance dt; let p := z.port port; let x := p.iface iface
    z.portRuns port = true → p.hasIface iface = true → x.stage = 7 → x.lossSince = some (t, cause) →
    exec (.downHoldEnd dt port iface) s = .next (if t + ns (1000 * p.cfg.downHold) ≤ z.now then z.ifaceDown port iface cause else z)) ∧
  (∀ (dt port iface estimate corrected : Nat) (s : State), let z := s.advance dt; let p := z.port port; let x := p.iface iface
    z.portRuns port = true → p.hasIface iface = true → 5 ≤ x.stage → x.stage ≤ 7 → estimate ≤ p.cfg.berAlarm →
    exec (.fecWindow dt port iface estimate corrected 0) s =
      .next (z.modIface port iface (fun y => { y with fecCorrected := y.fecCorrected + BitVec.ofNat 64 corrected, fecUncorrectable := y.fecUncorrectable + 0#64,
                                                      fecEvent := x.fecEvent }))) ∧
  (∀ (dt port iface estimate corrected bad : Nat) (s : State), let z := s.advance dt; let p := z.port port; let x := p.iface iface
    let h := x.fecEvent.hit z.now (sec 1)
    z.portRuns port = true → p.hasIface iface = true → 5 ≤ x.stage → x.stage ≤ 7 → p.cfg.berAlarm < estimate ∨ 0 < bad →
    ∃ y, y = z.modIface port iface (fun w => { w with fecCorrected := w.fecCorrected + BitVec.ofNat 64 corrected,
                                                      fecUncorrectable := w.fecUncorrectable + BitVec.ofNat 64 bad, fecEvent := h.2 }) ∧
      exec (.fecWindow dt port iface estimate corrected bad) s =
        .next (if h.1.isSome then y.raise (32 + port) 8 (dCode 112 8 iface + dBits 48 64 estimate + dBits 16 32 bad) else y)) ∧
  (∀ (dt port lane tap : Nat) (s : State), let z := s.advance dt
    z.portRuns port = true → lane ≤ 7 → (z.lane (laneSite port lane)).frozenAt = none →
    exec (.dfeTapLimit dt port lane tap) s = .next (z.raise (34 + 8 * port + lane) 1 (dCode 112 8 tap))) ∧
  (∀ (dt dir : Nat) (s : State), let z := s.advance dt; let x := z.ports.ipl dir; let h := x.retryEvent.hit z.now (sec 1)
    z.serving = true → dir ≤ 1 → z.ports.ipl0.down = false → z.ports.ipl1.down = false →
    exec (.iplReplay dt dir) s = .next (match h.1 with
      | some n => (z.setIpl dir { x with retryEvent := h.2 }).raise (50 + dir) 4 (dBits 88 32 n) dir
      | none => z.setIpl dir { x with retryEvent := h.2 })) ∧
  (∀ (dt dir lane cause errors site : Nat) (s y : State) (x : Lane), let z := s.advance dt
    site = mkSite 3 dir 0 0 0 lane → x = z.lane site →
    y = z.setLane site { x with state := 4, quietTx := true, quietRx := true, symbolErrors := x.symbolErrors + BitVec.ofNat 64 errors } →
    z.serving = true → dir ≤ 1 → lane ≤ 17 → x.state = 1 → cause = 1 ∨ 1000 < errors → y.ports.ipl0.down = false → y.ports.ipl1.down = false →
    exec (.laneFailure dt dir lane cause errors) s = .next (match y.spareFor dir with
      | some sp => (y.modLane (mkSite 3 dir 0 0 0 sp) (fun w => { w with state := 1 })).raise (50 + dir) 1 (dCode 112 8 lane + dCode 104 8 sp + dCode 96 8 cause) dir
      | none => y.narrowIpl dir)) ∧
  (∀ (dt dir lane cause errors site : Nat) (s : State) (x : Lane), let z := s.advance dt
    site = mkSite 3 dir 0 0 0 lane → x = z.lane site → z.serving = true → dir ≤ 1 → lane ≤ 17 → x.state ≠ 4 → cause ≠ 1 → errors ≤ 1000 →
    exec (.laneFailure dt dir lane cause errors) s = .next (z.setLane site { x with symbolErrors := x.symbolErrors + BitVec.ofNat 64 errors }))

/-- Events: a record that may arrive (its stamp has come, its package reaches the merger, and no earlier record of its source is
still to arrive) and does so in time is held, one that comes after its release instant is discarded and announced; the first record in
the order of stamp, source and package is released at its stamp plus 2 ms into the queue of every subscriber whose mask admits it; and a
subscriber's packet is sent. -/
def Obligations.EventsAreOrdered : Prop :=
  (∀ (dt index : Nat) (s : State) (r : EventRec), let z := s.advance dt
    let e := { z.events with raised := z.events.raised.eraseIdx index }
    z.merging = true → z.events.raised[index]? = some r → z.mayArrive index r = true →
    (z.now ≤ r.stamp + ns 2000000 → let f := { e with held := e.held ++ [r] }; exec (.eventArrival dt index []) s = .next { z with events := f }) ∧
    (r.stamp + ns 2000000 < z.now → let f := { e with lateDiscarded := e.lateDiscarded + 1 }
      exec (.eventArrival dt index []) s = .next (State.lostForAll { z with events := f } 2 1))) ∧
  (∀ (dt : Nat) (s : State) (r : EventRec) (others : List EventRec), let z := s.advance dt
    z.merging = true → firstRecord z.events.held = some (r, others) →
    (∀ x ∈ others, x.before r = false) ∧ (r :: others).Perm z.events.held ∧
    (r.stamp + ns 2000000 ≤ z.now → ∃ t, exec (.eventRelease dt) s = .next t ∧ t.events.held = others ∧ t.events.released = z.events.released + 1 ∧
      (∀ n, t.events.subs.find n = (z.events.subs.find n).map (fun b => b.offer z.now (z.lostRecord n 1) r))) ∧
    (z.now < r.stamp + ns 2000000 → z.frontier < r.stamp → exec (.eventRelease dt) s = .next z)) ∧
  (∀ (b : Subscriber) (now : Instant) (lost : Nat → EventRec) (r : EventRec), b.admits r = false → b.offer now lost r = b) ∧
  (∀ (dt sub kind : Nat) (s : State) (b : Subscriber) (x : Session), let z := s.advance dt
    z.live = true → z.events.subs.find sub = some b → z.vcp.session b.session = some x → z.producerWaits x.peer.port = false →
    exec (.eventPacketSend dt sub kind) s = .next (if kind = 0 then z.sendEvents sub b x else z.sendSamples sub x))

/- Starts, tests, power. -/

/-- Starts and tests: mains begin a start; a stage completes with its failures or times out on the sites that are in it; starts begin again
after 5 s and 60 s; a die that loses its link is fenced, and comes back at the audio beat after its recovery; slices take their targets by
claims at their offsets of the round and give them back, and a slice that no window ran counts nothing; an on-command test ends by its verdicts; and the jumper reports. (Readings of log entries 45 to 47.) -/
def Obligations.StartRowsComplete : Prop :=
  (∀ (dt : Nat) (s : State), let z := s.advance dt; let y := z.beginStart false; let w := { y.time with ocxoStable := false, ocxoAlarm := false }
    z.start.run = .off → exec (.mainsApplied dt) s = .next (State.ocxoEvent { y with time := w })) ∧
  (∀ (dt n : Nat) (fails : List (Nat × Nat × Nat)) (s : State), let z := s.advance dt
    z.start.run = .starting n → z.start.balance ≤ z.start.stageSince + ms (stageLimit n) → n ≠ 1 ∨ z.coolEnough = true ∨ fails ≠ [] →
    exec (.startStageComplete dt fails) s = .next (z.stageFails n fails)) ∧
  (∀ (dt n : Nat) (sites : List Nat) (s : State), let z := s.advance dt
    z.start.run = .starting n → ms (stageLimit n) ≤ z.start.balance - z.start.stageSince → sites.filter (z.start.inStage n) ≠ [] →
    exec (.startStageTimeout dt sites) s = .next (z.stageFails n ((sites.filter (z.start.inStage n)).map
      (fun x => (x, 1, (z.start.balance - z.start.stageSince) / ms 1))))) ∧
  (∀ (dt : Nat) (s : State), let z := s.advance dt
    z.start.run = .failed → exec (.restartDelay dt) s = .next (if z.start.restartAt ≤ z.start.balance then z.beginStart false else z)) ∧
  (∀ (dt : Nat) (s : State), let z := s.advance dt
    z.start.run = .settingRetry → exec (.settingModeRetry dt) s = .next (if z.start.restartAt ≤ z.start.balance then z.beginStart true else z)) ∧
  (∀ (dt die : Nat) (s : State), let z := s.advance dt
    z.serving = true → die < 8 → z.dieUp die = true → exec (.dieToDieLinkFailure dt die) s = .next (z.fenceDie die 1)) ∧
  (∀ (dt die : Nat) (s : State), let z := s.advance dt
    z.serving = true → die < 8 → z.pkgUp (pkgOfDie die) = true → (z.die die).work = 1 →
    exec (.dieRecoveryComplete dt die none) s = .next (z.restoreDie die 1 (Grid.audio.firstAtOrAfter (z.now + 1)))) ∧
  (∀ (dt die kind target k u : Nat) (s : State), let z := s.advance dt; let round := secOf z.now / 2
    z.testsRun die = true → k < 4 → z.start.startedIn die round ≤ k → z.now = sec (2 * round) + ms (100 * diePlace die + 10 * k) →
    sliceTarget z kind target = true → testDie target = die → z.vcp.holder (.bistSlice target) = none →
    (kind = 6 → sliceUnit z target = some u) → (kind ≠ 6 → u = 0) →
    ∃ t, exec (.bistSliceStart dt die kind target) s = .next t ∧ t.vcp = (z.takeClaim target 0 0 (.bistSlice target)).vcp ∧
      t.start.slices = z.start.slices ++ [{ die := die, kind := kind, target := target, claim := z.vcp.nextClaim, started := z.now, unit := u }] ∧
      t.start.startedIn die round = k + 1) ∧
  (∀ (dt die target misr : Nat) (s : State) (x : Slice), let z := s.advance dt
    let old := z.start.tests.getD (testKey x.target x.kind) {}
    let t1 : BistTest := { old with sig := foldSig old.sig misr (old.count + 1), count := old.count + 1, failures := old.failures }
    z.start.slices.find? (fun y => y.die == die && y.target == target) = some x → (x.kind = 1 ∨ x.kind = 2 → x.ran = true) →
    old.count + 1 < slicePlan x.kind →
    ∃ t, exec (.bistSliceEnd dt die target misr []) s = .next t ∧ t.vcp = (z.dropClaim x.claim).vcp ∧
      t.start.slices = z.start.slices.filter (fun y => y.claim != x.claim) ∧ t.start.tests.find (testKey x.target x.kind) = some t1) ∧
  (∀ (dt die target misr : Nat) (faults : List (Nat × Nat × Nat)) (s : State) (x : Slice), let z := s.advance dt
    z.start.slices.find? (fun y => y.die == die && y.target == target) = some x → x.kind = 1 ∨ x.kind = 2 → x.ran = false →
    ∃ t, exec (.bistSliceEnd dt die target misr faults) s = .next t ∧ t.start.tests = z.start.tests ∧
      (secOf x.started / 2 < secOf z.now / 2 → t.vcp = (z.dropClaim x.claim).vcp) ∧ (¬secOf x.started / 2 < secOf z.now / 2 → t = z)) ∧
  (∀ (dt die done failures : Nat) (sigOk restartOk : Bool) (s : State), let z := s.advance dt
    let v := testVerdict failures done Config.testPlan (b2n sigOk) 1; let y := (z.endTest die v done failures).clearStack die
    z.serving = true → die < 8 → z.pkgUp (pkgOfDie die) = true → (z.die die).work = 2 →
    exec (.onCommandTestComplete dt die done failures sigOk restartOk) s = .next (if v = 1 ∧ restartOk = true then y.restoreDie die 2 y.now else y)) ∧
  (∀ (dt : Nat) (fitted : Bool) (s : State), let z := s.advance dt; let u := { z.start with jumper := fitted }
    exec (.jumper dt fitted) s = .next (State.raiseIf { z with start := u } (z.live && z.start.jumper != fitted) 196 1 (dCode 112 8 (b2n fitted))))

/-- Power and cooling: an interruption begins the hold-up, whose end stops every domain but the standby one; mains that return within it
have no effect, and later count as a failed start; the standby rail's drop removes all that OTP and the firmware stores do not keep;
the supply, the fans and the loop report; and a sensor that stays at its stop threshold stops the module.
(Readings of log entries 45 and 49.) -/
def Obligations.PowerRowsComplete : Prop :=
  (∀ (dt : Nat) (s : State), let z := s.advance dt; let p := { z.power with interrupted := some z.start.balance }
    z.start.run ≠ .off → z.power.interrupted = none → exec (.mainsInterruption dt) s = .next { z with power := p }) ∧
  (∀ (dt : Nat) (s : State) (t : Instant), let z := s.advance dt; let y := z.saveCounter.wiped .standby
    let p := { y.power with outputLost := some z.start.balance }
    z.power.interrupted = some t → z.power.outputLost = none → t + holdUp < z.start.balance → exec (.holdUpExpiry dt) s = .next { y with power := p }) ∧
  (∀ (dt : Nat) (s : State), let z := s.advance dt; let p := { z.power with interrupted := none, outputLost := none }
    z.power.interrupted ≠ none → z.start.run ≠ .standby → exec (.mainsRestored dt) s = .next { z with power := p }) ∧
  (∀ (dt : Nat) (s : State), let z := s.advance dt
    z.power.interrupted ≠ none → z.start.run = .standby →
    ∃ t r, exec (.mainsRestored dt) s = .next t ∧ t.start.run = .failed ∧ t.start.failures.head? = some r ∧ r.stage = 1 ∧ r.cause = 1 ∧ r.site = sysPsu ∧
      t.start.totalFailed = z.start.totalFailed + 1 ∧ t.start.restartAt = z.start.balance + sec 5) ∧
  (∀ (dt : Nat) (s : State) (t0 : Instant), let z := s.advance dt
    z.power.outputLost = some t0 → z.start.run = .standby → t0 + sec 2 ≤ z.start.balance →
    ∃ t, exec (.standbyRailDrop dt) s = .next t ∧ t.start.run = .off ∧ t.pending = z.pending ∧ t.staged = [] ∧ t.vcp.sessions = [] ∧ t.vcp.claims = [] ∧
      t.start.failures = [] ∧ t.start.otp0 = { z.start.otp0 with keyPath := true } ∧ t.start.otp1 = { z.start.otp1 with keyPath := true } ∧
      t.start.fw0 = z.start.fw0 ∧ t.start.fw1 = z.start.fw1 ∧ t.mem = {}) ∧
  (∀ (dt st dv : Nat) (s : State), let z := s.advance dt; let p := { z.power with lowRaised := st == 1 }
    z.merging = true → psuInputFits st dv = true → z.power.lowRaised ≠ (st == 1) →
    exec (.psuInput dt st dv) s = .next (State.raise { z with power := p } 1 1 (dCode 112 8 st + dBits 96 16 dv))) ∧
  (∀ (dt output cause : Nat) (s : State), let z := s.advance dt; let p := { z.power with psuFault := some (output, cause) }
    z.merging = true → 1 ≤ cause → cause ≤ 3 →
    exec (.psuFault dt output cause) s = .next (State.raise { z with power := p } 1 2 (dCode 112 8 output + dCode 104 8 cause))) ∧
  (∀ (dt : Nat) (readings : List (Nat × Int)) (tachs : List Nat) (s : State), let z := s.advance dt
    let y := ((List.range tachs.length).zip tachs).foldl (fun (t : State) f => t.fanCheck f.1 f.2)
      (readings.foldl (fun (t : State) r => t.thermalReading r.1 r.2) z)
    let p := { y.power with fanCommand := y.fanSpeed, loopAt := some y.start.balance }
    z.cooled = true → z.power.loopAt = none ∨ (∃ t, z.power.loopAt = some t ∧ t + sec 1 ≤ z.start.balance) →
    exec (.thermalLoop dt readings tachs) s = .next { y with power := p }) ∧
  (∀ (dt fan rpm : Nat) (s : State), let z := s.advance dt
    let y := z.raise 2 1 (dCode 112 8 fan + dBits 96 16 z.power.fanCommand + dBits 80 16 rpm)
    let p := { y.power with fansFailed := y.power.fansFailed ++ [fan], fanCommand := Config.fanFull }
    z.merging = true → fan < 6 → 2 * rpm < z.power.fanCommand → fan ∉ z.power.fansFailed → exec (.fanFailed dt fan rpm) s = .next { y with power := p }) ∧
  (∀ (dt site : Nat) (s : State) (t0 : Instant), let z := s.advance dt
    z.merging = true → z.power.stopSince.find site = some t0 → t0 + sec 1 ≤ z.now →
    ∃ t r, exec (.thermalStop dt site) s = .next t ∧ t.start.run = .failed ∧ t.start.failures.head? = some r ∧ r.stage = 1 ∧ r.cause = 3 ∧ r.site = site ∧
      t.power.fansFull = true ∧ t.power.portsQuiet = true ∧ t.power.fanCommand = Config.fanFull ∧ t.start.restartAt = z.start.balance + sec 5)

/- What the rows leave unchanged. -/

/-- Each row that is no command of a packet changes only its parts of the state (`rowParts`), and no row touches the queue. The five rows
that take the changes waiting for their object first change, beyond what those changes do, only the parts listed. -/
def Obligations.RowsChangeOnlyTheirParts : Prop :=
  (∀ (i : Instr) (dt : Nat) (l : List Part), rowParts i = some (dt, l) → ∀ s, NextWithin l (s.advance dt) (exec i s)) ∧
  (∀ i : Instr, (rowParts i).isSome = true ↔ packetCommand i = none) ∧
  (∀ (dt die inst : Nat) (haps : List Hap) (poison : List (Nat × Nat × Nat)) (s : State) (i : Inst) (id : Nat), let z := s.advance dt
    z.dieUp die = true → z.inService die inst = some i → i.desc.op = .compose id →
    NextWithin [.escs, .pools, .video, .mem, .events] (((z.haps haps).forOutput id i.beat).takeScoped (.composition id) i.beat)
      (exec (.composeTask dt die inst haps poison) s)) ∧
  (∀ (dt die inst : Nat) (haps : List Hap) (poison : List (Nat × Nat)) (s : State) (i : Inst) (id k : Nat), let z := s.advance dt
    z.dieUp die = true → z.inService die inst = some i → i.desc.op = .encode id k →
    NextWithin [.escs, .pools, .fwd, .cipher, .egress, .video, .mem, .events] (((z.haps haps).forEncode id i.beat).takeScoped (.encoding id) i.beat)
      (exec (.encodeTask dt die inst haps poison) s)) ∧
  (∀ (dt die inst : Nat) (haps : List Hap) (s : State) (i : Inst) (id : Nat), let z := s.advance dt
    z.dieUp die = true → z.inService die inst = some i → i.desc.op = .receive id → z.xAlone (legUnit id) = false →
    NextWithin [.escs, .pools, .video, .audio, .mem, .events] ((z.haps haps).takeScoped (.audioTask id) i.beat) (exec (.receiveTask dt die inst haps) s)) ∧
  (∀ (dt die inst : Nat) (haps : List Hap) (poison : List Nat) (s : State) (i : Inst) (id : Nat), let z := s.advance dt
    z.dieUp die = true → z.inService die inst = some i → i.desc.op = .send id → z.xAlone (legUnit id) = false →
    NextWithin [.escs, .pools, .fwd, .cipher, .egress, .video, .audio, .mem, .events] ((z.haps haps).takeScoped (.audioTask id) i.beat)
      (exec (.sendTask dt die inst haps poison) s)) ∧
  (∀ (dt die inst : Nat) (haps : List Hap) (poison : List (Nat × Nat)) (transit : List Nat) (s : State) (i : Inst), let z := s.advance dt
    z.dieUp die = true → z.inService die inst = some i → i.desc.op = .mix →
    NextWithin [.escs, .pools, .video, .audio, .mem, .events] ((z.haps haps).takeScoped (.mixing die) i.beat) (exec (.mix dt die inst haps poison transit) s))
end

