-- ==== Sys2Proof/Laws/Bytes.lean ====
section
/-! SUPPORT. Laws of byte order and of the fields of a block (R49, R50). -/

namespace Sys2Proof.Machine

@[simp] theorem length_beBytes (w x : Nat) : (beBytes w x).length = w := by
  induction w with
  | zero => rfl
  | succ n ih => simp [beBytes, ih]

@[simp] theorem length_zeros (n : Nat) : (zeros n).length = n := by simp [zeros]

/-- Reading bytes one after the other multiplies what has been read by 256 for each. -/
theorem foldl_beNat (b : List Byte) (a : Nat) :
    b.foldl (fun a x => a * 256 + x.toNat) a = a * 256 ^ b.length + beNat b := by
  induction b generalizing a with
  | nil => simp [beNat]
  | cons x b ih =>
    simp only [List.foldl_cons, List.length_cons, beNat]
    rw [ih, ih (0 * 256 + x.toNat), Nat.zero_mul, Nat.zero_add, Nat.pow_succ, Nat.add_mul, Nat.mul_assoc, Nat.mul_comm 256]
    omega

@[simp] theorem beNat_nil : beNat [] = 0 := rfl

theorem beNat_cons (x : Byte) (b : List Byte) : beNat (x :: b) = x.toNat * 256 ^ b.length + beNat b := by
  have h := foldl_beNat b x.toNat
  simpa [beNat] using h

/-- A number written in w bytes is read back, modulo their range. -/
theorem beNat_beBytes (w x : Nat) : beNat (beBytes w x) = x % 256 ^ w := by
  induction w with
  | zero => simp [beBytes, Nat.mod_one]
  | succ n ih =>
    rw [beBytes, beNat_cons, ih, length_beBytes, BitVec.toNat_ofNat]
    have h1 : x % (256 ^ n * 256) = x % 256 ^ n + 256 ^ n * (x / 256 ^ n % 256) := Nat.mod_mul ..
    have h2 : 256 ^ (n + 1) = 256 ^ n * 256 := Nat.pow_succ ..
    rw [h2, h1, Nat.mul_comm (256 ^ n), Nat.add_comm]

@[simp] theorem beNat_zeros (n : Nat) : beNat (zeros n) = 0 := by
  induction n with
  | zero => rfl
  | succ n ih =>
    have h : zeros (n + 1) = 0 :: zeros n := rfl
    rw [h, beNat_cons, ih]
    simp

/-- One field whose bytes are present: its value, and what the others yield. -/
theorem readFields_cons (f : Fld) (fs : List Fld) (off : Nat) (h b : List Byte) (hw : 0 < f.w) (hl : h.length = f.w) :
    readFields (f :: fs) off (h ++ b) =
      (readFields fs (off + f.w) b).map (fun r =>
        ((if f.skip then r.1 else beNat h :: r.1), (if beNat h &&& f.rsv ≠ 0 then off :: r.2.1 else r.2.1), r.2.2)) := by
  have hne : (h ++ b).isEmpty = false := by
    cases h with
    | nil => simp at hl; omega
    | cons => rfl
  have hlen : ¬(h ++ b).length < f.w := by simp [hl]
  rw [readFields]
  simp only [hne, Bool.false_eq_true, ↓reduceIte, if_neg hlen, List.take_left' hl, List.drop_left' hl]
  cases readFields fs (off + f.w) b with
  | none => rfl
  | some r => rfl

end Sys2Proof.Machine
end

