-- ==== Sys2Proof/Laws/Frame.lean ====
section
/-! SUPPORT. Frames: `Within` and its laws, from which every operation's frame follows. -/

namespace Sys2Proof.Machine

theorem Part.same_refl (p : Part) (s : State) : p.same s s := by cases p <;> simp [Part.same]

theorem Part.same_symm {p : Part} {s t : State} (h : p.same s t) : p.same t s := by
  cases p <;> simp only [Part.same] at * <;> first | exact h.symm | exact ⟨h.1.symm, h.2.symm⟩

theorem Part.same_trans {p : Part} {s t u : State} (h : p.same s t) (k : p.same t u) : p.same s u := by
  cases p <;> simp only [Part.same] at * <;> first | exact k.trans h | exact ⟨k.1.trans h.1, k.2.trans h.2⟩

@[simp] theorem Within.refl {l s} : Within l s s := fun p _ => p.same_refl s
/-- What an operation changes within the list does not matter to what has changed outside it. -/
theorem Within.iff {l s t u} (h : Within l t u) : Within l s u ↔ Within l s t :=
  ⟨fun k p hp => Part.same_trans (k p hp) (Part.same_symm (h p hp)), fun k p hp => Part.same_trans (k p hp) (h p hp)⟩


@[simp] theorem VcpState.setAddr_claims (v : VcpState) (i : Nat) (x : PortAddr) : (v.setAddr i x).claims = v.claims := by
  unfold VcpState.setAddr; split <;> rfl

@[simp] theorem VcpState.setAddr_nextClaim (v : VcpState) (i : Nat) (x : PortAddr) : (v.setAddr i x).nextClaim = v.nextClaim := by
  unfold VcpState.setAddr; split <;> rfl

/-- A record update changes the parts whose fields it gives anew. -/
@[simp] theorem within_mk {l : List Part} {s t : State} {n st v r es po f c eg vi au ti me pt ev stt pw}
    (h1 : n = t.now ∨ .now ∈ l) (h2 : st = t.staged ∨ .staged ∈ l)
    (h3 : v.claims = t.vcp.claims ∧ v.nextClaim = t.vcp.nextClaim ∨ .claims ∈ l)
    (h0 : { v with claims := [], nextClaim := 0 } = { t.vcp with claims := [], nextClaim := 0 } ∨ .vcp ∈ l)
    (h4 : r = t.role ∨ .role ∈ l) (h5 : es = t.escs ∨ .escs ∈ l) (h6 : po = t.pools ∨ .pools ∈ l)
    (h7 : f = t.fwd ∨ .fwd ∈ l) (h8 : c = t.cipher ∨ .cipher ∈ l) (h9 : eg = t.egress ∨ .egress ∈ l) (h10 : vi = t.video ∨ .video ∈ l)
    (h11 : au = t.audio ∨ .audio ∈ l) (h12 : ti = t.time ∨ .time ∈ l) (h13 : me = t.mem ∨ .mem ∈ l) (h14 : pt = t.ports ∨ .ports ∈ l)
    (h15 : ev = t.events ∨ .events ∈ l) (h16 : stt = t.start ∨ .start ∈ l) (h17 : pw = t.power ∨ .power ∈ l) :
    Within l s { pending := t.pending, now := n, staged := st, vcp := v, role := r, escs := es, pools := po, fwd := f, cipher := c, egress := eg, video := vi, audio := au, time := ti, mem := me, ports := pt, events := ev, start := stt, power := pw } ↔ Within l s t := by
  apply Within.iff
  intro p hp
  cases p <;> simp only [Part.same] <;> first | rfl | (simp_all; done) | (rcases h3 with h3 | h3 <;> simp_all; done) | exact h0.resolve_right hp

@[simp] theorem Within.foldl {α} {l : List Part} {s t : State} {g : State → α → State} {xs : List α}
    (h : ∀ u x, Within l s (g u x) ↔ Within l s u) : Within l s (xs.foldl g t) ↔ Within l s t := by
  induction xs generalizing t with
  | nil => rfl
  | cons x xs ih => rw [List.foldl_cons, ih, h]


@[simp] theorem Within.foldl_fst {α β} {l : List Part} {s : State} {a : State × β} {g : State × β → α → State × β} {xs : List α}
    (h : ∀ u x, Within l s (g u x).1 ↔ Within l s u.1) : Within l s (xs.foldl g a).1 ↔ Within l s a.1 := by
  induction xs generalizing a with
  | nil => rfl
  | cons x xs ih => rw [List.foldl_cons, ih, h]

@[simp] theorem Within.ite {l : List Part} {s t u : State} {c : Prop} [Decidable c] :
    Within l s (if c then t else u) ↔ if c then Within l s t else Within l s u := by split <;> rfl

@[simp] theorem nextWithin_next {l : List Part} {s t : State} : NextWithin l s (.next t) ↔ Within l s t := by simp [NextWithin]

end Sys2Proof.Machine
end

