-- ==== Sys2Proof/Laws/FrameOps.lean ====
section
/-! SUPPORT. What each shared operation can change: one lemma each. The hypotheses name the parts that it may write. -/

namespace Sys2Proof.Machine

/- Machine/Ops.lean. -/

@[simp] theorem State.raiseAt_within {l : List Part} {s t : State} {a1 a2 a3 a4 a5} (hEvents : Part.events ∈ l) :
    Within l s (State.raiseAt t a1 a2 a3 a4 a5) ↔ Within l s t := by
  simp only [State.raiseAt]
  repeat' split
  all_goals simp [*]

@[simp] theorem State.dropClaim_within {l : List Part} {s t : State} {a1} (hClaims : Part.claims ∈ l) :
    Within l s (State.dropClaim t a1) ↔ Within l s t := by
  simp only [State.dropClaim]
  repeat' split
  all_goals simp [*]

@[simp] theorem State.raise_within {l : List Part} {s t : State} {a1 a2 a3 a4} (hEvents : Part.events ∈ l) :
    Within l s (State.raise t a1 a2 a3 a4) ↔ Within l s t := by
  simp only [State.raise]
  repeat' split
  all_goals simp [*]

@[simp] theorem State.draw_within {l : List Part} {s t : State} (hVcp : Part.vcp ∈ l) :
    Within l s (State.draw t).2 ↔ Within l s t := by
  simp only [State.draw]
  repeat' split
  all_goals simp [*]

@[simp] theorem State.advance_within {l : List Part} {s t : State} {a1} (hNow : Part.now ∈ l) (hStart : Part.start ∈ l) :
    Within l s (State.advance t a1) ↔ Within l s t := by
  simp only [State.advance]
  repeat' split
  all_goals simp [*]

@[simp] theorem State.raiseIf_within {l : List Part} {s t : State} {a1 a2 a3 a4 a5} (hEvents : Part.events ∈ l) :
    Within l s (State.raiseIf t a1 a2 a3 a4 a5) ↔ Within l s t := by
  simp only [State.raiseIf]
  repeat' split
  all_goals simp [*]

@[simp] theorem State.takeClaim_within {l : List Part} {s t : State} {a1 a2 a3 a4} (hClaims : Part.claims ∈ l) :
    Within l s (State.takeClaim t a1 a2 a3 a4) ↔ Within l s t := by
  simp only [State.takeClaim]
  repeat' split
  all_goals simp [*]

/- Machine/EgressOps.lean. -/

@[simp] theorem State.modIface_within {l : List Part} {s t : State} {a1 a2 a3} (hPorts : Part.ports ∈ l) :
    Within l s (State.modIface t a1 a2 a3) ↔ Within l s t := by
  simp only [State.modIface]
  repeat' split
  all_goals simp [*]

@[simp] theorem State.setEgIface_within {l : List Part} {s t : State} {a1 a2} (hEgress : Part.egress ∈ l) :
    Within l s (State.setEgIface t a1 a2) ↔ Within l s t := by
  simp only [State.setEgIface]
  repeat' split
  all_goals simp [*]

@[simp] theorem State.sendInternal_within {l : List Part} {s t : State} {a1 a2 a3} (hEgress : Part.egress ∈ l) (hPorts : Part.ports ∈ l) :
    Within l s (State.sendInternal t a1 a2 a3) ↔ Within l s t := by
  simp only [State.sendInternal]
  repeat' split
  all_goals simp [*]

@[simp] theorem State.setLeg_within {l : List Part} {s t : State} {a1 a2} (hEgress : Part.egress ∈ l) :
    Within l s (State.setLeg t a1 a2) ↔ Within l s t := by
  simp only [State.setLeg]
  repeat' split
  all_goals simp [*]

@[simp] theorem applyEgress_within {l : List Part} {s t : State} {a1} (hEgress : Part.egress ∈ l) :
    Within l s (applyEgress a1 t) ↔ Within l s t := by
  simp only [applyEgress]
  repeat' split
  all_goals simp [*]

@[simp] theorem State.noteMisses_within {l : List Part} {s t : State} {a1 a2} (hEgress : Part.egress ∈ l) (hEvents : Part.events ∈ l) :
    Within l s (State.noteMisses t a1 a2) ↔ Within l s t := by
  refine Within.foldl fun u p => ?_
  dsimp only
  repeat' split
  all_goals simp [*]

@[simp] theorem State.queueDrop_within {l : List Part} {s t : State} {a1 a2} (hEgress : Part.egress ∈ l) (hEvents : Part.events ∈ l) :
    Within l s (State.queueDrop t a1 a2) ↔ Within l s t := by
  simp only [State.queueDrop]
  repeat' split
  all_goals simp [*]

@[simp] theorem State.windowRefusal_within {l : List Part} {s t : State} {a1 a2} (hEgress : Part.egress ∈ l) (hEvents : Part.events ∈ l) :
    Within l s (State.windowRefusal t a1 a2) ↔ Within l s t := by
  simp only [State.windowRefusal]
  repeat' split
  all_goals simp [*]

@[simp] theorem State.enqueue_within {l : List Part} {s t : State} {a1 a2} (hEgress : Part.egress ∈ l) (hEvents : Part.events ∈ l) :
    Within l s (State.enqueue t a1 a2).1 ↔ Within l s t := by
  simp only [State.enqueue]
  repeat' split
  all_goals simp [*]

/- Machine/VcpOps.lean. -/

@[simp] theorem State.sendVcp_within {l : List Part} {s t : State} {a1 a2 a3} (hEgress : Part.egress ∈ l) (hPorts : Part.ports ∈ l) :
    Within l s (State.sendVcp t a1 a2 a3) ↔ Within l s t := by
  simp only [State.sendVcp]
  repeat' split
  all_goals simp [*]

@[simp] theorem State.modSession_within {l : List Part} {s t : State} {a1 a2} (hVcp : Part.vcp ∈ l) :
    Within l s (State.modSession t a1 a2) ↔ Within l s t := by
  simp only [State.modSession]
  repeat' split
  all_goals simp [*]

@[simp] theorem State.sendReply_within {l : List Part} {s t : State} {a1 a2 a3} (hEgress : Part.egress ∈ l) (hPorts : Part.ports ∈ l) :
    Within l s (State.sendReply t a1 a2 a3) ↔ Within l s t := by
  simp only [State.sendReply]
  repeat' split
  all_goals simp [*]

@[simp] theorem State.sendDhcp_within {l : List Part} {s t : State} {a1 a2 a3} (hEgress : Part.egress ∈ l) (hPorts : Part.ports ∈ l) :
    Within l s (State.sendDhcp t a1 a2 a3) ↔ Within l s t := by
  simp only [State.sendDhcp]
  repeat' split
  all_goals simp [*]

@[simp] theorem State.vcpDrop_within {l : List Part} {s t : State} {a1 a2 a3} (hVcp : Part.vcp ∈ l) (hEvents : Part.events ∈ l) :
    Within l s (State.vcpDrop t a1 a2 a3) ↔ Within l s t := by
  simp only [State.vcpDrop]
  repeat' split
  all_goals simp [*]

@[simp] theorem State.lapse_within {l : List Part} {s t : State} {a1} (hEvents : Part.events ∈ l) :
    Within l s (State.lapse t a1) ↔ Within l s t := by
  simp only [State.lapse]
  repeat' split
  all_goals simp [*]

@[simp] theorem State.endSession_within {l : List Part} {s t : State} {a1 a2} (hStaged : Part.staged ∈ l) (hVcp : Part.vcp ∈ l) (hEvents : Part.events ∈ l) :
    Within l s (State.endSession t a1 a2) ↔ Within l s t := by
  simp only [State.endSession]
  repeat' split
  all_goals simp [*]

@[simp] theorem State.startDhcp_within {l : List Part} {s t : State} {a1 a2} (hVcp : Part.vcp ∈ l) (hEgress : Part.egress ∈ l) (hPorts : Part.ports ∈ l) :
    Within l s (State.startDhcp t a1 a2) ↔ Within l s t := by
  unfold State.startDhcp
  generalize hd : t.draw = d
  have hw : Within l s d.2 ↔ Within l s t := by rw [← hd]; exact State.draw_within hVcp
  obtain ⟨d, u⟩ := d
  dsimp only at hw ⊢
  rw [State.sendDhcp_within hEgress hPorts]
  generalize hv : u.vcp.setAddr a1 _ = v
  have h1 : v.claims = u.vcp.claims := by rw [← hv]; exact VcpState.setAddr_claims ..
  have h2 : v.nextClaim = u.vcp.nextClaim := by rw [← hv]; exact VcpState.setAddr_nextClaim ..
  clear hv
  rw [← hw]
  simp [*]

@[simp] theorem applyVcp_within {l : List Part} {s t : State} {a1} (hStaged : Part.staged ∈ l) (hClaims : Part.claims ∈ l) (hVcp : Part.vcp ∈ l) (hEgress : Part.egress ∈ l) (hPorts : Part.ports ∈ l) (hEvents : Part.events ∈ l) :
    Within l s (applyVcp a1 t) ↔ Within l s t := by
  simp only [applyVcp]
  repeat' split
  all_goals simp [*]

@[simp] theorem State.sendReject_within {l : List Part} {s t : State} {a1 a2 a3} (hVcp : Part.vcp ∈ l) (hEgress : Part.egress ∈ l) (hPorts : Part.ports ∈ l) :
    Within l s (State.sendReject t a1 a2 a3) ↔ Within l s t := by
  simp only [State.sendReject]
  repeat' split
  all_goals simp [*]

/- Machine/CipherOps.lean. -/

@[simp] theorem State.setUnit_within {l : List Part} {s t : State} {a1 a2} (hCipher : Part.cipher ∈ l) :
    Within l s (State.setUnit t a1 a2) ↔ Within l s t := by
  simp only [State.setUnit]
  repeat' split
  all_goals simp [*]

@[simp] theorem State.submit_within {l : List Part} {s t : State} {a1 a2} (hCipher : Part.cipher ∈ l) :
    Within l s (State.submit t a1 a2) ↔ Within l s t := by
  simp only [State.submit]
  repeat' split
  all_goals simp [*]

@[simp] theorem State.imageWork_within {l : List Part} {s t : State} {a1 a2} (hCipher : Part.cipher ∈ l) :
    Within l s (State.imageWork t a1 a2) ↔ Within l s t := by
  simp only [State.imageWork]
  repeat' split
  all_goals simp [*]

@[simp] theorem State.setExport_within {l : List Part} {s t : State} {a1 a2} (hCipher : Part.cipher ∈ l) :
    Within l s (State.setExport t a1 a2) ↔ Within l s t := by
  simp only [State.setExport]
  repeat' split
  all_goals simp [*]

@[simp] theorem State.setImport_within {l : List Part} {s t : State} {a1 a2} (hCipher : Part.cipher ∈ l) :
    Within l s (State.setImport t a1 a2) ↔ Within l s t := by
  simp only [State.setImport]
  repeat' split
  all_goals simp [*]

@[simp] theorem State.setKey_within {l : List Part} {s t : State} {a1 a2} (hCipher : Part.cipher ∈ l) :
    Within l s (State.setKey t a1 a2) ↔ Within l s t := by
  simp only [State.setKey]
  repeat' split
  all_goals simp [*]

@[simp] theorem State.standardWork_within {l : List Part} {s t : State} {a1 a2 a3} (hCipher : Part.cipher ∈ l) :
    Within l s (State.standardWork t a1 a2 a3) ↔ Within l s t := by
  simp only [State.standardWork]
  repeat' split
  all_goals simp [*]

@[simp] theorem State.cutWork_within {l : List Part} {s t : State} {a1 a2 a3 a4} (hCipher : Part.cipher ∈ l) :
    Within l s (State.cutWork t a1 a2 a3 a4) ↔ Within l s t := by
  simp only [State.cutWork]
  repeat' split
  all_goals simp [*]

@[simp] theorem State.grant_within {l : List Part} {s t : State} {a1 a2} (hCipher : Part.cipher ∈ l) (hEvents : Part.events ∈ l) :
    Within l s (State.grant t a1 a2).1 ↔ Within l s t := by
  simp only [State.grant]
  repeat' split
  all_goals simp [*]

/- Machine/MemOps.lean. -/

@[simp] theorem State.auditBook_within {l : List Part} {s t : State} {a1 a2 a3} (hMem : Part.mem ∈ l) (hEvents : Part.events ∈ l) :
    Within l s (State.auditBook t a1 a2 a3) ↔ Within l s t := by
  simp only [State.auditBook]
  repeat' split
  all_goals simp [*]

@[simp] theorem State.auditSite_within {l : List Part} {s t : State} {a1 a2 a3} (hMem : Part.mem ∈ l) (hEvents : Part.events ∈ l) :
    Within l s (State.auditSite t a1 a2 a3) ↔ Within l s t := by
  simp only [State.auditSite]
  repeat' split
  all_goals simp [*]

@[simp] theorem State.setStack_within {l : List Part} {s t : State} {a1 a2} (hMem : Part.mem ∈ l) :
    Within l s (State.setStack t a1 a2) ↔ Within l s t := by
  simp only [State.setStack]
  repeat' split
  all_goals simp [*]

@[simp] theorem State.notePanic_within {l : List Part} {s t : State} {a1 a2} (hMem : Part.mem ∈ l) :
    Within l s (State.notePanic t a1 a2) ↔ Within l s t := by
  simp only [State.notePanic]
  repeat' split
  all_goals simp [*]

@[simp] theorem State.hbmCorrected_within {l : List Part} {s t : State} {a1} (hMem : Part.mem ∈ l) (hEvents : Part.events ∈ l) :
    Within l s (State.hbmCorrected t a1) ↔ Within l s t := by
  simp only [State.hbmCorrected]
  repeat' split
  all_goals simp [*]

@[simp] theorem State.hbmUncorrected_within {l : List Part} {s t : State} {a1 a2} (hMem : Part.mem ∈ l) (hEvents : Part.events ∈ l) :
    Within l s (State.hbmUncorrected t a1 a2) ↔ Within l s t := by
  simp only [State.hbmUncorrected]
  repeat' split
  all_goals simp [*]

@[simp] theorem State.meetErrors_within {l : List Part} {s t : State} {a1 a2} (hMem : Part.mem ∈ l) (hEvents : Part.events ∈ l) :
    Within l s (State.meetErrors t a1 a2) ↔ Within l s t := by
  simp only [State.meetErrors]
  repeat' split
  all_goals simp [*]

@[simp] theorem applyMem_within {l : List Part} {s t : State} {a1} (hMem : Part.mem ∈ l) (hEvents : Part.events ∈ l) :
    Within l s (applyMem a1 t) ↔ Within l s t := by
  simp only [applyMem]
  repeat' split
  all_goals simp [*]

@[simp] theorem State.setFifo_within {l : List Part} {s t : State} {a1 a2 a3} (hMem : Part.mem ∈ l) :
    Within l s (State.setFifo t a1 a2 a3) ↔ Within l s t := by
  simp only [State.setFifo]
  repeat' split
  all_goals simp [*]

@[simp] theorem State.fifoUnder_within {l : List Part} {s t : State} {a1 a2} (hMem : Part.mem ∈ l) (hEvents : Part.events ∈ l) :
    Within l s (State.fifoUnder t a1 a2) ↔ Within l s t := by
  simp only [State.fifoUnder]
  repeat' split
  all_goals simp [*]

@[simp] theorem State.hap_within {l : List Part} {s t : State} {a1} (hMem : Part.mem ∈ l) (hEvents : Part.events ∈ l) :
    Within l s (State.hap t a1) ↔ Within l s t := by
  simp only [State.hap]
  repeat' split
  all_goals simp [*]

@[simp] theorem State.haps_within {l : List Part} {s t : State} {a1} (hMem : Part.mem ∈ l) (hEvents : Part.events ∈ l) :
    Within l s (State.haps t a1) ↔ Within l s t := by
  simp only [State.haps]
  repeat' split
  all_goals simp [*]

/- Machine/PoolOps.lean. -/

@[simp] theorem State.setPool_within {l : List Part} {s t : State} {a1 a2} (hPools : Part.pools ∈ l) :
    Within l s (State.setPool t a1 a2) ↔ Within l s t := by
  simp only [State.setPool]
  repeat' split
  all_goals simp [*]

@[simp] theorem State.modPool_within {l : List Part} {s t : State} {a1 a2} (hPools : Part.pools ∈ l) :
    Within l s (State.modPool t a1 a2) ↔ Within l s t := by
  simp only [State.modPool]
  repeat' split
  all_goals simp [*]

@[simp] theorem State.book_within {l : List Part} {s t : State} {a1 a2} (hPools : Part.pools ∈ l) :
    Within l s (State.book t a1 a2) ↔ Within l s t := by
  simp only [State.book]
  repeat' split
  all_goals simp [*]

@[simp] theorem State.setEsc_within {l : List Part} {s t : State} {a1 a2} (hEscs : Part.escs ∈ l) :
    Within l s (State.setEsc t a1 a2) ↔ Within l s t := by
  simp only [State.setEsc]
  repeat' split
  all_goals simp [*]

@[simp] theorem State.modEsc_within {l : List Part} {s t : State} {a1 a2} (hEscs : Part.escs ∈ l) :
    Within l s (State.modEsc t a1 a2) ↔ Within l s t := by
  simp only [State.modEsc]
  repeat' split
  all_goals simp [*]

@[simp] theorem State.carry_within {l : List Part} {s t : State} {a1 a2 a3} (hEscs : Part.escs ∈ l) :
    Within l s (State.carry t a1 a2 a3) ↔ Within l s t := by
  simp only [State.carry]
  repeat' split
  all_goals simp [*]

@[simp] theorem State.escEvent_within {l : List Part} {s t : State} {a1 a2 a3 a4 a5} (hEvents : Part.events ∈ l) :
    Within l s (State.escEvent t a1 a2 a3 a4 a5) ↔ Within l s t := by
  simp only [State.escEvent]
  repeat' split
  all_goals simp [*]

@[simp] theorem State.traceInst_within {l : List Part} {s t : State} {a1 a2} (hEscs : Part.escs ∈ l) :
    Within l s (State.traceInst t a1 a2) ↔ Within l s t := by
  simp only [State.traceInst]
  repeat' split
  all_goals simp [*]

@[simp] theorem State.expire_within {l : List Part} {s t : State} {a1 a2 a3} (hEscs : Part.escs ∈ l) (hPools : Part.pools ∈ l) (hVideo : Part.video ∈ l) (hEvents : Part.events ∈ l) :
    Within l s (State.expire t a1 a2 a3).1 ↔ Within l s t := by
  simp only [State.expire]
  repeat' split
  all_goals simp [*]

@[simp] theorem State.finishJoin_within {l : List Part} {s t : State} {a1 a2 a3} (hEscs : Part.escs ∈ l) (hPools : Part.pools ∈ l) (hEvents : Part.events ∈ l) :
    Within l s (State.finishJoin t a1 a2 a3).1 ↔ Within l s t := by
  simp only [State.finishJoin]
  repeat' split
  all_goals simp [*]

@[simp] theorem State.expireNow_within {l : List Part} {s t : State} {a1 a2 a3} (hEscs : Part.escs ∈ l) (hPools : Part.pools ∈ l) (hVideo : Part.video ∈ l) (hEvents : Part.events ∈ l) :
    Within l s (State.expireNow t a1 a2 a3).1 ↔ Within l s t := by
  simp only [State.expireNow]
  repeat' split
  all_goals simp [*]

@[simp] theorem State.landDecr_within {l : List Part} {s t : State} {a1 a2} (hEscs : Part.escs ∈ l) (hPools : Part.pools ∈ l) (hVideo : Part.video ∈ l) (hEvents : Part.events ∈ l) :
    Within l s (State.landDecr t a1 a2).1 ↔ Within l s t := by
  simp only [State.landDecr]
  repeat' split
  all_goals simp [*]

@[simp] theorem State.decrement_within {l : List Part} {s t : State} {a1 a2 a3} (hEscs : Part.escs ∈ l) (hPools : Part.pools ∈ l) (hVideo : Part.video ∈ l) (hEvents : Part.events ∈ l) :
    Within l s (State.decrement a1 a2 a3 t) ↔ Within l s t := by
  induction a2 generalizing t a3 with
  | zero => cases a3 <;> rfl
  | succ n ih =>
    cases a3 with
    | nil => rfl
    | cons x rest =>
      simp only [State.decrement]
      repeat' split
      all_goals simp [*]

@[simp] theorem State.notice_within {l : List Part} {s t : State} {a1 a2 a3} (hEscs : Part.escs ∈ l) (hPools : Part.pools ∈ l) (hVideo : Part.video ∈ l) (hEvents : Part.events ∈ l) :
    Within l s (State.notice t a1 a2 a3) ↔ Within l s t := by
  simp only [State.notice]
  repeat' split
  all_goals simp [*]

@[simp] theorem State.uncarry_within {l : List Part} {s t : State} {a1 a2 a3} (hEscs : Part.escs ∈ l) (hPools : Part.pools ∈ l) :
    Within l s (State.uncarry t a1 a2 a3) ↔ Within l s t := by
  simp only [State.uncarry]
  repeat' split
  all_goals simp [*]

@[simp] theorem State.complete_within {l : List Part} {s t : State} {a1 a2 a3} (hEscs : Part.escs ∈ l) (hPools : Part.pools ∈ l) (hVideo : Part.video ∈ l) (hMem : Part.mem ∈ l) (hEvents : Part.events ∈ l) :
    Within l s (State.complete t a1 a2 a3) ↔ Within l s t := by
  simp only [State.complete]
  repeat' split
  all_goals simp [*]

/- Machine/VideoOps.lean. -/

@[simp] theorem State.decodeEvent_within {l : List Part} {s t : State} {a1 a2 a3 a4 a5} (hEvents : Part.events ∈ l) :
    Within l s (State.decodeEvent t a1 a2 a3 a4 a5) ↔ Within l s t := by
  simp only [State.decodeEvent]
  repeat' split
  all_goals simp [*]

@[simp] theorem State.setDecode_within {l : List Part} {s t : State} {a1 a2} (hVideo : Part.video ∈ l) :
    Within l s (State.setDecode t a1 a2) ↔ Within l s t := by
  simp only [State.setDecode]
  repeat' split
  all_goals simp [*]

@[simp] theorem State.setEncode_within {l : List Part} {s t : State} {a1 a2} (hVideo : Part.video ∈ l) :
    Within l s (State.setEncode t a1 a2) ↔ Within l s t := by
  simp only [State.setEncode]
  repeat' split
  all_goals simp [*]

@[simp] theorem State.modGone_within {l : List Part} {s t : State} {a1 a2 a3} (hVideo : Part.video ∈ l) :
    Within l s (State.modGone t a1 a2 a3) ↔ Within l s t := by
  simp only [State.modGone]
  repeat' split
  all_goals simp [*]

@[simp] theorem State.onDecode_within {β : Type} {l : List Part} {s t : State} {a1 a2} {f : State → State × β} (hVideo : Part.video ∈ l)
    (hf : ∀ u, Within l s (f u).1 ↔ Within l s u) : Within l s (State.onDecode t a1 a2 f).1 ↔ Within l s t := by
  simp only [State.onDecode]
  repeat' split
  all_goals simp [*]

@[simp] theorem State.onEncode_within {β : Type} {l : List Part} {s t : State} {a1 a2} {f : State → State × β} (hVideo : Part.video ∈ l)
    (hf : ∀ u, Within l s (f u).1 ↔ Within l s u) : Within l s (State.onEncode t a1 a2 f).1 ↔ Within l s t := by
  simp only [State.onEncode]
  repeat' split
  all_goals simp [*]

@[simp] theorem State.bury_within {l : List Part} {s t : State} {a1 a2} (hVideo : Part.video ∈ l) :
    Within l s (State.bury t a1 a2) ↔ Within l s t := by
  simp only [State.bury]
  repeat' split
  all_goals simp [*]

@[simp] theorem State.setOutput_within {l : List Part} {s t : State} {a1 a2} (hVideo : Part.video ∈ l) :
    Within l s (State.setOutput t a1 a2) ↔ Within l s t := by
  simp only [State.setOutput]
  repeat' split
  all_goals simp [*]

@[simp] theorem State.setGraphic_within {l : List Part} {s t : State} {a1 a2} (hVideo : Part.video ∈ l) :
    Within l s (State.setGraphic t a1 a2) ↔ Within l s t := by
  simp only [State.setGraphic]
  repeat' split
  all_goals simp [*]

@[simp] theorem State.decodeResync_within {l : List Part} {s t : State} {a1} (hEscs : Part.escs ∈ l) (hPools : Part.pools ∈ l) (hVideo : Part.video ∈ l) :
    Within l s (State.decodeResync t a1) ↔ Within l s t := by
  simp only [State.decodeResync]
  repeat' split
  all_goals simp [*]

@[simp] theorem State.modEncode_within {l : List Part} {s t : State} {a1 a2} (hVideo : Part.video ∈ l) :
    Within l s (State.modEncode t a1 a2) ↔ Within l s t := by
  simp only [State.modEncode]
  repeat' split
  all_goals simp [*]

@[simp] theorem State.modGraphic_within {l : List Part} {s t : State} {a1 a2} (hVideo : Part.video ∈ l) :
    Within l s (State.modGraphic t a1 a2) ↔ Within l s t := by
  simp only [State.modGraphic]
  repeat' split
  all_goals simp [*]

@[simp] theorem State.modOutput_within {l : List Part} {s t : State} {a1 a2} (hVideo : Part.video ∈ l) :
    Within l s (State.modOutput t a1 a2) ↔ Within l s t := by
  simp only [State.modOutput]
  repeat' split
  all_goals simp [*]

@[simp] theorem applyVideo_within {l : List Part} {s t : State} {a1} (hEscs : Part.escs ∈ l) (hPools : Part.pools ∈ l) (hVideo : Part.video ∈ l) :
    Within l s (applyVideo a1 t) ↔ Within l s t := by
  simp only [applyVideo]
  repeat' split
  all_goals simp [*]

@[simp] theorem State.onOutput_within {β : Type} {l : List Part} {s t : State} {a1 a2} {f : State → State × β} (hVideo : Part.video ∈ l)
    (hf : ∀ u, Within l s (f u).1 ↔ Within l s u) : Within l s (State.onOutput t a1 a2 f).1 ↔ Within l s t := by
  simp only [State.onOutput]
  repeat' split
  all_goals simp [*]

/- Machine/AudioOps.lean. -/

@[simp] theorem State.audioEvent_within {l : List Part} {s t : State} {a1 a2 a3 a4} (hEvents : Part.events ∈ l) :
    Within l s (State.audioEvent t a1 a2 a3 a4) ↔ Within l s t := by
  simp only [State.audioEvent]
  repeat' split
  all_goals simp [*]

@[simp] theorem State.beaconEvent_within {l : List Part} {s t : State} {a1 a2 a3 a4} (hEvents : Part.events ∈ l) :
    Within l s (State.beaconEvent t a1 a2 a3 a4) ↔ Within l s t := by
  simp only [State.beaconEvent]
  repeat' split
  all_goals simp [*]

@[simp] theorem State.setLegA_within {l : List Part} {s t : State} {a1 a2} (hAudio : Part.audio ∈ l) :
    Within l s (State.setLegA t a1 a2) ↔ Within l s t := by
  simp only [State.setLegA]
  repeat' split
  all_goals simp [*]

@[simp] theorem State.beaconUnlock_within {l : List Part} {s t : State} {a1 a2 a3} (hAudio : Part.audio ∈ l) (hEvents : Part.events ∈ l) :
    Within l s (State.beaconUnlock t a1 a2 a3) ↔ Within l s t := by
  simp only [State.beaconUnlock]
  repeat' split
  all_goals simp [*]

@[simp] theorem State.modLegA_within {l : List Part} {s t : State} {a1 a2} (hAudio : Part.audio ∈ l) :
    Within l s (State.modLegA t a1 a2) ↔ Within l s t := by
  simp only [State.modLegA]
  repeat' split
  all_goals simp [*]

@[simp] theorem State.beaconSet_within {l : List Part} {s t : State} {a1 a2} (hAudio : Part.audio ∈ l) (hEvents : Part.events ∈ l) :
    Within l s (State.beaconSet t a1 a2) ↔ Within l s t := by
  simp only [State.beaconSet]
  repeat' split
  all_goals simp [*]

@[simp] theorem State.setXp_within {l : List Part} {s t : State} {a1 a2} (hAudio : Part.audio ∈ l) :
    Within l s (State.setXp t a1 a2) ↔ Within l s t := by
  simp only [State.setXp]
  repeat' split
  all_goals simp [*]

@[simp] theorem State.modXp_within {l : List Part} {s t : State} {a1 a2} (hAudio : Part.audio ∈ l) :
    Within l s (State.modXp t a1 a2) ↔ Within l s t := by
  simp only [State.modXp]
  repeat' split
  all_goals simp [*]

@[simp] theorem applyAudio_within {l : List Part} {s t : State} {a1} (hAudio : Part.audio ∈ l) (hEvents : Part.events ∈ l) :
    Within l s (applyAudio a1 t) ↔ Within l s t := by
  simp only [applyAudio]
  repeat' split
  all_goals simp [*]

@[simp] theorem State.xpEvent_within {l : List Part} {s t : State} {a1 a2 a3 a4} (hEvents : Part.events ∈ l) :
    Within l s (State.xpEvent t a1 a2 a3 a4) ↔ Within l s t := by
  simp only [State.xpEvent]
  repeat' split
  all_goals simp [*]

/- Machine/FwdOps.lean. -/

@[simp] theorem State.countStream_within {l : List Part} {s t : State} {a1 a2} (hFwd : Part.fwd ∈ l) :
    Within l s (State.countStream t a1 a2) ↔ Within l s t := by
  simp only [State.countStream]
  repeat' split
  all_goals simp [*]

@[simp] theorem State.modStream_within {l : List Part} {s t : State} {a1 a2} (hFwd : Part.fwd ∈ l) :
    Within l s (State.modStream t a1 a2) ↔ Within l s t := by
  simp only [State.modStream]
  repeat' split
  all_goals simp [*]

@[simp] theorem State.setStream_within {l : List Part} {s t : State} {a1 a2} (hFwd : Part.fwd ∈ l) :
    Within l s (State.setStream t a1 a2) ↔ Within l s t := by
  simp only [State.setStream]
  repeat' split
  all_goals simp [*]

@[simp] theorem applyFwd_within {l : List Part} {s t : State} {a1} (hFwd : Part.fwd ∈ l) :
    Within l s (applyFwd a1 t) ↔ Within l s t := by
  simp only [applyFwd]
  repeat' split
  all_goals simp [*]

/- Machine/TimeOps.lean. -/

@[simp] theorem State.squelch_within {l : List Part} {s t : State} (hTime : Part.time ∈ l) (hEvents : Part.events ∈ l) :
    Within l s (State.squelch t) ↔ Within l s t := by
  simp only [State.squelch]
  repeat' split
  all_goals simp [*]

@[simp] theorem State.timeMode_within {l : List Part} {s t : State} {a1} (hTime : Part.time ∈ l) (hEvents : Part.events ∈ l) :
    Within l s (State.timeMode t a1) ↔ Within l s t := by
  simp only [State.timeMode]
  repeat' split
  all_goals simp [*]

@[simp] theorem State.acquire_within {l : List Part} {s t : State} {a1} (hTime : Part.time ∈ l) (hEvents : Part.events ∈ l) :
    Within l s (State.acquire t a1) ↔ Within l s t := by
  simp only [State.acquire]
  repeat' split
  all_goals simp [*]

@[simp] theorem State.sendPtp_within {l : List Part} {s t : State} {a1 a2 a3} (hEgress : Part.egress ∈ l) (hPorts : Part.ports ∈ l) :
    Within l s (State.sendPtp t a1 a2 a3) ↔ Within l s t := by
  simp only [State.sendPtp]
  repeat' split
  all_goals simp [*]

@[simp] theorem State.askGrant_within {l : List Part} {s t : State} {a1 a2 a3} (hEgress : Part.egress ∈ l) (hPorts : Part.ports ∈ l) :
    Within l s (State.askGrant t a1 a2 a3) ↔ Within l s t := by
  simp only [State.askGrant]
  repeat' split
  all_goals simp [*]

@[simp] theorem State.askMasters_within {l : List Part} {s t : State} {a1} (hEgress : Part.egress ∈ l) (hPorts : Part.ports ∈ l) :
    Within l s (State.askMasters t a1) ↔ Within l s t := by
  simp only [State.askMasters]
  repeat' split
  all_goals simp [*]

@[simp] theorem State.setPtp_within {l : List Part} {s t : State} {a1 a2} (hTime : Part.time ∈ l) :
    Within l s (State.setPtp t a1 a2) ↔ Within l s t := by
  simp only [State.setPtp]
  repeat' split
  all_goals simp [*]

@[simp] theorem State.portState_within {l : List Part} {s t : State} {a1 a2} (hTime : Part.time ∈ l) (hEvents : Part.events ∈ l) :
    Within l s (State.portState t a1 a2) ↔ Within l s t := by
  simp only [State.portState]
  repeat' split
  all_goals simp [*]

@[simp] theorem State.follow_within {l : List Part} {s t : State} {a1} (hTime : Part.time ∈ l) (hEvents : Part.events ∈ l) :
    Within l s (State.follow t a1) ↔ Within l s t := by
  simp only [State.follow]
  repeat' split
  all_goals simp [*]

@[simp] theorem State.bmca_within {l : List Part} {s t : State} (hTime : Part.time ∈ l) (hEvents : Part.events ∈ l) :
    Within l s (State.bmca t) ↔ Within l s t := by
  simp only [State.bmca]
  repeat' split
  all_goals simp [*]

@[simp] theorem State.modPtp_within {l : List Part} {s t : State} {a1 a2} (hTime : Part.time ∈ l) :
    Within l s (State.modPtp t a1 a2) ↔ Within l s t := by
  simp only [State.modPtp]
  repeat' split
  all_goals simp [*]

@[simp] theorem State.commitPtp_within {l : List Part} {s t : State} {a1 a2 a3} (hTime : Part.time ∈ l) :
    Within l s (State.commitPtp t a1 a2 a3).1 ↔ Within l s t := by
  simp only [State.commitPtp]
  repeat' split
  all_goals simp [*]

@[simp] theorem State.ptpLink_within {l : List Part} {s t : State} {a1 a2} (hTime : Part.time ∈ l) (hEvents : Part.events ∈ l) :
    Within l s (State.ptpLink t a1 a2) ↔ Within l s t := by
  simp only [State.ptpLink]
  repeat' split
  all_goals simp [*]

@[simp] theorem State.holdover_within {l : List Part} {s t : State} (hTime : Part.time ∈ l) (hEvents : Part.events ∈ l) :
    Within l s (State.holdover t) ↔ Within l s t := by
  simp only [State.holdover]
  repeat' split
  all_goals simp [*]

@[simp] theorem State.stepClock_within {l : List Part} {s t : State} {a1} (hNow : Part.now ∈ l) (hVcp : Part.vcp ∈ l) (hRole : Part.role ∈ l) (hEscs : Part.escs ∈ l) (hPools : Part.pools ∈ l) (hEgress : Part.egress ∈ l) (hTime : Part.time ∈ l) (hMem : Part.mem ∈ l) (hPorts : Part.ports ∈ l) (hStart : Part.start ∈ l) (hPower : Part.power ∈ l) :
    Within l s (State.stepClock t a1) ↔ Within l s t := by
  simp [State.stepClock, VcpState.moved, *]

@[simp] theorem applyTime_within {l : List Part} {s t : State} {a1} (hNow : Part.now ∈ l) (hVcp : Part.vcp ∈ l) (hRole : Part.role ∈ l) (hEscs : Part.escs ∈ l) (hPools : Part.pools ∈ l) (hEgress : Part.egress ∈ l) (hTime : Part.time ∈ l) (hMem : Part.mem ∈ l) (hPorts : Part.ports ∈ l) (hEvents : Part.events ∈ l) (hStart : Part.start ∈ l) (hPower : Part.power ∈ l) :
    Within l s (applyTime a1 t) ↔ Within l s t := by
  simp only [applyTime]
  repeat' split
  all_goals simp [*]

@[simp] theorem State.lockCount_within {l : List Part} {s t : State} {a1} (hTime : Part.time ∈ l) (hEvents : Part.events ∈ l) :
    Within l s (State.lockCount t a1) ↔ Within l s t := by
  simp only [State.lockCount]
  repeat' split
  all_goals simp [*]

@[simp] theorem State.loseSource_within {l : List Part} {s t : State} (hTime : Part.time ∈ l) (hEvents : Part.events ∈ l) :
    Within l s (State.loseSource t) ↔ Within l s t := by
  simp only [State.loseSource]
  repeat' split
  all_goals simp [*]

@[simp] theorem State.regulate_within {l : List Part} {s t : State} {a1 a2} (hTime : Part.time ∈ l) (hEvents : Part.events ∈ l) :
    Within l s (State.regulate t a1 a2) ↔ Within l s t := by
  simp only [State.regulate]
  repeat' split
  all_goals simp [*]

@[simp] theorem State.regulatorStep_within {l : List Part} {s t : State} {a1} (hNow : Part.now ∈ l) (hVcp : Part.vcp ∈ l) (hRole : Part.role ∈ l) (hEscs : Part.escs ∈ l) (hPools : Part.pools ∈ l) (hEgress : Part.egress ∈ l) (hTime : Part.time ∈ l) (hMem : Part.mem ∈ l) (hPorts : Part.ports ∈ l) (hEvents : Part.events ∈ l) (hStart : Part.start ∈ l) (hPower : Part.power ∈ l) :
    Within l s (State.regulatorStep t a1) ↔ Within l s t := by
  simp only [State.regulatorStep]
  repeat' split
  all_goals simp [*]

@[simp] theorem State.withhold_within {l : List Part} {s t : State} {a1} (hTime : Part.time ∈ l) (hEvents : Part.events ∈ l) :
    Within l s (State.withhold t a1) ↔ Within l s t := by
  simp only [State.withhold]
  repeat' split
  all_goals simp [*]

@[simp] theorem State.measure_within {l : List Part} {s t : State} {a1 a2 a3} (hNow : Part.now ∈ l) (hVcp : Part.vcp ∈ l) (hRole : Part.role ∈ l) (hEscs : Part.escs ∈ l) (hPools : Part.pools ∈ l) (hEgress : Part.egress ∈ l) (hTime : Part.time ∈ l) (hMem : Part.mem ∈ l) (hPorts : Part.ports ∈ l) (hEvents : Part.events ∈ l) (hStart : Part.start ∈ l) (hPower : Part.power ∈ l) :
    Within l s (State.measure t a1 a2 a3) ↔ Within l s t := by
  simp only [State.measure]
  repeat' split
  all_goals simp [*]

@[simp] theorem State.takeSource_within {l : List Part} {s t : State} {a1} (hTime : Part.time ∈ l) (hEvents : Part.events ∈ l) :
    Within l s (State.takeSource t a1) ↔ Within l s t := by
  simp only [State.takeSource]
  repeat' split
  all_goals simp [*]

/- Machine/PortOps.lean. -/

@[simp] theorem State.setLane_within {l : List Part} {s t : State} {a1 a2} (hPorts : Part.ports ∈ l) :
    Within l s (State.setLane t a1 a2) ↔ Within l s t := by
  simp only [State.setLane]
  repeat' split
  all_goals simp [*]

@[simp] theorem State.modLane_within {l : List Part} {s t : State} {a1 a2} (hPorts : Part.ports ∈ l) :
    Within l s (State.modLane t a1 a2) ↔ Within l s t := by
  simp only [State.modLane]
  repeat' split
  all_goals simp [*]

@[simp] theorem State.setPort_within {l : List Part} {s t : State} {a1 a2} (hPorts : Part.ports ∈ l) :
    Within l s (State.setPort t a1 a2) ↔ Within l s t := by
  simp only [State.setPort]
  repeat' split
  all_goals simp [*]

@[simp] theorem State.modPort_within {l : List Part} {s t : State} {a1 a2} (hPorts : Part.ports ∈ l) :
    Within l s (State.modPort t a1 a2) ↔ Within l s t := by
  simp only [State.modPort]
  repeat' split
  all_goals simp [*]

@[simp] theorem State.opticsMismatch_within {l : List Part} {s t : State} {a1} (hPorts : Part.ports ∈ l) (hEvents : Part.events ∈ l) :
    Within l s (State.opticsMismatch t a1) ↔ Within l s t := by
  simp only [State.opticsMismatch]
  repeat' split
  all_goals simp [*]

@[simp] theorem State.ifaceStage_within {l : List Part} {s t : State} {a1 a2 a3} (hPorts : Part.ports ∈ l) :
    Within l s (State.ifaceStage t a1 a2 a3) ↔ Within l s t := by
  simp only [State.ifaceStage]
  repeat' split
  all_goals simp [*]

@[simp] theorem State.startIface_within {l : List Part} {s t : State} {a1 a2} (hPorts : Part.ports ∈ l) :
    Within l s (State.startIface t a1 a2) ↔ Within l s t := by
  simp only [State.startIface]
  repeat' split
  all_goals simp [*]

@[simp] theorem State.ifaceDown_within {l : List Part} {s t : State} {a1 a2 a3} (hTime : Part.time ∈ l) (hPorts : Part.ports ∈ l) (hEvents : Part.events ∈ l) :
    Within l s (State.ifaceDown t a1 a2 a3) ↔ Within l s t := by
  simp only [State.ifaceDown]
  repeat' split
  all_goals simp [*]

@[simp] theorem State.takeMode_within {l : List Part} {s t : State} {a1 a2} (hTime : Part.time ∈ l) (hPorts : Part.ports ∈ l) (hEvents : Part.events ∈ l) :
    Within l s (State.takeMode t a1 a2) ↔ Within l s t := by
  simp only [State.takeMode]
  repeat' split
  all_goals simp [*]

@[simp] theorem applyPort_within {l : List Part} {s t : State} {a1} (hTime : Part.time ∈ l) (hPorts : Part.ports ∈ l) (hEvents : Part.events ∈ l) :
    Within l s (applyPort a1 t) ↔ Within l s t := by
  simp only [applyPort]
  repeat' split
  all_goals simp [*]

@[simp] theorem State.selectMode_within {l : List Part} {s t : State} {a1} (hTime : Part.time ∈ l) (hPorts : Part.ports ∈ l) (hEvents : Part.events ∈ l) :
    Within l s (State.selectMode t a1) ↔ Within l s t := by
  simp only [State.selectMode]
  repeat' split
  all_goals simp [*]

@[simp] theorem State.startPort_within {l : List Part} {s t : State} {a1} (hPorts : Part.ports ∈ l) :
    Within l s (State.startPort t a1) ↔ Within l s t := by
  simp only [State.startPort]
  repeat' split
  all_goals simp [*]

@[simp] theorem State.trainIpl_within {l : List Part} {s t : State} (hPorts : Part.ports ∈ l) :
    Within l s (State.trainIpl t) ↔ Within l s t := by
  simp only [State.trainIpl]
  repeat' split
  all_goals simp [*]

@[simp] theorem State.ifaceUp_within {l : List Part} {s t : State} {a1 a2} (hTime : Part.time ∈ l) (hPorts : Part.ports ∈ l) (hEvents : Part.events ∈ l) :
    Within l s (State.ifaceUp t a1 a2) ↔ Within l s t := by
  simp only [State.ifaceUp]
  repeat' split
  all_goals simp [*]

@[simp] theorem State.setIpl_within {l : List Part} {s t : State} {a1 a2} (hPorts : Part.ports ∈ l) :
    Within l s (State.setIpl t a1 a2) ↔ Within l s t := by
  simp only [State.setIpl]
  repeat' split
  all_goals simp [*]

@[simp] theorem State.portDown_within {l : List Part} {s t : State} {a1 a2} (hTime : Part.time ∈ l) (hPorts : Part.ports ∈ l) (hEvents : Part.events ∈ l) :
    Within l s (State.portDown t a1 a2) ↔ Within l s t := by
  simp only [State.portDown]
  repeat' split
  all_goals simp [*]

/- Machine/EventOps.lean. -/

@[simp] theorem applyEvent_within {l : List Part} {s t : State} {a1} (hEvents : Part.events ∈ l) :
    Within l s (applyEvent a1 t) ↔ Within l s t := by
  simp only [applyEvent]
  repeat' split
  all_goals simp [*]

@[simp] theorem State.eventsTakeover_within {l : List Part} {s t : State} (hEgress : Part.egress ∈ l) (hEvents : Part.events ∈ l) :
    Within l s (State.eventsTakeover t) ↔ Within l s t := by
  simp only [State.eventsTakeover]
  repeat' split
  all_goals simp [*]

@[simp] theorem State.lostForAll_within {l : List Part} {s t : State} {a1 a2} (hEvents : Part.events ∈ l) :
    Within l s (State.lostForAll t a1 a2) ↔ Within l s t := by
  simp only [State.lostForAll]
  repeat' split
  all_goals simp [*]

/- Machine/StartOps.lean. -/

@[simp] theorem State.modDie_within {l : List Part} {s t : State} {a1 a2} (hStart : Part.start ∈ l) :
    Within l s (State.modDie t a1 a2) ↔ Within l s t := by
  simp only [State.modDie]
  repeat' split
  all_goals simp [*]

@[simp] theorem State.verdictEvent_within {l : List Part} {s t : State} {a1 a2 a3 a4 a5 a6} (hEvents : Part.events ∈ l) :
    Within l s (State.verdictEvent t a1 a2 a3 a4 a5 a6) ↔ Within l s t := by
  simp only [State.verdictEvent]
  repeat' split
  all_goals simp [*]

@[simp] theorem State.endTest_within {l : List Part} {s t : State} {a1 a2 a3 a4} (hClaims : Part.claims ∈ l) (hEvents : Part.events ∈ l) (hStart : Part.start ∈ l) :
    Within l s (State.endTest t a1 a2 a3 a4) ↔ Within l s t := by
  simp only [State.endTest]
  repeat' split
  all_goals simp [*]

@[simp] theorem State.abortTest_within {l : List Part} {s t : State} {a1} (hClaims : Part.claims ∈ l) (hEvents : Part.events ∈ l) (hStart : Part.start ∈ l) :
    Within l s (State.abortTest t a1) ↔ Within l s t := by
  simp only [State.abortTest]
  repeat' split
  all_goals simp [*]

@[simp] theorem State.wiped_within {l : List Part} {s t : State} {a1} (hStaged : Part.staged ∈ l) (hClaims : Part.claims ∈ l) (hVcp : Part.vcp ∈ l) (hRole : Part.role ∈ l) (hEscs : Part.escs ∈ l) (hPools : Part.pools ∈ l) (hFwd : Part.fwd ∈ l) (hCipher : Part.cipher ∈ l) (hEgress : Part.egress ∈ l) (hVideo : Part.video ∈ l) (hAudio : Part.audio ∈ l) (hTime : Part.time ∈ l) (hMem : Part.mem ∈ l) (hPorts : Part.ports ∈ l) (hEvents : Part.events ∈ l) (hStart : Part.start ∈ l) (hPower : Part.power ∈ l) :
    Within l s (State.wiped t a1) ↔ Within l s t := by
  simp only [State.wiped]
  repeat' split
  all_goals simp [*]

@[simp] theorem State.beginStart_within {l : List Part} {s t : State} {a1} (hNow : Part.now ∈ l) (hStaged : Part.staged ∈ l) (hClaims : Part.claims ∈ l) (hVcp : Part.vcp ∈ l) (hRole : Part.role ∈ l) (hEscs : Part.escs ∈ l) (hPools : Part.pools ∈ l) (hFwd : Part.fwd ∈ l) (hCipher : Part.cipher ∈ l) (hEgress : Part.egress ∈ l) (hVideo : Part.video ∈ l) (hAudio : Part.audio ∈ l) (hTime : Part.time ∈ l) (hMem : Part.mem ∈ l) (hPorts : Part.ports ∈ l) (hEvents : Part.events ∈ l) (hStart : Part.start ∈ l) (hPower : Part.power ∈ l) :
    Within l s (State.beginStart t a1) ↔ Within l s t := by
  simp only [State.beginStart]
  repeat' split
  all_goals simp [*]

@[simp] theorem State.stopTests_within {l : List Part} {s t : State} {a1} (hClaims : Part.claims ∈ l) (hCipher : Part.cipher ∈ l) (hEvents : Part.events ∈ l) (hStart : Part.start ∈ l) :
    Within l s (State.stopTests t a1) ↔ Within l s t := by
  simp only [State.stopTests]
  repeat' split
  all_goals simp [*]

@[simp] theorem State.bistControl_within {l : List Part} {s t : State} {a1 a2} (hClaims : Part.claims ∈ l) (hCipher : Part.cipher ∈ l) (hEvents : Part.events ∈ l) (hStart : Part.start ∈ l) :
    Within l s (State.bistControl t a1 a2) ↔ Within l s t := by
  simp only [State.bistControl]
  repeat' split
  all_goals simp [*]

@[simp] theorem State.clearStack_within {l : List Part} {s t : State} {a1} (hMem : Part.mem ∈ l) :
    Within l s (State.clearStack t a1) ↔ Within l s t := by
  simp only [State.clearStack]
  repeat' split
  all_goals simp [*]

@[simp] theorem State.modFw_within {l : List Part} {s t : State} {a1 a2} (hStart : Part.start ∈ l) :
    Within l s (State.modFw t a1 a2) ↔ Within l s t := by
  simp only [State.modFw]
  repeat' split
  all_goals simp [*]

@[simp] theorem State.commitImage_within {l : List Part} {s t : State} {a1} (hEvents : Part.events ∈ l) (hStart : Part.start ∈ l) :
    Within l s (State.commitImage t a1) ↔ Within l s t := by
  simp only [State.commitImage]
  repeat' split
  all_goals simp [*]

@[simp] theorem State.fencedEvent_within {l : List Part} {s t : State} {a1 a2} (hEvents : Part.events ∈ l) :
    Within l s (State.fencedEvent t a1 a2) ↔ Within l s t := by
  simp only [State.fencedEvent]
  repeat' split
  all_goals simp [*]

@[simp] theorem State.haltDie_within {l : List Part} {s t : State} {a1} (hEscs : Part.escs ∈ l) (hPools : Part.pools ∈ l) :
    Within l s (State.haltDie t a1) ↔ Within l s t := by
  simp only [State.haltDie]
  repeat' split
  all_goals simp [*]

@[simp] theorem State.stopDie_within {l : List Part} {s t : State} {a1 a2} (hClaims : Part.claims ∈ l) (hEscs : Part.escs ∈ l) (hPools : Part.pools ∈ l) (hCipher : Part.cipher ∈ l) (hEvents : Part.events ∈ l) (hStart : Part.start ∈ l) :
    Within l s (State.stopDie t a1 a2) ↔ Within l s t := by
  simp only [State.stopDie]
  repeat' split
  all_goals simp [*]

@[simp] theorem State.fenceDie_within {l : List Part} {s t : State} {a1 a2} (hClaims : Part.claims ∈ l) (hEscs : Part.escs ∈ l) (hPools : Part.pools ∈ l) (hCipher : Part.cipher ∈ l) (hEvents : Part.events ∈ l) (hStart : Part.start ∈ l) :
    Within l s (State.fenceDie t a1 a2) ↔ Within l s t := by
  simp only [State.fenceDie]
  repeat' split
  all_goals simp [*]

@[simp] theorem State.recoverDie_within {l : List Part} {s t : State} {a1} (hClaims : Part.claims ∈ l) (hEscs : Part.escs ∈ l) (hPools : Part.pools ∈ l) (hCipher : Part.cipher ∈ l) (hMem : Part.mem ∈ l) (hEvents : Part.events ∈ l) (hStart : Part.start ∈ l) :
    Within l s (State.recoverDie t a1) ↔ Within l s t := by
  simp only [State.recoverDie]
  repeat' split
  all_goals simp [*]

@[simp] theorem State.saveCounter_within {l : List Part} {s t : State} (hTime : Part.time ∈ l) :
    Within l s (State.saveCounter t) ↔ Within l s t := by
  simp only [State.saveCounter]
  repeat' split
  all_goals simp [*]

@[simp] theorem State.restart_within {l : List Part} {s t : State} {a1} (hNow : Part.now ∈ l) (hStaged : Part.staged ∈ l) (hClaims : Part.claims ∈ l) (hVcp : Part.vcp ∈ l) (hRole : Part.role ∈ l) (hEscs : Part.escs ∈ l) (hPools : Part.pools ∈ l) (hFwd : Part.fwd ∈ l) (hCipher : Part.cipher ∈ l) (hEgress : Part.egress ∈ l) (hVideo : Part.video ∈ l) (hAudio : Part.audio ∈ l) (hTime : Part.time ∈ l) (hMem : Part.mem ∈ l) (hPorts : Part.ports ∈ l) (hEvents : Part.events ∈ l) (hStart : Part.start ∈ l) (hPower : Part.power ∈ l) :
    Within l s (State.restart t a1) ↔ Within l s t := by
  simp only [State.restart]
  repeat' split
  all_goals simp [*]

@[simp] theorem State.startTest_within {l : List Part} {s t : State} {a1} (hClaims : Part.claims ∈ l) (hEscs : Part.escs ∈ l) (hPools : Part.pools ∈ l) (hCipher : Part.cipher ∈ l) (hEvents : Part.events ∈ l) (hStart : Part.start ∈ l) :
    Within l s (State.startTest t a1) ↔ Within l s t := by
  simp only [State.startTest]
  repeat' split
  all_goals simp [*]

@[simp] theorem State.modOtp_within {l : List Part} {s t : State} {a1 a2} (hStart : Part.start ∈ l) :
    Within l s (State.modOtp t a1 a2) ↔ Within l s t := by
  simp only [State.modOtp]
  repeat' split
  all_goals simp [*]

@[simp] theorem State.unlockScan_within {l : List Part} {s t : State} (hStaged : Part.staged ∈ l) (hClaims : Part.claims ∈ l) (hVcp : Part.vcp ∈ l) (hCipher : Part.cipher ∈ l) (hEvents : Part.events ∈ l) (hStart : Part.start ∈ l) (hPower : Part.power ∈ l) :
    Within l s (State.unlockScan t) ↔ Within l s t := by
  simp only [State.unlockScan]
  repeat' split
  all_goals simp [*]

@[simp] theorem State.otpWritten_within {l : List Part} {s t : State} {a1 a2} (hEvents : Part.events ∈ l) :
    Within l s (State.otpWritten t a1 a2) ↔ Within l s t := by
  simp only [State.otpWritten]
  repeat' split
  all_goals simp [*]

@[simp] theorem State.writeRepairs_within {l : List Part} {s t : State} (hEvents : Part.events ∈ l) (hStart : Part.start ∈ l) :
    Within l s (State.writeRepairs t) ↔ Within l s t := by
  simp only [State.writeRepairs]
  repeat' split
  all_goals simp [*]

@[simp] theorem State.writeSettings_within {l : List Part} {s t : State} {a1} (hEvents : Part.events ∈ l) (hStart : Part.start ∈ l) :
    Within l s (State.writeSettings t a1) ↔ Within l s t := by
  simp only [State.writeSettings]
  repeat' split
  all_goals simp [*]

@[simp] theorem applyStart_within {l : List Part} {s t : State} {a1} (hNow : Part.now ∈ l) (hStaged : Part.staged ∈ l) (hClaims : Part.claims ∈ l) (hVcp : Part.vcp ∈ l) (hRole : Part.role ∈ l) (hEscs : Part.escs ∈ l) (hPools : Part.pools ∈ l) (hFwd : Part.fwd ∈ l) (hCipher : Part.cipher ∈ l) (hEgress : Part.egress ∈ l) (hVideo : Part.video ∈ l) (hAudio : Part.audio ∈ l) (hTime : Part.time ∈ l) (hMem : Part.mem ∈ l) (hPorts : Part.ports ∈ l) (hEvents : Part.events ∈ l) (hStart : Part.start ∈ l) (hPower : Part.power ∈ l) :
    Within l s (applyStart a1 t) ↔ Within l s t := by
  simp only [applyStart]
  repeat' split
  all_goals simp [*]

@[simp] theorem State.failedStart_within {l : List Part} {s t : State} {a1} (hStaged : Part.staged ∈ l) (hClaims : Part.claims ∈ l) (hVcp : Part.vcp ∈ l) (hRole : Part.role ∈ l) (hEscs : Part.escs ∈ l) (hPools : Part.pools ∈ l) (hFwd : Part.fwd ∈ l) (hCipher : Part.cipher ∈ l) (hEgress : Part.egress ∈ l) (hVideo : Part.video ∈ l) (hAudio : Part.audio ∈ l) (hTime : Part.time ∈ l) (hMem : Part.mem ∈ l) (hPorts : Part.ports ∈ l) (hEvents : Part.events ∈ l) (hStart : Part.start ∈ l) (hPower : Part.power ∈ l) :
    Within l s (State.failedStart t a1) ↔ Within l s t := by
  simp only [State.failedStart]
  repeat' split
  all_goals simp [*]

@[simp] theorem State.startStack_within {l : List Part} {s t : State} {a1 a2} (hMem : Part.mem ∈ l) :
    Within l s (State.startStack t a1 a2) ↔ Within l s t := by
  simp only [State.startStack]
  repeat' split
  all_goals simp [*]

@[simp] theorem State.fenceWithPackage_within {l : List Part} {s t : State} {a1} (hClaims : Part.claims ∈ l) (hEscs : Part.escs ∈ l) (hPools : Part.pools ∈ l) (hCipher : Part.cipher ∈ l) (hEvents : Part.events ∈ l) (hStart : Part.start ∈ l) :
    Within l s (State.fenceWithPackage t a1) ↔ Within l s t := by
  simp only [State.fenceWithPackage]
  repeat' split
  all_goals simp [*]

@[simp] theorem State.holdPort_within {l : List Part} {s t : State} {a1} (hTime : Part.time ∈ l) (hPorts : Part.ports ∈ l) (hEvents : Part.events ∈ l) :
    Within l s (State.holdPort t a1) ↔ Within l s t := by
  simp only [State.holdPort]
  repeat' split
  all_goals simp [*]

@[simp] theorem State.leave_within {l : List Part} {s t : State} {a1} (hClaims : Part.claims ∈ l) (hRole : Part.role ∈ l) (hEscs : Part.escs ∈ l) (hPools : Part.pools ∈ l) (hCipher : Part.cipher ∈ l) (hTime : Part.time ∈ l) (hPorts : Part.ports ∈ l) (hEvents : Part.events ∈ l) (hStart : Part.start ∈ l) :
    Within l s (State.leave t a1) ↔ Within l s t := by
  simp only [State.leave]
  repeat' split
  all_goals simp [*]

@[simp] theorem State.restoreDie_within {l : List Part} {s t : State} {a1 a2 a3} (hEscs : Part.escs ∈ l) (hPools : Part.pools ∈ l) (hAudio : Part.audio ∈ l) (hMem : Part.mem ∈ l) (hEvents : Part.events ∈ l) (hStart : Part.start ∈ l) :
    Within l s (State.restoreDie t a1 a2 a3) ↔ Within l s t := by
  simp only [State.restoreDie]
  repeat' split
  all_goals simp [*]

/- Machine/ImageOps.lean. -/

@[simp] theorem State.loadBuffer_within {l : List Part} {s t : State} {a1 a2} (hVideo : Part.video ∈ l) (hMem : Part.mem ∈ l) :
    Within l s (State.loadBuffer t a1 a2) ↔ Within l s t := by
  simp only [State.loadBuffer]
  repeat' split
  all_goals simp [*]

@[simp] theorem State.openWork_within {l : List Part} {s t : State} {a1 a2} (hCipher : Part.cipher ∈ l) :
    Within l s (State.openWork t a1 a2) ↔ Within l s t := by
  simp only [State.openWork]
  repeat' split
  all_goals simp [*]

@[simp] theorem State.startExport_within {l : List Part} {s t : State} {a1 a2} (hVcp : Part.vcp ∈ l) (hCipher : Part.cipher ∈ l) :
    Within l s (State.startExport t a1 a2) ↔ Within l s t := by
  simp only [State.startExport]
  repeat' split
  all_goals simp [*]

@[simp] theorem applyCipher_within {l : List Part} {s t : State} {a1} (hVcp : Part.vcp ∈ l) (hCipher : Part.cipher ∈ l) (hVideo : Part.video ∈ l) (hMem : Part.mem ∈ l) (hEvents : Part.events ∈ l) :
    Within l s (applyCipher a1 t) ↔ Within l s t := by
  simp only [applyCipher]
  repeat' split
  all_goals simp [*]

/- Machine/Apply.lean. -/

@[simp] theorem applySched_within {l : List Part} {s t : State} {a1} (hEscs : Part.escs ∈ l) (hPools : Part.pools ∈ l) :
    Within l s (applySched a1 t) ↔ Within l s t := by
  simp only [applySched]
  repeat' split
  all_goals simp [*]

@[simp] theorem applyChange_within {l : List Part} {s t : State} {a1} (hNow : Part.now ∈ l) (hStaged : Part.staged ∈ l) (hClaims : Part.claims ∈ l) (hVcp : Part.vcp ∈ l) (hRole : Part.role ∈ l) (hEscs : Part.escs ∈ l) (hPools : Part.pools ∈ l) (hFwd : Part.fwd ∈ l) (hCipher : Part.cipher ∈ l) (hEgress : Part.egress ∈ l) (hVideo : Part.video ∈ l) (hAudio : Part.audio ∈ l) (hTime : Part.time ∈ l) (hMem : Part.mem ∈ l) (hPorts : Part.ports ∈ l) (hEvents : Part.events ∈ l) (hStart : Part.start ∈ l) (hPower : Part.power ∈ l) :
    Within l s (applyChange a1 t) ↔ Within l s t := by
  simp only [applyChange]
  repeat' split
  all_goals simp [*]

@[simp] theorem applyAll_within {l : List Part} {s t : State} {a1} (hNow : Part.now ∈ l) (hStaged : Part.staged ∈ l) (hClaims : Part.claims ∈ l) (hVcp : Part.vcp ∈ l) (hRole : Part.role ∈ l) (hEscs : Part.escs ∈ l) (hPools : Part.pools ∈ l) (hFwd : Part.fwd ∈ l) (hCipher : Part.cipher ∈ l) (hEgress : Part.egress ∈ l) (hVideo : Part.video ∈ l) (hAudio : Part.audio ∈ l) (hTime : Part.time ∈ l) (hMem : Part.mem ∈ l) (hPorts : Part.ports ∈ l) (hEvents : Part.events ∈ l) (hStart : Part.start ∈ l) (hPower : Part.power ∈ l) :
    Within l s (applyAll a1 t) ↔ Within l s t := by
  simp only [applyAll]
  repeat' split
  all_goals simp [*]

@[simp] theorem State.takeScoped_within {l : List Part} {s t : State} {a1 a2} (hNow : Part.now ∈ l) (hStaged : Part.staged ∈ l) (hClaims : Part.claims ∈ l) (hVcp : Part.vcp ∈ l) (hRole : Part.role ∈ l) (hEscs : Part.escs ∈ l) (hPools : Part.pools ∈ l) (hFwd : Part.fwd ∈ l) (hCipher : Part.cipher ∈ l) (hEgress : Part.egress ∈ l) (hVideo : Part.video ∈ l) (hAudio : Part.audio ∈ l) (hTime : Part.time ∈ l) (hMem : Part.mem ∈ l) (hPorts : Part.ports ∈ l) (hEvents : Part.events ∈ l) (hStart : Part.start ∈ l) (hPower : Part.power ∈ l) :
    Within l s (State.takeScoped t a1 a2) ↔ Within l s t := by
  simp only [State.takeScoped]
  repeat' split
  all_goals simp [*]

/- Machine/Cmd.lean. -/

@[simp] theorem State.setPacket_within {l : List Part} {s t : State} {a1} (hVcp : Part.vcp ∈ l) :
    Within l s (State.setPacket t a1) ↔ Within l s t := by
  simp only [State.setPacket]
  repeat' split
  all_goals simp [*]

@[simp] theorem State.undo_within {l : List Part} {s t : State} {a1} (hStaged : Part.staged ∈ l) (hClaims : Part.claims ∈ l) :
    Within l s (State.undo t a1) ↔ Within l s t := by
  simp only [State.undo]
  repeat' split
  all_goals simp [*]

@[simp] theorem State.failCmd_within {l : List Part} {s t : State} {a1 a2 a3 a4} (hStaged : Part.staged ∈ l) (hClaims : Part.claims ∈ l) (hVcp : Part.vcp ∈ l) :
    Within l s (State.failCmd t a1 a2 a3 a4) ↔ Within l s t := by
  simp only [State.failCmd]
  repeat' split
  all_goals simp [*]

@[simp] theorem State.passCmd_within {l : List Part} {s t : State} {a1 a2 a3 a4} (hNow : Part.now ∈ l) (hStaged : Part.staged ∈ l) (hClaims : Part.claims ∈ l) (hVcp : Part.vcp ∈ l) (hRole : Part.role ∈ l) (hEscs : Part.escs ∈ l) (hPools : Part.pools ∈ l) (hFwd : Part.fwd ∈ l) (hCipher : Part.cipher ∈ l) (hEgress : Part.egress ∈ l) (hVideo : Part.video ∈ l) (hAudio : Part.audio ∈ l) (hTime : Part.time ∈ l) (hMem : Part.mem ∈ l) (hPorts : Part.ports ∈ l) (hEvents : Part.events ∈ l) (hStart : Part.start ∈ l) (hPower : Part.power ∈ l) :
    Within l s (State.passCmd t a1 a2 a3 a4) ↔ Within l s t := by
  simp only [State.passCmd]
  repeat' split
  all_goals simp [*]

@[simp] theorem State.runRecord_within {l : List Part} {s t : State} {a1 a2 a3 a4 a5} (hNow : Part.now ∈ l) (hStaged : Part.staged ∈ l) (hClaims : Part.claims ∈ l) (hVcp : Part.vcp ∈ l) (hRole : Part.role ∈ l) (hEscs : Part.escs ∈ l) (hPools : Part.pools ∈ l) (hFwd : Part.fwd ∈ l) (hCipher : Part.cipher ∈ l) (hEgress : Part.egress ∈ l) (hVideo : Part.video ∈ l) (hAudio : Part.audio ∈ l) (hTime : Part.time ∈ l) (hMem : Part.mem ∈ l) (hPorts : Part.ports ∈ l) (hEvents : Part.events ∈ l) (hStart : Part.start ∈ l) (hPower : Part.power ∈ l) :
    Within l s (State.runRecord t a1 a2 a3 a4 a5) ↔ Within l s t := by
  simp only [State.runRecord]
  repeat' split
  all_goals simp [*]

@[simp] theorem flushUndefined_within {l : List Part} {s t : State} {a1 a2} (hStaged : Part.staged ∈ l) (hClaims : Part.claims ∈ l) (hVcp : Part.vcp ∈ l) :
    Within l s (flushUndefined t a1 a2).1 ↔ Within l s t := by
  induction a2 generalizing t a1 with
  | nil => rfl
  | cons x xs ih =>
    simp only [flushUndefined]
    repeat' split
    all_goals simp [*]

end Sys2Proof.Machine
end

