-- ==== Sys2Proof/Laws/FrameMedia.lean ====
section
/-! SUPPORT. What each operation of tasks, packets and queues can change. -/

namespace Sys2Proof.Machine

/- Machine/BeaconOps.lean. -/

@[simp] theorem State.rxError_within {l : List Part} {s t : State} {a1 a2 a3} (hAudio : Part.audio ∈ l) (hEvents : Part.events ∈ l) :
    Within l s (State.rxError t a1 a2 a3) ↔ Within l s t := by
  simp only [State.rxError]
  repeat' split
  all_goals simp [*]

@[simp] theorem State.beaconHeader_within {l : List Part} {s t : State} {a1 a2 a3} (hAudio : Part.audio ∈ l) (hEvents : Part.events ∈ l) :
    Within l s (State.beaconHeader t a1 a2 a3) ↔ Within l s t := by
  simp only [State.beaconHeader]
  repeat' split
  all_goals simp [*]

@[simp] theorem State.foreignPacket_within {l : List Part} {s t : State} {a1 a2 a3 a4 a5 a6} (hAudio : Part.audio ∈ l) (hEvents : Part.events ∈ l) :
    Within l s (State.foreignPacket t a1 a2 a3 a4 a5 a6) ↔ Within l s t := by
  simp only [State.foreignPacket]
  repeat' split
  all_goals simp [*]

@[simp] theorem State.steerTo_within {l : List Part} {s t : State} {a1 a2 a3} (hAudio : Part.audio ∈ l) (hEvents : Part.events ∈ l) :
    Within l s (State.steerTo t a1 a2 a3) ↔ Within l s t := by
  simp only [State.steerTo]
  repeat' split
  all_goals simp [*]

@[simp] theorem State.ownPacket_within {l : List Part} {s t : State} {a1 a2 a3 a4 a5} (hAudio : Part.audio ∈ l) (hEvents : Part.events ∈ l) :
    Within l s (State.ownPacket t a1 a2 a3 a4 a5) ↔ Within l s t := by
  simp only [State.ownPacket]
  repeat' split
  all_goals simp [*]

@[simp] theorem State.beaconPayload_within {l : List Part} {s t : State} {a1 a2 a3 a4 a5} (hAudio : Part.audio ∈ l) (hEvents : Part.events ∈ l) :
    Within l s (State.beaconPayload t a1 a2 a3 a4 a5) ↔ Within l s t := by
  simp only [State.beaconPayload]
  repeat' split
  all_goals simp [*]

@[simp] theorem State.beaconCheck_within {l : List Part} {s t : State} {a1 a2} (hAudio : Part.audio ∈ l) (hEvents : Part.events ∈ l) :
    Within l s (State.beaconCheck t a1 a2) ↔ Within l s t := by
  simp only [State.beaconCheck]
  repeat' split
  all_goals simp [*]

@[simp] theorem State.beaconDefer_within {l : List Part} {s t : State} {a1 a2 a3} (hAudio : Part.audio ∈ l) (hEvents : Part.events ∈ l) :
    Within l s (State.beaconDefer t a1 a2 a3) ↔ Within l s t := by
  simp only [State.beaconDefer]
  repeat' split
  all_goals simp [*]

@[simp] theorem State.beaconDetect_within {l : List Part} {s t : State} {a1 a2 a3 a4 a5} (hAudio : Part.audio ∈ l) (hEvents : Part.events ∈ l) :
    Within l s (State.beaconDetect t a1 a2 a3 a4 a5) ↔ Within l s t := by
  simp only [State.beaconDetect]
  repeat' split
  all_goals simp [*]

@[simp] theorem State.beaconPassDue_within {l : List Part} {s t : State} {a1 a2} (hAudio : Part.audio ∈ l) (hEvents : Part.events ∈ l) :
    Within l s (State.beaconPassDue t a1 a2) ↔ Within l s t := by
  simp only [State.beaconPassDue]
  repeat' split
  all_goals simp [*]

@[simp] theorem State.beaconDue_within {l : List Part} {s t : State} {a1 a2 a3} (hAudio : Part.audio ∈ l) (hEvents : Part.events ∈ l) :
    Within l s (State.beaconDue t a1 a2 a3) ↔ Within l s t := by
  simp only [State.beaconDue]
  repeat' split
  all_goals simp [*]

@[simp] theorem State.beaconSearch_within {l : List Part} {s t : State} {a1 a2} (hAudio : Part.audio ∈ l) (hEvents : Part.events ∈ l) :
    Within l s (State.beaconSearch t a1 a2) ↔ Within l s t := by
  simp only [State.beaconSearch]
  repeat' split
  all_goals simp [*]

@[simp] theorem State.beaconSample_within {l : List Part} {s t : State} {a1 a2 a3} (hAudio : Part.audio ∈ l) (hEvents : Part.events ∈ l) :
    Within l s (State.beaconSample t a1 a2 a3) ↔ Within l s t := by
  simp only [State.beaconSample]
  repeat' split
  all_goals simp [*]

@[simp] theorem State.beaconListen_within {l : List Part} {s t : State} {a1 a2 a3} (hAudio : Part.audio ∈ l) (hEvents : Part.events ∈ l) :
    Within l s (State.beaconListen t a1 a2 a3) ↔ Within l s t := by
  simp only [State.beaconListen]
  repeat' split
  all_goals simp [*]

/- Machine/JitterOps.lean. -/

@[simp] theorem State.driftPacket_within {l : List Part} {s t : State} {a1 a2 a3 a4} (hAudio : Part.audio ∈ l) :
    Within l s (State.driftPacket t a1 a2 a3 a4) ↔ Within l s t := by
  simp only [State.driftPacket]
  repeat' split
  all_goals simp [*]

@[simp] theorem State.anchorLeg_within {l : List Part} {s t : State} {a1 a2 a3} (hAudio : Part.audio ∈ l) (hEvents : Part.events ∈ l) :
    Within l s (State.anchorLeg t a1 a2 a3) ↔ Within l s t := by
  simp only [State.anchorLeg]
  repeat' split
  all_goals simp [*]

@[simp] theorem State.closeBlock_within {l : List Part} {s t : State} {a1} (hAudio : Part.audio ∈ l) (hEvents : Part.events ∈ l) :
    Within l s (State.closeBlock t a1) ↔ Within l s t := by
  simp only [State.closeBlock]
  repeat' split
  all_goals simp [*]

@[simp] theorem State.jbPlace_within {l : List Part} {s t : State} {a1 a2 a3} (hAudio : Part.audio ∈ l) (hEvents : Part.events ∈ l) :
    Within l s (State.jbPlace t a1 a2 a3) ↔ Within l s t := by
  simp only [State.jbPlace]
  repeat' split
  all_goals simp [*]

/- Machine/Egress.lean. -/

@[simp] theorem State.countSent_within {l : List Part} {s t : State} {a1 a2 a3} (hPorts : Part.ports ∈ l) :
    Within l s (State.countSent t a1 a2 a3) ↔ Within l s t := by
  simp only [State.countSent]
  repeat' split
  all_goals simp [*]

@[simp] theorem State.startFrame_within {l : List Part} {s t : State} {a1 a2 a3 a4 a5 a6} (hFwd : Part.fwd ∈ l) (hEgress : Part.egress ∈ l) (hTime : Part.time ∈ l) (hPorts : Part.ports ∈ l) :
    Within l s (State.startFrame t a1 a2 a3 a4 a5 a6) ↔ Within l s t := by
  simp only [State.startFrame]
  repeat' split
  all_goals first | (simp [*]; done) | (simp [*]; split <;> simp [*])

/- Machine/VideoDecode.lean. -/

@[simp] theorem State.releaseAus_within {l : List Part} {s t : State} {a1 a2 a3} (hEscs : Part.escs ∈ l) (hPools : Part.pools ∈ l) (hVideo : Part.video ∈ l) (hEvents : Part.events ∈ l) :
    Within l s (State.releaseAus a1 a2 a3 t) ↔ Within l s t := by
  induction a3 generalizing t a2 with
  | zero => rfl
  | succ n ih =>
    simp only [State.releaseAus]
    repeat' split
    all_goals simp [*]

@[simp] theorem State.abandonHead_within {l : List Part} {s t : State} {a1 a2} (hEscs : Part.escs ∈ l) (hPools : Part.pools ∈ l) (hVideo : Part.video ∈ l) (hEvents : Part.events ∈ l) :
    Within l s (State.abandonHead t a1 a2) ↔ Within l s t := by
  simp only [State.abandonHead]
  repeat' split
  all_goals simp [*]

@[simp] theorem State.bufferFull_within {l : List Part} {s t : State} {a1 a2 a3 a4} (hEscs : Part.escs ∈ l) (hPools : Part.pools ∈ l) (hVideo : Part.video ∈ l) (hEvents : Part.events ∈ l) :
    Within l s (State.bufferFull t a1 a2 a3 a4) ↔ Within l s t := by
  simp only [State.bufferFull]
  repeat' split
  all_goals simp [*]

@[simp] theorem State.lapseAus_within {l : List Part} {s t : State} {a1 a2 a3 a4} (hEscs : Part.escs ∈ l) (hPools : Part.pools ∈ l) (hVideo : Part.video ∈ l) (hEvents : Part.events ∈ l) :
    Within l s (State.lapseAus a1 a2 a3 a4 t) ↔ Within l s t := by
  induction a4 generalizing t with
  | zero => rfl
  | succ n ih =>
    simp only [State.lapseAus]
    repeat' split
    all_goals simp [*]

@[simp] theorem State.auPacket_within {l : List Part} {s t : State} {a1 a2 a3} (hEscs : Part.escs ∈ l) (hPools : Part.pools ∈ l) (hVideo : Part.video ∈ l) (hEvents : Part.events ∈ l) :
    Within l s (State.auPacket t a1 a2 a3) ↔ Within l s t := by
  simp only [State.auPacket]
  repeat' split
  all_goals simp [*]

@[simp] theorem State.decodeStart_within {l : List Part} {s t : State} {a1} (hEscs : Part.escs ∈ l) (hPools : Part.pools ∈ l) (hVideo : Part.video ∈ l) (hEvents : Part.events ∈ l) :
    Within l s (State.decodeStart t a1) ↔ Within l s t := by
  simp only [State.decodeStart]
  repeat' split
  all_goals simp [*]

@[simp] theorem State.writePair_within {l : List Part} {s t : State} {a1 a2} (hVideo : Part.video ∈ l) :
    Within l s (State.writePair t a1 a2) ↔ Within l s t := by
  simp only [State.writePair]
  repeat' split
  all_goals simp [*]

@[simp] theorem State.decodeBroken_within {l : List Part} {s t : State} {a1 a2 a3 a4} (hVideo : Part.video ∈ l) (hEvents : Part.events ∈ l) :
    Within l s (State.decodeBroken t a1 a2 a3 a4) ↔ Within l s t := by
  simp only [State.decodeBroken]
  repeat' split
  all_goals simp [*]

@[simp] theorem State.decodeGood_within {l : List Part} {s t : State} {a1 a2 a3} (hVideo : Part.video ∈ l) (hEvents : Part.events ∈ l) :
    Within l s (State.decodeGood t a1 a2 a3) ↔ Within l s t := by
  simp only [State.decodeGood]
  repeat' split
  all_goals simp [*]

@[simp] theorem State.decodeDone_within {l : List Part} {s t : State} {a1 a2} (hVideo : Part.video ∈ l) (hEvents : Part.events ∈ l) :
    Within l s (State.decodeDone t a1 a2).1 ↔ Within l s t := by
  simp only [State.decodeDone]
  repeat' split
  all_goals simp [*]

/- Machine/PacketOps.lean. -/

@[simp] theorem State.authFailed_within {l : List Part} {s t : State} {a1 a2 a3 a4} (hFwd : Part.fwd ∈ l) (hEvents : Part.events ∈ l) :
    Within l s (State.authFailed t a1 a2 a3 a4) ↔ Within l s t := by
  simp only [State.authFailed]
  repeat' split
  all_goals simp [*]

@[simp] theorem State.copyFor_within {l : List Part} {s t : State} {a1 a2 a3 a4 a5} (hFwd : Part.fwd ∈ l) :
    Within l s (State.copyFor t a1 a2 a3 a4 a5).1 ↔ Within l s t := by
  simp only [State.copyFor]
  repeat' split
  all_goals simp [*]

@[simp] theorem State.streamWork_within {l : List Part} {s t : State} {a1 a2 a3} (hCipher : Part.cipher ∈ l) :
    Within l s (State.streamWork t a1 a2 a3) ↔ Within l s t := by
  simp only [State.streamWork]
  repeat' split
  all_goals simp [*]

@[simp] theorem State.copyWork_within {l : List Part} {s t : State} {a1 a2 a3} (hCipher : Part.cipher ∈ l) :
    Within l s (State.copyWork t a1 a2 a3) ↔ Within l s t := by
  simp only [State.copyWork]
  repeat' split
  all_goals simp [*]

@[simp] theorem State.countArrival_within {l : List Part} {s t : State} {a1 a2} (hFwd : Part.fwd ∈ l) :
    Within l s (State.countArrival t a1 a2) ↔ Within l s t := by
  simp only [State.countArrival]
  repeat' split
  all_goals simp [*]

@[simp] theorem State.deliver_within {l : List Part} {s t : State} {a1 a2 a3} (hEscs : Part.escs ∈ l) (hPools : Part.pools ∈ l) (hVideo : Part.video ∈ l) (hAudio : Part.audio ∈ l) (hEvents : Part.events ∈ l) :
    Within l s (State.deliver t a1 a2 a3) ↔ Within l s t := by
  simp only [State.deliver]
  repeat' split
  all_goals simp [*]

@[simp] theorem State.modTarget_within {l : List Part} {s t : State} {a1 a2 a3} (hFwd : Part.fwd ∈ l) :
    Within l s (State.modTarget t a1 a2 a3) ↔ Within l s t := by
  simp only [State.modTarget]
  repeat' split
  all_goals simp [*]

@[simp] theorem State.dropFor_within {l : List Part} {s t : State} {a1 a2 a3} (hFwd : Part.fwd ∈ l) :
    Within l s (State.dropFor t a1 a2 a3) ↔ Within l s t := by
  simp only [State.dropFor]
  repeat' split
  all_goals simp [*]

@[simp] theorem State.grantOut_within {l : List Part} {s t : State} {a1} (hCipher : Part.cipher ∈ l) (hEvents : Part.events ∈ l) :
    Within l s (State.grantOut t a1).1 ↔ Within l s t := by
  simp only [State.grantOut]
  repeat' split
  all_goals simp [*]

@[simp] theorem State.sentFor_within {l : List Part} {s t : State} {a1 a2 a3 a4} (hFwd : Part.fwd ∈ l) :
    Within l s (State.sentFor t a1 a2 a3 a4) ↔ Within l s t := by
  simp only [State.sentFor]
  repeat' split
  all_goals simp [*]

@[simp] theorem State.queueFor_within {l : List Part} {s t : State} {a1 a2 a3 a4} (hFwd : Part.fwd ∈ l) (hCipher : Part.cipher ∈ l) (hEgress : Part.egress ∈ l) (hEvents : Part.events ∈ l) :
    Within l s (State.queueFor t a1 a2 a3 a4).1 ↔ Within l s t := by
  simp only [State.queueFor]
  repeat' split
  all_goals simp [*]

@[simp] theorem State.selectFor_within {l : List Part} {s t : State} {a1 a2 a3} (hFwd : Part.fwd ∈ l) (hEvents : Part.events ∈ l) :
    Within l s (State.selectFor t a1 a2 a3).1 ↔ Within l s t := by
  simp only [State.selectFor]
  repeat' split
  all_goals simp [*]

@[simp] theorem State.forwardOne_within {l : List Part} {s t : State} {a1 a2 a3} (hFwd : Part.fwd ∈ l) (hCipher : Part.cipher ∈ l) (hEgress : Part.egress ∈ l) (hEvents : Part.events ∈ l) :
    Within l s (State.forwardOne a1 a2 t a3) ↔ Within l s t := by
  simp only [State.forwardOne]
  repeat' split
  all_goals simp [*]

@[simp] theorem State.forward_within {l : List Part} {s t : State} {a1 a2} (hFwd : Part.fwd ∈ l) (hCipher : Part.cipher ∈ l) (hEgress : Part.egress ∈ l) (hEvents : Part.events ∈ l) :
    Within l s (State.forward t a1 a2) ↔ Within l s t := by
  simp only [State.forward]
  repeat' split
  all_goals simp [*]

@[simp] theorem State.seenPacket_within {l : List Part} {s t : State} {a1 a2 a3 a4 a5} (hFwd : Part.fwd ∈ l) (hEvents : Part.events ∈ l) :
    Within l s (State.seenPacket t a1 a2 a3 a4 a5) ↔ Within l s t := by
  simp only [State.seenPacket]
  repeat' split
  all_goals simp [*]

@[simp] theorem State.emitPacket_within {l : List Part} {s t : State} {a1 a2 a3 a4} (hFwd : Part.fwd ∈ l) (hCipher : Part.cipher ∈ l) (hEgress : Part.egress ∈ l) (hEvents : Part.events ∈ l) :
    Within l s (State.emitPacket a1 a2 a3 t a4) ↔ Within l s t := by
  simp only [State.emitPacket]
  repeat' split
  all_goals simp [*]

@[simp] theorem State.sendVideo_within {l : List Part} {s t : State} {a1 a2 a3 a4} (hFwd : Part.fwd ∈ l) (hCipher : Part.cipher ∈ l) (hEgress : Part.egress ∈ l) (hEvents : Part.events ∈ l) :
    Within l s (State.sendVideo t a1 a2 a3 a4) ↔ Within l s t := by
  refine Within.foldl fun u p => ?_
  refine Within.foldl fun v k => ?_
  simp [*]

@[simp] theorem State.policerRed_within {l : List Part} {s t : State} {a1 a2} (hEgress : Part.egress ∈ l) (hEvents : Part.events ∈ l) :
    Within l s (State.policerRed t a1 a2) ↔ Within l s t := by
  simp only [State.policerRed]
  repeat' split
  all_goals simp [*]

@[simp] theorem State.police_within {l : List Part} {s t : State} {a1 a2 a3 a4} (hFwd : Part.fwd ∈ l) (hEgress : Part.egress ∈ l) (hEvents : Part.events ∈ l) :
    Within l s (State.police t a1 a2 a3 a4).1 ↔ Within l s t := by
  simp only [State.police]
  repeat' split
  all_goals simp [*]

@[simp] theorem State.letIn_within {l : List Part} {s t : State} {a1 a2 a3 a4} (hFwd : Part.fwd ∈ l) (hEgress : Part.egress ∈ l) (hEvents : Part.events ∈ l) :
    Within l s (State.letIn t a1 a2 a3 a4).1 ↔ Within l s t := by
  simp only [State.letIn]
  repeat' split
  all_goals simp [*]

@[simp] theorem State.mkiUnknown_within {l : List Part} {s t : State} {a1 a2 a3 a4} (hFwd : Part.fwd ∈ l) (hEvents : Part.events ∈ l) :
    Within l s (State.mkiUnknown t a1 a2 a3 a4) ↔ Within l s t := by
  simp only [State.mkiUnknown]
  repeat' split
  all_goals simp [*]

@[simp] theorem State.sendAudio_within {l : List Part} {s t : State} {a1 a2 a3} (hFwd : Part.fwd ∈ l) (hCipher : Part.cipher ∈ l) (hEgress : Part.egress ∈ l) (hEvents : Part.events ∈ l) :
    Within l s (State.sendAudio t a1 a2 a3) ↔ Within l s t := by
  simp only [State.sendAudio]
  repeat' split
  all_goals simp [*]

@[simp] theorem State.skipAudio_within {l : List Part} {s t : State} {a1} (hFwd : Part.fwd ∈ l) :
    Within l s (State.skipAudio t a1) ↔ Within l s t := by
  simp only [State.skipAudio]
  repeat' split
  all_goals simp [*]

/- Machine/VideoCompose.lean. -/

@[simp] theorem State.composeEvent_within {l : List Part} {s t : State} {a1 a2 a3} (hEvents : Part.events ∈ l) :
    Within l s (State.composeEvent t a1 a2 a3) ↔ Within l s t := by
  simp only [State.composeEvent]
  repeat' split
  all_goals simp [*]

@[simp] theorem State.clampEvent_within {l : List Part} {s t : State} {a1 a2} (hEvents : Part.events ∈ l) :
    Within l s (State.clampEvent t a1 a2).1 ↔ Within l s t := by
  simp only [State.clampEvent]
  repeat' split
  all_goals simp [*]

@[simp] theorem layerAfter_within {l : List Part} {s t : State} {a1 a2 a3 a4 a5 a6} (hEvents : Part.events ∈ l) :
    Within l s (layerAfter t a1 a2 a3 a4 a5 a6).1 ↔ Within l s t := by
  simp only [layerAfter]
  repeat' split
  all_goals simp [*]

@[simp] theorem regionAfter_within {l : List Part} {s t : State} {a1 a2 a3 a4} (hEvents : Part.events ∈ l) :
    Within l s (regionAfter t a1 a2 a3 a4).1 ↔ Within l s t := by
  simp only [regionAfter]
  repeat' split
  all_goals simp [*]

@[simp] theorem State.composeDone_within {l : List Part} {s t : State} {a1 a2 a3} (hNow : Part.now ∈ l) (hStaged : Part.staged ∈ l) (hClaims : Part.claims ∈ l) (hVcp : Part.vcp ∈ l) (hRole : Part.role ∈ l) (hEscs : Part.escs ∈ l) (hPools : Part.pools ∈ l) (hFwd : Part.fwd ∈ l) (hCipher : Part.cipher ∈ l) (hEgress : Part.egress ∈ l) (hVideo : Part.video ∈ l) (hAudio : Part.audio ∈ l) (hTime : Part.time ∈ l) (hMem : Part.mem ∈ l) (hPorts : Part.ports ∈ l) (hEvents : Part.events ∈ l) (hStart : Part.start ∈ l) (hPower : Part.power ∈ l) :
    Within l s (State.composeDone t a1 a2 a3).1 ↔ Within l s t := by
  simp only [State.composeDone]
  repeat' split
  all_goals simp [*]

/- Machine/VideoEncode.lean. -/

@[simp] theorem State.encodeLatch_within {l : List Part} {s t : State} {a1 a2} (hVideo : Part.video ∈ l) :
    Within l s (State.encodeLatch t a1 a2) ↔ Within l s t := by
  simp only [State.encodeLatch]
  repeat' split
  all_goals simp [*]

@[simp] theorem State.encodeEvent_within {l : List Part} {s t : State} {a1 a2 a3 a4} (hEvents : Part.events ∈ l) :
    Within l s (State.encodeEvent t a1 a2 a3 a4) ↔ Within l s t := by
  simp only [State.encodeEvent]
  repeat' split
  all_goals simp [*]

@[simp] theorem State.keepWindows_within {l : List Part} {s t : State} {a1 a2} (hVideo : Part.video ∈ l) :
    Within l s (State.keepWindows t a1 a2) ↔ Within l s t := by
  simp only [State.keepWindows]
  repeat' split
  all_goals simp [*]

@[simp] theorem State.repeatEvent_within {l : List Part} {s t : State} {a1 a2 a3} (hVideo : Part.video ∈ l) (hEvents : Part.events ∈ l) :
    Within l s (State.repeatEvent t a1 a2 a3) ↔ Within l s t := by
  simp only [State.repeatEvent]
  repeat' split
  all_goals simp [*]

@[simp] theorem State.codeFrame_within {l : List Part} {s t : State} {a1 a2 a3 a4} (hVideo : Part.video ∈ l) (hEvents : Part.events ∈ l) :
    Within l s (State.codeFrame t a1 a2 a3 a4).1 ↔ Within l s t := by
  simp only [State.codeFrame]
  repeat' split
  all_goals simp [*]

@[simp] theorem State.postFrame_within {l : List Part} {s t : State} {a1 a2 a3 a4 a5} (hEscs : Part.escs ∈ l) (hPools : Part.pools ∈ l) (hFwd : Part.fwd ∈ l) (hCipher : Part.cipher ∈ l) (hEgress : Part.egress ∈ l) (hVideo : Part.video ∈ l) (hMem : Part.mem ∈ l) (hEvents : Part.events ∈ l) :
    Within l s (State.postFrame t a1 a2 a3 a4 a5) ↔ Within l s t := by
  simp only [State.postFrame]
  repeat' split
  all_goals simp [*]

@[simp] theorem State.encodeDone_within {l : List Part} {s t : State} {a1 a2 a3 a4 a5} (hNow : Part.now ∈ l) (hStaged : Part.staged ∈ l) (hClaims : Part.claims ∈ l) (hVcp : Part.vcp ∈ l) (hRole : Part.role ∈ l) (hEscs : Part.escs ∈ l) (hPools : Part.pools ∈ l) (hFwd : Part.fwd ∈ l) (hCipher : Part.cipher ∈ l) (hEgress : Part.egress ∈ l) (hVideo : Part.video ∈ l) (hAudio : Part.audio ∈ l) (hTime : Part.time ∈ l) (hMem : Part.mem ∈ l) (hPorts : Part.ports ∈ l) (hEvents : Part.events ∈ l) (hStart : Part.start ∈ l) (hPower : Part.power ∈ l) :
    Within l s (State.encodeDone t a1 a2 a3 a4 a5) ↔ Within l s t := by
  simp only [State.encodeDone]
  repeat' split
  all_goals simp [*]

@[simp] theorem State.gangDone_within {l : List Part} {s t : State} {a1 a2 a3 a4} (hEscs : Part.escs ∈ l) (hPools : Part.pools ∈ l) (hFwd : Part.fwd ∈ l) (hCipher : Part.cipher ∈ l) (hEgress : Part.egress ∈ l) (hVideo : Part.video ∈ l) (hMem : Part.mem ∈ l) (hEvents : Part.events ∈ l) :
    Within l s (State.gangDone t a1 a2 a3 a4) ↔ Within l s t := by
  simp only [State.gangDone]
  repeat' split
  all_goals simp [*]

/- Machine/Sched.lean. -/

@[simp] theorem State.begin__within {l : List Part} {s t : State} {a1 a2} (hEscs : Part.escs ∈ l) (hPools : Part.pools ∈ l) (hVideo : Part.video ∈ l) (hEvents : Part.events ∈ l) :
    Within l s (State.begin_ t a1 a2) ↔ Within l s t := by
  simp only [State.begin_]
  repeat' split
  all_goals simp [*]

@[simp] theorem State.countStall_within {l : List Part} {s t : State} {a1} (hPools : Part.pools ∈ l) :
    Within l s (State.countStall t a1) ↔ Within l s t := by
  simp only [State.countStall]
  repeat' split
  all_goals simp [*]

@[simp] theorem State.issue_within {l : List Part} {s t : State} {a1 a2 a3 a4 a5} (hEscs : Part.escs ∈ l) (hPools : Part.pools ∈ l) (hVideo : Part.video ∈ l) (hEvents : Part.events ∈ l) :
    Within l s (State.issue t a1 a2 a3 a4 a5) ↔ Within l s t := by
  simp only [State.issue]
  repeat' split
  all_goals simp [*]

@[simp] theorem State.issueAll_within {l : List Part} {s t : State} {a1 a2 a3 a4} (hEscs : Part.escs ∈ l) (hPools : Part.pools ∈ l) (hVideo : Part.video ∈ l) (hEvents : Part.events ∈ l) :
    Within l s (State.issueAll a1 a2 a3 a4 t) ↔ Within l s t := by
  induction a3 generalizing t a4 with
  | nil => simp [State.issueAll, *]
  | cons x xs ih =>
    simp only [State.issueAll]
    repeat' split
    all_goals simp [*]

@[simp] theorem State.latchAll_within {l : List Part} {s t : State} {a1 a2 a3} (hVideo : Part.video ∈ l) :
    Within l s (State.latchAll t a1 a2 a3) ↔ Within l s t := by
  refine Within.foldl fun u i => ?_
  repeat' split
  all_goals simp [*]

@[simp] theorem State.markLate_within {l : List Part} {s t : State} {a1 a2} (hEscs : Part.escs ∈ l) :
    Within l s (State.markLate t a1 a2) ↔ Within l s t := by
  simp only [State.markLate]
  repeat' split
  all_goals simp [*]

@[simp] theorem State.runSlices_within {l : List Part} {s t : State} {a1} (hStart : Part.start ∈ l) :
    Within l s (State.runSlices t a1) ↔ Within l s t := by
  simp only [State.runSlices]
  repeat' split
  all_goals simp [*]

@[simp] theorem State.swapBank_within {l : List Part} {s t : State} {a1 a2} (hEscs : Part.escs ∈ l) (hPools : Part.pools ∈ l) (hEvents : Part.events ∈ l) :
    Within l s (State.swapBank t a1 a2) ↔ Within l s t := by
  simp only [State.swapBank]
  repeat' split
  all_goals simp [*]

/- Machine/Audio.lean. -/

@[simp] theorem State.postAudio_within {l : List Part} {s t : State} {a1 a2} (hFwd : Part.fwd ∈ l) (hCipher : Part.cipher ∈ l) (hEgress : Part.egress ∈ l) (hAudio : Part.audio ∈ l) (hEvents : Part.events ∈ l) :
    Within l s (State.postAudio t a1 a2) ↔ Within l s t := by
  simp only [State.postAudio]
  repeat' split
  all_goals simp [*]

@[simp] theorem State.steerSource_within {l : List Part} {s t : State} {a1 a2 a3} (hAudio : Part.audio ∈ l) (hEvents : Part.events ∈ l) :
    Within l s (State.steerSource a1 a2 t a3) ↔ Within l s t := by
  simp only [State.steerSource]
  repeat' split
  all_goals simp [*]

@[simp] theorem State.steerBeat_within {l : List Part} {s t : State} {a1 a2} (hAudio : Part.audio ∈ l) (hEvents : Part.events ∈ l) :
    Within l s (State.steerBeat t a1 a2) ↔ Within l s t := by
  simp only [State.steerBeat]
  repeat' split
  all_goals simp [*]

@[simp] theorem State.underrunEvent_within {l : List Part} {s t : State} {a1} (hAudio : Part.audio ∈ l) (hEvents : Part.events ∈ l) :
    Within l s (State.underrunEvent t a1) ↔ Within l s t := by
  simp only [State.underrunEvent]
  repeat' split
  all_goals simp [*]

@[simp] theorem State.receiveBeat_within {l : List Part} {s t : State} {a1 a2} (hAudio : Part.audio ∈ l) (hEvents : Part.events ∈ l) :
    Within l s (State.receiveBeat t a1 a2) ↔ Within l s t := by
  simp only [State.receiveBeat]
  repeat' split
  all_goals simp [*]

@[simp] theorem State.sendBeat_within {l : List Part} {s t : State} {a1 a2 a3 a4} (hAudio : Part.audio ∈ l) (hEvents : Part.events ∈ l) :
    Within l s (State.sendBeat t a1 a2 a3 a4).1 ↔ Within l s t := by
  simp only [State.sendBeat]
  repeat' split
  all_goals simp [*]

/- Machine/Packet.lean. -/

@[simp] theorem State.authenticate_within {l : List Part} {s t : State} {a1 a2 a3} (hFwd : Part.fwd ∈ l) :
    Within l s (State.authenticate t a1 a2 a3) ↔ Within l s t := by
  simp only [State.authenticate]
  repeat' split
  all_goals simp [*]

@[simp] theorem State.modParse_within {l : List Part} {s t : State} {a1 a2} (hFwd : Part.fwd ∈ l) :
    Within l s (State.modParse t a1 a2) ↔ Within l s t := by
  simp only [State.modParse]
  repeat' split
  all_goals simp [*]

@[simp] theorem State.clusterOverrun_within {l : List Part} {s t : State} {a1 a2} (hFwd : Part.fwd ∈ l) (hEvents : Part.events ∈ l) :
    Within l s (State.clusterOverrun t a1 a2) ↔ Within l s t := by
  simp only [State.clusterOverrun]
  repeat' split
  all_goals simp [*]

@[simp] theorem State.unknownSsrc_within {l : List Part} {s t : State} {a1 a2 a3 a4} (hFwd : Part.fwd ∈ l) (hEvents : Part.events ∈ l) :
    Within l s (State.unknownSsrc t a1 a2 a3 a4) ↔ Within l s t := by
  simp only [State.unknownSsrc]
  repeat' split
  all_goals simp [*]

@[simp] theorem State.closeCut_within {l : List Part} {s t : State} {a1} (hFwd : Part.fwd ∈ l) :
    Within l s (State.closeCut t a1) ↔ Within l s t := by
  simp only [State.closeCut]
  repeat' split
  all_goals simp [*]

@[simp] theorem State.commitCut_within {l : List Part} {s t : State} {a1 a2 a3} (hFwd : Part.fwd ∈ l) (hEgress : Part.egress ∈ l) :
    Within l s (State.commitCut t a1 a2 a3) ↔ Within l s t := by
  simp only [State.commitCut]
  repeat' split
  all_goals simp [*]

@[simp] theorem State.discardHeld_within {l : List Part} {s t : State} {a1} (hEgress : Part.egress ∈ l) :
    Within l s (State.discardHeld t a1) ↔ Within l s t := by
  simp only [State.discardHeld]
  repeat' split
  all_goals simp [*]

@[simp] theorem State.modCut_within {l : List Part} {s t : State} {a1 a2} (hFwd : Part.fwd ∈ l) :
    Within l s (State.modCut t a1 a2) ↔ Within l s t := by
  simp only [State.modCut]
  repeat' split
  all_goals simp [*]

@[simp] theorem State.expressOne_within {l : List Part} {s t : State} {a1 a2 a3 a4 a5 a6} (hFwd : Part.fwd ∈ l) (hCipher : Part.cipher ∈ l) (hEgress : Part.egress ∈ l) (hEvents : Part.events ∈ l) :
    Within l s (State.expressOne a1 a2 a3 a4 a5 t a6) ↔ Within l s t := by
  simp only [State.expressOne]
  repeat' split
  all_goals simp [*]

@[simp] theorem State.unmark_within {l : List Part} {s t : State} {a1 a2} (hFwd : Part.fwd ∈ l) :
    Within l s (State.unmark t a1 a2) ↔ Within l s t := by
  simp only [State.unmark]
  repeat' split
  all_goals simp [*]

@[simp] theorem State.expressPath_within {l : List Part} {s t : State} {a1 a2 a3} (hFwd : Part.fwd ∈ l) (hCipher : Part.cipher ∈ l) (hEgress : Part.egress ∈ l) (hMem : Part.mem ∈ l) (hEvents : Part.events ∈ l) :
    Within l s (State.expressPath t a1 a2 a3) ↔ Within l s t := by
  simp only [State.expressPath]
  repeat' split
  all_goals simp [*]

@[simp] theorem State.markCuts_within {l : List Part} {s t : State} {a1 a2} (hEgress : Part.egress ∈ l) :
    Within l s (State.markCuts t a1 a2) ↔ Within l s t := by
  simp only [State.markCuts]
  repeat' split
  all_goals simp [*]

@[simp] theorem State.rollByCut_within {l : List Part} {s t : State} {a1} (hFwd : Part.fwd ∈ l) :
    Within l s (State.rollByCut t a1) ↔ Within l s t := by
  simp only [State.rollByCut]
  repeat' split
  all_goals simp [*]

@[simp] theorem State.failCut_within {l : List Part} {s t : State} {a1} (hFwd : Part.fwd ∈ l) (hEgress : Part.egress ∈ l) (hEvents : Part.events ∈ l) :
    Within l s (State.failCut t a1) ↔ Within l s t := by
  simp only [State.failCut]
  repeat' split
  all_goals simp [*]

@[simp] theorem State.keyRequest_within {l : List Part} {s t : State} {a1} (hVideo : Part.video ∈ l) :
    Within l s (State.keyRequest t a1) ↔ Within l s t := by
  simp only [State.keyRequest]
  repeat' split
  all_goals simp [*]

@[simp] theorem State.sendRtcp_within {l : List Part} {s t : State} {a1 a2 a3 a4} (hFwd : Part.fwd ∈ l) (hCipher : Part.cipher ∈ l) (hEgress : Part.egress ∈ l) (hPorts : Part.ports ∈ l) (hEvents : Part.events ∈ l) :
    Within l s (State.sendRtcp t a1 a2 a3 a4) ↔ Within l s t := by
  simp only [State.sendRtcp]
  repeat' split
  all_goals simp [*]

@[simp] theorem State.feedback_within {l : List Part} {s t : State} {a1} (hFwd : Part.fwd ∈ l) (hCipher : Part.cipher ∈ l) (hEgress : Part.egress ∈ l) (hVideo : Part.video ∈ l) (hPorts : Part.ports ∈ l) (hEvents : Part.events ∈ l) :
    Within l s (State.feedback t a1) ↔ Within l s t := by
  unfold State.feedback
  split
  · rfl
  · refine Within.foldl fun u x => ?_
    refine (Within.foldl fun v q => ?_).trans ?_
    all_goals (split <;> simp [*])

@[simp] theorem State.openRtp_within {l : List Part} {s t : State} {a1 a2 a3 a4 a5} (hCipher : Part.cipher ∈ l) :
    Within l s (State.openRtp t a1 a2 a3 a4 a5) ↔ Within l s t := by
  simp only [State.openRtp]
  repeat' split
  all_goals simp [*]

@[simp] theorem State.passPacket_within {l : List Part} {s t : State} {a1 a2 a3} (hEscs : Part.escs ∈ l) (hPools : Part.pools ∈ l) (hFwd : Part.fwd ∈ l) (hCipher : Part.cipher ∈ l) (hEgress : Part.egress ∈ l) (hVideo : Part.video ∈ l) (hAudio : Part.audio ∈ l) (hEvents : Part.events ∈ l) :
    Within l s (State.passPacket t a1 a2 a3) ↔ Within l s t := by
  simp only [State.passPacket]
  repeat' split
  all_goals simp [*]

@[simp] theorem State.judgeRtp_within {l : List Part} {s t : State} {a1 a2 a3 a4} (hEscs : Part.escs ∈ l) (hPools : Part.pools ∈ l) (hFwd : Part.fwd ∈ l) (hCipher : Part.cipher ∈ l) (hEgress : Part.egress ∈ l) (hVideo : Part.video ∈ l) (hAudio : Part.audio ∈ l) (hEvents : Part.events ∈ l) :
    Within l s (State.judgeRtp t a1 a2 a3 a4) ↔ Within l s t := by
  simp only [State.judgeRtp]
  repeat' split
  all_goals simp [*]

@[simp] theorem State.releaseHeld_within {l : List Part} {s t : State} {a1} (hEgress : Part.egress ∈ l) :
    Within l s (State.releaseHeld t a1) ↔ Within l s t := by
  simp only [State.releaseHeld]
  repeat' split
  all_goals simp [*]

@[simp] theorem State.passCut_within {l : List Part} {s t : State} {a1} (hEscs : Part.escs ∈ l) (hPools : Part.pools ∈ l) (hFwd : Part.fwd ∈ l) (hEgress : Part.egress ∈ l) (hVideo : Part.video ∈ l) (hAudio : Part.audio ∈ l) (hEvents : Part.events ∈ l) :
    Within l s (State.passCut t a1) ↔ Within l s t := by
  simp only [State.passCut]
  repeat' split
  all_goals simp [*]

@[simp] theorem State.rtcpBudget_within {l : List Part} {s t : State} {a1} (hFwd : Part.fwd ∈ l) :
    Within l s (State.rtcpBudget t a1).1 ↔ Within l s t := by
  simp only [State.rtcpBudget]
  repeat' split
  all_goals simp [*]

@[simp] theorem State.toRtcp_within {l : List Part} {s t : State} {a1 a2} (hFwd : Part.fwd ∈ l) (hCipher : Part.cipher ∈ l) (hEgress : Part.egress ∈ l) (hVideo : Part.video ∈ l) (hPorts : Part.ports ∈ l) (hEvents : Part.events ∈ l) :
    Within l s (State.toRtcp t a1 a2) ↔ Within l s t := by
  simp only [State.toRtcp]
  repeat' split
  all_goals simp [*]

@[simp] theorem State.rtcpOf_within {l : List Part} {s t : State} {a1 a2 a3} (hFwd : Part.fwd ∈ l) (hCipher : Part.cipher ∈ l) (hEgress : Part.egress ∈ l) (hVideo : Part.video ∈ l) (hPorts : Part.ports ∈ l) (hEvents : Part.events ∈ l) :
    Within l s (State.rtcpOf t a1 a2 a3) ↔ Within l s t := by
  simp only [State.rtcpOf]
  repeat' split
  all_goals simp [*]

@[simp] theorem State.standardPath_within {l : List Part} {s t : State} {a1 a2 a3} (hEscs : Part.escs ∈ l) (hPools : Part.pools ∈ l) (hFwd : Part.fwd ∈ l) (hCipher : Part.cipher ∈ l) (hEgress : Part.egress ∈ l) (hVideo : Part.video ∈ l) (hAudio : Part.audio ∈ l) (hMem : Part.mem ∈ l) (hEvents : Part.events ∈ l) :
    Within l s (State.standardPath t a1 a2 a3) ↔ Within l s t := by
  simp only [State.standardPath]
  repeat' split
  all_goals simp [*]

@[simp] theorem State.stompCut_within {l : List Part} {s t : State} {a1} (hFwd : Part.fwd ∈ l) (hEgress : Part.egress ∈ l) (hEvents : Part.events ∈ l) :
    Within l s (State.stompCut t a1) ↔ Within l s t := by
  simp only [State.stompCut]
  repeat' split
  all_goals simp [*]

/- Machine/Crosspoint.lean. -/

@[simp] theorem State.inputLate_within {l : List Part} {s t : State} {a1 a2 a3} (hAudio : Part.audio ∈ l) (hEvents : Part.events ∈ l) :
    Within l s (State.inputLate t a1 a2 a3) ↔ Within l s t := by
  simp only [State.inputLate]
  repeat' split
  all_goals simp [*]

@[simp] theorem State.judgeGroup_within {l : List Part} {s t : State} {a1 a2 a3} (hAudio : Part.audio ∈ l) (hEvents : Part.events ∈ l) :
    Within l s (State.judgeGroup a1 a2 t a3) ↔ Within l s t := by
  simp only [State.judgeGroup]
  repeat' split
  all_goals simp [*]

@[simp] theorem State.tieArrive_within {l : List Part} {s t : State} {a1 a2 a3 a4 a5} (hAudio : Part.audio ∈ l) (hEvents : Part.events ∈ l) :
    Within l s (State.tieArrive t a1 a2 a3 a4 a5) ↔ Within l s t := by
  simp only [State.tieArrive]
  repeat' split
  all_goals simp [*]

@[simp] theorem State.mixBeat_within {l : List Part} {s t : State} {a1 a2 a3 a4 a5 a6} (hNow : Part.now ∈ l) (hStaged : Part.staged ∈ l) (hClaims : Part.claims ∈ l) (hVcp : Part.vcp ∈ l) (hRole : Part.role ∈ l) (hEscs : Part.escs ∈ l) (hPools : Part.pools ∈ l) (hFwd : Part.fwd ∈ l) (hCipher : Part.cipher ∈ l) (hEgress : Part.egress ∈ l) (hVideo : Part.video ∈ l) (hAudio : Part.audio ∈ l) (hTime : Part.time ∈ l) (hMem : Part.mem ∈ l) (hPorts : Part.ports ∈ l) (hEvents : Part.events ∈ l) (hStart : Part.start ∈ l) (hPower : Part.power ∈ l) :
    Within l s (State.mixBeat t a1 a2 a3 a4 a5 a6) ↔ Within l s t := by
  simp only [State.mixBeat]
  repeat' split
  all_goals simp [*]

/-- A composition changes, beyond the staged changes that it takes, its output and the events. -/
theorem State.composeDone_scoped {l : List Part} {s t : State} {a1 a2 a3} (hVideo : Part.video ∈ l) (hEvents : Part.events ∈ l) :
    Within l s (State.composeDone t a1 a2 a3).1 ↔ Within l s (t.takeScoped (.composition a1) a2) := by
  simp only [State.composeDone]
  repeat' split
  all_goals simp [*]

/-- An encode changes, beyond the staged changes that it takes, its leg, what it sends, its task and the events. -/
theorem State.encodeDone_scoped {l : List Part} {s t : State} {a1 a2 a3 a4 a5} (hEscs : Part.escs ∈ l) (hPools : Part.pools ∈ l) (hFwd : Part.fwd ∈ l) (hCipher : Part.cipher ∈ l) (hEgress : Part.egress ∈ l) (hVideo : Part.video ∈ l) (hMem : Part.mem ∈ l) (hEvents : Part.events ∈ l) :
    Within l s (State.encodeDone t a1 a2 a3 a4 a5) ↔ Within l s (t.takeScoped (.encoding a2) a4.beat) := by
  simp only [State.encodeDone]
  repeat' split
  all_goals simp [*]

/-- A mix changes, beyond the staged changes that it takes, its die's audio and the events. -/
theorem State.mixBeat_scoped {l : List Part} {s t : State} {a1 a2 a3 a4 a5 a6} (hAudio : Part.audio ∈ l) (hEvents : Part.events ∈ l) :
    Within l s (State.mixBeat t a1 a2 a3 a4 a5 a6) ↔ Within l s (t.takeScoped (.mixing a1) a2) := by
  simp only [State.mixBeat]
  repeat' split
  all_goals simp [*]

end Sys2Proof.Machine
end

