-- ==== Sys2Proof/Laws/FramePlatform.lean ====
section
/-! SUPPORT. What each operation of the protocol, of time, of ports, of events and of starts can change. -/

namespace Sys2Proof.Machine

/- Machine/Event.lean. -/

@[simp] theorem State.sendInSession_within {l : List Part} {s t : State} {a1 a2 a3} (hVcp : Part.vcp ∈ l) (hEgress : Part.egress ∈ l) (hPorts : Part.ports ∈ l) :
    Within l s (State.sendInSession t a1 a2 a3) ↔ Within l s t := by
  simp only [State.sendInSession]
  repeat' split
  all_goals simp [*]

@[simp] theorem State.sendEvents_within {l : List Part} {s t : State} {a1 a2 a3} (hVcp : Part.vcp ∈ l) (hEgress : Part.egress ∈ l) (hPorts : Part.ports ∈ l) (hEvents : Part.events ∈ l) :
    Within l s (State.sendEvents t a1 a2 a3) ↔ Within l s t := by
  simp only [State.sendEvents]
  repeat' split
  all_goals simp [*]

@[simp] theorem State.sendSamples_within {l : List Part} {s t : State} {a1 a2} (hVcp : Part.vcp ∈ l) (hEgress : Part.egress ∈ l) (hPorts : Part.ports ∈ l) :
    Within l s (State.sendSamples t a1 a2) ↔ Within l s t := by
  simp only [State.sendSamples]
  repeat' split
  all_goals simp [*]

/- Machine/Mem.lean. -/

@[simp] theorem State.overtemp_within {l : List Part} {s t : State} {a1 a2} (hMem : Part.mem ∈ l) (hEvents : Part.events ∈ l) :
    Within l s (State.overtemp t a1 a2) ↔ Within l s t := by
  simp only [State.overtemp]
  repeat' split
  all_goals simp [*]

/- Machine/Port.lean. -/

@[simp] theorem State.narrowIpl_within {l : List Part} {s t : State} {a1} (hPorts : Part.ports ∈ l) (hEvents : Part.events ∈ l) :
    Within l s (State.narrowIpl t a1) ↔ Within l s t := by
  simp only [State.narrowIpl]
  repeat' split
  all_goals simp [*]

/- Machine/Time.lean. -/

@[simp] theorem State.dropPtp_within {l : List Part} {s t : State} {a1 a2} (hTime : Part.time ∈ l) (hEvents : Part.events ∈ l) :
    Within l s (State.dropPtp t a1 a2) ↔ Within l s t := by
  simp only [State.dropPtp]
  repeat' split
  all_goals simp [*]

@[simp] theorem State.passPtp_within {l : List Part} {s t : State} {a1} (hEgress : Part.egress ∈ l) (hTime : Part.time ∈ l) (hPorts : Part.ports ∈ l) :
    Within l s (State.passPtp t a1) ↔ Within l s t := by
  simp only [State.passPtp]
  repeat' split
  all_goals simp [*]

@[simp] theorem State.grantEvent_within {l : List Part} {s t : State} {a1 a2 a3 a4} (hEvents : Part.events ∈ l) :
    Within l s (State.grantEvent t a1 a2 a3 a4) ↔ Within l s t := by
  simp only [State.grantEvent]
  repeat' split
  all_goals simp [*]

@[simp] theorem State.negotiate_within {l : List Part} {s t : State} {a1 a2 a3 a4 a5} (hEgress : Part.egress ∈ l) (hTime : Part.time ∈ l) (hPorts : Part.ports ∈ l) (hEvents : Part.events ∈ l) :
    Within l s (State.negotiate t a1 a2 a3 a4 a5) ↔ Within l s t := by
  simp only [State.negotiate]
  repeat' split
  all_goals simp [*]

@[simp] theorem State.ocxoEvent_within {l : List Part} {s t : State} (hEvents : Part.events ∈ l) :
    Within l s (State.ocxoEvent t) ↔ Within l s t := by
  simp only [State.ocxoEvent]
  repeat' split
  all_goals simp [*]

@[simp] theorem State.syncMeasure_within {l : List Part} {s t : State} {a1} (hTime : Part.time ∈ l) :
    Within l s (State.syncMeasure t a1) ↔ Within l s t := by
  simp only [State.syncMeasure]
  repeat' split
  all_goals simp [*]

@[simp] theorem State.takePtp_within {l : List Part} {s t : State} {a1} (hEgress : Part.egress ∈ l) (hTime : Part.time ∈ l) (hMem : Part.mem ∈ l) (hPorts : Part.ports ∈ l) (hEvents : Part.events ∈ l) :
    Within l s (State.takePtp t a1).1 ↔ Within l s t := by
  simp only [State.takePtp]
  repeat' split
  all_goals simp [*]

@[simp] theorem State.timeInMeasure_within {l : List Part} {s t : State} {a1 a2} (hTime : Part.time ∈ l) (hEvents : Part.events ∈ l) :
    Within l s (State.timeInMeasure t a1 a2) ↔ Within l s t := by
  simp only [State.timeInMeasure]
  repeat' split
  all_goals simp [*]

@[simp] theorem State.useUp_within {l : List Part} {s t : State} (hTime : Part.time ∈ l) :
    Within l s (State.useUp t) ↔ Within l s t := by
  simp only [State.useUp]
  repeat' split
  all_goals simp [*]

/- Machine/Start.lean. -/

@[simp] theorem State.bistFault_within {l : List Part} {s t : State} {a1 a2 a3} (hEvents : Part.events ∈ l) (hStart : Part.start ∈ l) :
    Within l s (State.bistFault t a1 a2 a3) ↔ Within l s t := by
  simp only [State.bistFault]
  repeat' split
  all_goals simp [*]

@[simp] theorem State.openPort_within {l : List Part} {s t : State} {a1} (hVcp : Part.vcp ∈ l) (hEgress : Part.egress ∈ l) (hTime : Part.time ∈ l) (hPorts : Part.ports ∈ l) (hEvents : Part.events ∈ l) :
    Within l s (State.openPort t a1) ↔ Within l s t := by
  simp only [State.openPort]
  repeat' split
  all_goals simp [*]

@[simp] theorem State.finishStart_within {l : List Part} {s t : State} (hVcp : Part.vcp ∈ l) (hRole : Part.role ∈ l) (hEgress : Part.egress ∈ l) (hTime : Part.time ∈ l) (hPorts : Part.ports ∈ l) (hEvents : Part.events ∈ l) (hStart : Part.start ∈ l) :
    Within l s (State.finishStart t) ↔ Within l s t := by
  simp only [State.finishStart]
  repeat' split
  all_goals simp [*]

@[simp] theorem State.stageWork_within {l : List Part} {s t : State} {a1} (hMem : Part.mem ∈ l) (hPorts : Part.ports ∈ l) :
    Within l s (State.stageWork t a1) ↔ Within l s t := by
  simp only [State.stageWork]
  repeat' split
  all_goals simp [*]

@[simp] theorem State.endStage_within {l : List Part} {s t : State} {a1} (hStaged : Part.staged ∈ l) (hClaims : Part.claims ∈ l) (hVcp : Part.vcp ∈ l) (hRole : Part.role ∈ l) (hEscs : Part.escs ∈ l) (hPools : Part.pools ∈ l) (hFwd : Part.fwd ∈ l) (hCipher : Part.cipher ∈ l) (hEgress : Part.egress ∈ l) (hVideo : Part.video ∈ l) (hAudio : Part.audio ∈ l) (hTime : Part.time ∈ l) (hMem : Part.mem ∈ l) (hPorts : Part.ports ∈ l) (hEvents : Part.events ∈ l) (hStart : Part.start ∈ l) (hPower : Part.power ∈ l) :
    Within l s (State.endStage t a1) ↔ Within l s t := by
  simp only [State.endStage]
  repeat' split
  all_goals simp [*]

@[simp] theorem State.stageFails_within {l : List Part} {s t : State} {a1 a2} (hStaged : Part.staged ∈ l) (hClaims : Part.claims ∈ l) (hVcp : Part.vcp ∈ l) (hRole : Part.role ∈ l) (hEscs : Part.escs ∈ l) (hPools : Part.pools ∈ l) (hFwd : Part.fwd ∈ l) (hCipher : Part.cipher ∈ l) (hEgress : Part.egress ∈ l) (hVideo : Part.video ∈ l) (hAudio : Part.audio ∈ l) (hTime : Part.time ∈ l) (hMem : Part.mem ∈ l) (hPorts : Part.ports ∈ l) (hEvents : Part.events ∈ l) (hStart : Part.start ∈ l) (hPower : Part.power ∈ l) :
    Within l s (State.stageFails t a1 a2) ↔ Within l s t := by
  simp only [State.stageFails]
  repeat' split
  all_goals simp [*]

@[simp] theorem State.testEnds_within {l : List Part} {s t : State} {a1 a2} (hEvents : Part.events ∈ l) (hStart : Part.start ∈ l) :
    Within l s (State.testEnds t a1 a2) ↔ Within l s t := by
  simp only [State.testEnds]
  repeat' split
  all_goals simp [*]

/- Machine/Power.lean. -/

@[simp] theorem State.fanCheck_within {l : List Part} {s t : State} {a1 a2} (hEvents : Part.events ∈ l) (hPower : Part.power ∈ l) :
    Within l s (State.fanCheck t a1 a2) ↔ Within l s t := by
  simp only [State.fanCheck]
  repeat' split
  all_goals simp [*]

@[simp] theorem State.thermalReading_within {l : List Part} {s t : State} {a1 a2} (hEvents : Part.events ∈ l) (hPower : Part.power ∈ l) :
    Within l s (State.thermalReading t a1 a2) ↔ Within l s t := by
  simp only [State.thermalReading]
  repeat' split
  all_goals simp [*]

/- Machine/ReplyOps.lean. -/

@[simp] theorem State.fixEff_within {l : List Part} {s t : State} {a1 a2 a3} (hStaged : Part.staged ∈ l) :
    Within l s (State.fixEff t a1 a2 a3) ↔ Within l s t := by
  simp only [State.fixEff]
  repeat' split
  all_goals simp [*]

@[simp] theorem State.markClusters_within {l : List Part} {s t : State} {a1} (hEscs : Part.escs ∈ l) (hAudio : Part.audio ∈ l) :
    Within l s (State.markClusters t a1) ↔ Within l s t := by
  simp only [State.markClusters]
  repeat' split
  all_goals simp [*]

@[simp] theorem State.takeOne_within {l : List Part} {s t : State} {a1} (hNow : Part.now ∈ l) (hStaged : Part.staged ∈ l) (hClaims : Part.claims ∈ l) (hVcp : Part.vcp ∈ l) (hRole : Part.role ∈ l) (hEscs : Part.escs ∈ l) (hPools : Part.pools ∈ l) (hFwd : Part.fwd ∈ l) (hCipher : Part.cipher ∈ l) (hEgress : Part.egress ∈ l) (hVideo : Part.video ∈ l) (hAudio : Part.audio ∈ l) (hTime : Part.time ∈ l) (hMem : Part.mem ∈ l) (hPorts : Part.ports ∈ l) (hEvents : Part.events ∈ l) (hStart : Part.start ∈ l) (hPower : Part.power ∈ l) :
    Within l s (State.takeOne t a1) ↔ Within l s t := by
  simp only [State.takeOne]
  repeat' split
  all_goals simp [*]

@[simp] theorem applyDue_within {l : List Part} {s t : State} {a1 a2} (hNow : Part.now ∈ l) (hStaged : Part.staged ∈ l) (hClaims : Part.claims ∈ l) (hVcp : Part.vcp ∈ l) (hRole : Part.role ∈ l) (hEscs : Part.escs ∈ l) (hPools : Part.pools ∈ l) (hFwd : Part.fwd ∈ l) (hCipher : Part.cipher ∈ l) (hEgress : Part.egress ∈ l) (hVideo : Part.video ∈ l) (hAudio : Part.audio ∈ l) (hTime : Part.time ∈ l) (hMem : Part.mem ∈ l) (hPorts : Part.ports ∈ l) (hEvents : Part.events ∈ l) (hStart : Part.start ∈ l) (hPower : Part.power ∈ l) :
    Within l s (applyDue a1 a2 t) ↔ Within l s t := by
  induction a2 generalizing t with
  | zero => rfl
  | succ n ih =>
    simp only [applyDue]
    repeat' split
    all_goals simp [*]

@[simp] theorem State.takeDue_within {l : List Part} {s t : State} {a1} (hNow : Part.now ∈ l) (hStaged : Part.staged ∈ l) (hClaims : Part.claims ∈ l) (hVcp : Part.vcp ∈ l) (hRole : Part.role ∈ l) (hEscs : Part.escs ∈ l) (hPools : Part.pools ∈ l) (hFwd : Part.fwd ∈ l) (hCipher : Part.cipher ∈ l) (hEgress : Part.egress ∈ l) (hVideo : Part.video ∈ l) (hAudio : Part.audio ∈ l) (hTime : Part.time ∈ l) (hMem : Part.mem ∈ l) (hPorts : Part.ports ∈ l) (hEvents : Part.events ∈ l) (hStart : Part.start ∈ l) (hPower : Part.power ∈ l) :
    Within l s (State.takeDue t a1) ↔ Within l s t := by
  simp only [State.takeDue]
  repeat' split
  all_goals simp [*]

@[simp] theorem State.reply_within {l : List Part} {s t : State} {a1} (hNow : Part.now ∈ l) (hStaged : Part.staged ∈ l) (hClaims : Part.claims ∈ l) (hVcp : Part.vcp ∈ l) (hRole : Part.role ∈ l) (hEscs : Part.escs ∈ l) (hPools : Part.pools ∈ l) (hFwd : Part.fwd ∈ l) (hCipher : Part.cipher ∈ l) (hEgress : Part.egress ∈ l) (hVideo : Part.video ∈ l) (hAudio : Part.audio ∈ l) (hTime : Part.time ∈ l) (hMem : Part.mem ∈ l) (hPorts : Part.ports ∈ l) (hEvents : Part.events ∈ l) (hStart : Part.start ∈ l) (hPower : Part.power ∈ l) :
    Within l s (State.reply t a1) ↔ Within l s t := by
  simp only [State.reply]
  repeat' split
  all_goals simp [*]

/- Machine/Vcp.lean. -/

@[simp] theorem State.sendHello_within {l : List Part} {s t : State} {a1 a2} (hEgress : Part.egress ∈ l) (hPorts : Part.ports ∈ l) :
    Within l s (State.sendHello t a1 a2) ↔ Within l s t := by
  simp only [State.sendHello]
  repeat' split
  all_goals simp [*]

@[simp] theorem State.acceptHello_within {l : List Part} {s t : State} {a1} (hVcp : Part.vcp ∈ l) (hEgress : Part.egress ∈ l) (hPorts : Part.ports ∈ l) :
    Within l s (State.acceptHello t a1) ↔ Within l s t := by
  simp only [State.acceptHello]
  repeat' split
  all_goals simp [*]

@[simp] theorem State.acceptPacket_within {l : List Part} {s t : State} {a1 a2 a3} (hVcp : Part.vcp ∈ l) (hEgress : Part.egress ∈ l) (hPorts : Part.ports ∈ l) :
    Within l s (State.acceptPacket t a1 a2 a3) ↔ Within l s t := by
  simp only [State.acceptPacket]
  repeat' split
  all_goals simp [*]

@[simp] theorem State.askLease_within {l : List Part} {s t : State} {a1 a2 a3 a4} (hVcp : Part.vcp ∈ l) (hEgress : Part.egress ∈ l) (hPorts : Part.ports ∈ l) :
    Within l s (State.askLease t a1 a2 a3 a4) ↔ Within l s t := by
  simp only [State.askLease]
  repeat' split
  all_goals simp [*]

@[simp] theorem State.toFirmware_within {l : List Part} {s t : State} (hFwd : Part.fwd ∈ l) :
    Within l s (State.toFirmware t) ↔ Within l s t := by
  simp only [State.toFirmware]
  repeat' split
  all_goals simp [*]

@[simp] theorem State.mediaFrame_within {l : List Part} {s t : State} {a1} (hFwd : Part.fwd ∈ l) (hEvents : Part.events ∈ l) :
    Within l s (State.mediaFrame t a1) ↔ Within l s t := by
  simp only [State.mediaFrame]
  repeat' split
  all_goals simp [*]

@[simp] theorem State.ptpFrame_within {l : List Part} {s t : State} {a1} (hEgress : Part.egress ∈ l) (hTime : Part.time ∈ l) (hPorts : Part.ports ∈ l) (hEvents : Part.events ∈ l) :
    Within l s (State.ptpFrame t a1) ↔ Within l s t := by
  simp only [State.ptpFrame]
  repeat' split
  all_goals simp [*]

@[simp] theorem State.heard_within {l : List Part} {s t : State} {a1} (hVcp : Part.vcp ∈ l) :
    Within l s (State.heard t a1) ↔ Within l s t := by
  simp only [State.heard]
  repeat' split
  all_goals simp [*]

@[simp] theorem State.vcpFrame_within {l : List Part} {s t : State} {a1 a2} (hVcp : Part.vcp ∈ l) (hEgress : Part.egress ∈ l) (hPorts : Part.ports ∈ l) (hEvents : Part.events ∈ l) :
    Within l s (State.vcpFrame t a1 a2) ↔ Within l s t := by
  simp only [State.vcpFrame]
  repeat' split
  all_goals simp [*]

@[simp] theorem State.classify_within {l : List Part} {s t : State} {a1} (hVcp : Part.vcp ∈ l) (hFwd : Part.fwd ∈ l) (hEgress : Part.egress ∈ l) (hTime : Part.time ∈ l) (hPorts : Part.ports ∈ l) (hEvents : Part.events ∈ l) :
    Within l s (State.classify t a1) ↔ Within l s t := by
  rcases hv : a1.vcp with _ | ⟨x, c⟩ <;> simp [State.classify, *]

@[simp] theorem State.establish_within {l : List Part} {s t : State} {a1 a2} (hVcp : Part.vcp ∈ l) (hEgress : Part.egress ∈ l) (hPorts : Part.ports ∈ l) (hEvents : Part.events ∈ l) :
    Within l s (State.establish t a1 a2) ↔ Within l s t := by
  simp only [State.establish]
  repeat' split
  all_goals simp [*]

@[simp] theorem State.forgetPackets_within {l : List Part} {s t : State} {a1} (hStaged : Part.staged ∈ l) (hClaims : Part.claims ∈ l) (hVcp : Part.vcp ∈ l) :
    Within l s (State.forgetPackets t a1) ↔ Within l s t := by
  simp only [State.forgetPackets]
  repeat' split
  all_goals simp [*]

@[simp] theorem State.loseStandby_within {l : List Part} {s t : State} (hStaged : Part.staged ∈ l) (hClaims : Part.claims ∈ l) (hVcp : Part.vcp ∈ l) (hRole : Part.role ∈ l) (hEscs : Part.escs ∈ l) (hPools : Part.pools ∈ l) (hFwd : Part.fwd ∈ l) (hCipher : Part.cipher ∈ l) (hEgress : Part.egress ∈ l) (hVideo : Part.video ∈ l) (hAudio : Part.audio ∈ l) (hTime : Part.time ∈ l) (hMem : Part.mem ∈ l) (hPorts : Part.ports ∈ l) (hEvents : Part.events ∈ l) (hStart : Part.start ∈ l) (hPower : Part.power ∈ l) :
    Within l s (State.loseStandby t) ↔ Within l s t := by
  simp only [State.loseStandby]
  repeat' split
  all_goals simp [*]

@[simp] theorem State.takeover_within {l : List Part} {s t : State} (hStaged : Part.staged ∈ l) (hClaims : Part.claims ∈ l) (hVcp : Part.vcp ∈ l) (hRole : Part.role ∈ l) (hEscs : Part.escs ∈ l) (hPools : Part.pools ∈ l) (hFwd : Part.fwd ∈ l) (hCipher : Part.cipher ∈ l) (hEgress : Part.egress ∈ l) (hVideo : Part.video ∈ l) (hAudio : Part.audio ∈ l) (hTime : Part.time ∈ l) (hMem : Part.mem ∈ l) (hPorts : Part.ports ∈ l) (hEvents : Part.events ∈ l) (hStart : Part.start ∈ l) (hPower : Part.power ∈ l) :
    Within l s (State.takeover t) ↔ Within l s t := by
  simp only [State.takeover]
  repeat' split
  all_goals simp [*]

end Sys2Proof.Machine
end

