-- ==== Sys2Proof/Laws/FrameRows.lean ====
section
/-! SUPPORT. What each row that is no command of a packet can change, beside the passing of time. -/

namespace Sys2Proof.Machine

/- Machine/BeaconOps.lean. -/

theorem execBeaconLost_within {l : List Part} {t : State} {dt leg} (hAudio : Part.audio ∈ l) (hEvents : Part.events ∈ l) :
    NextWithin l (t.advance dt) (execBeaconLost dt leg t) := by
  simp only [execBeaconLost]
  repeat' split
  all_goals simp [*]

/- Machine/Egress.lean. -/

theorem execEgressSelect_within {l : List Part} {t : State} {dt port iface} (hFwd : Part.fwd ∈ l) (hEgress : Part.egress ∈ l) (hTime : Part.time ∈ l) (hPorts : Part.ports ∈ l) (hEvents : Part.events ∈ l) :
    NextWithin l (t.advance dt) (execEgressSelect dt port iface t) := by
  simp only [execEgressSelect]
  repeat' split
  all_goals simp [*]

theorem execLaunchWindowOpen_within {l : List Part} {t : State} {dt timer} (hEgress : Part.egress ∈ l) (hEvents : Part.events ∈ l) :
    NextWithin l (t.advance dt) (execLaunchWindowOpen dt timer t) := by
  simp only [execLaunchWindowOpen]
  repeat' split
  all_goals simp [*]

theorem execQueueSample_within {l : List Part} {t : State} {dt pkg} (hEgress : Part.egress ∈ l) (hEvents : Part.events ∈ l) :
    NextWithin l (t.advance dt) (execQueueSample dt pkg t) := by
  simp only [execQueueSample]
  repeat' split
  all_goals simp [*]

theorem execTransmitComplete_within {l : List Part} {t : State} {dt port iface} (hEgress : Part.egress ∈ l) (hPorts : Part.ports ∈ l) :
    NextWithin l (t.advance dt) (execTransmitComplete dt port iface t) := by
  simp only [execTransmitComplete]
  repeat' split
  all_goals simp [*]

/- Machine/VideoDecode.lean. -/

theorem execAuAbandon_within {l : List Part} {t : State} {dt stream} (hEscs : Part.escs ∈ l) (hPools : Part.pools ∈ l) (hVideo : Part.video ∈ l) (hEvents : Part.events ∈ l) :
    NextWithin l (t.advance dt) (execAuAbandon dt stream t) := by
  simp only [execAuAbandon]
  repeat' split
  all_goals simp [*]

theorem execDecodeTask_within {l : List Part} {t : State} {dt die inst haps} (hEscs : Part.escs ∈ l) (hPools : Part.pools ∈ l) (hVideo : Part.video ∈ l) (hMem : Part.mem ∈ l) (hEvents : Part.events ∈ l) :
    NextWithin l (t.advance dt) (execDecodeTask dt die inst haps t) := by
  simp only [execDecodeTask]
  repeat' split
  all_goals simp [*]

/- Machine/VideoCompose.lean. -/

/-- The row's frame beyond the staged changes that it takes. -/
theorem execComposeTask_scoped {l : List Part} {t : State} {dt die inst haps poison id} {i : Inst} (hEscs : Part.escs ∈ l) (hPools : Part.pools ∈ l) (hVideo : Part.video ∈ l) (hMem : Part.mem ∈ l) (hEvents : Part.events ∈ l)
    (hd : (t.advance dt).dieUp die = true) (hi : (t.advance dt).inService die inst = some i) (ho : i.desc.op = .compose id) :
    NextWithin l ((((t.advance dt).haps haps).forOutput id i.beat).takeScoped (.composition id) i.beat) (execComposeTask dt die inst haps poison t) := by
  simp only [execComposeTask, hd, hi, ho, Bool.not_true, Bool.false_eq_true, ↓reduceIte, State.forOutput, State.onOutput]
  split <;> simp [State.composeDone_scoped, *]

theorem execComposeTask_within {l : List Part} {t : State} {dt die inst haps poison} (hNow : Part.now ∈ l) (hStaged : Part.staged ∈ l) (hClaims : Part.claims ∈ l) (hVcp : Part.vcp ∈ l) (hRole : Part.role ∈ l) (hEscs : Part.escs ∈ l) (hPools : Part.pools ∈ l) (hFwd : Part.fwd ∈ l) (hCipher : Part.cipher ∈ l) (hEgress : Part.egress ∈ l) (hVideo : Part.video ∈ l) (hAudio : Part.audio ∈ l) (hTime : Part.time ∈ l) (hMem : Part.mem ∈ l) (hPorts : Part.ports ∈ l) (hEvents : Part.events ∈ l) (hStart : Part.start ∈ l) (hPower : Part.power ∈ l) :
    NextWithin l (t.advance dt) (execComposeTask dt die inst haps poison t) := by
  simp only [execComposeTask]
  repeat' split
  all_goals simp [*]

theorem execGraphicCopy_within {l : List Part} {t : State} {dt surface} (hVideo : Part.video ∈ l) :
    NextWithin l (t.advance dt) (execGraphicCopy dt surface t) := by
  simp only [execGraphicCopy]
  repeat' split
  all_goals simp [*]

/- Machine/VideoEncode.lean. -/

/-- The row's frame beyond the staged changes that it takes. -/
theorem execEncodeTask_scoped {l : List Part} {t : State} {dt die inst haps poison id k} {i : Inst} (hEscs : Part.escs ∈ l) (hPools : Part.pools ∈ l) (hFwd : Part.fwd ∈ l) (hCipher : Part.cipher ∈ l) (hEgress : Part.egress ∈ l) (hVideo : Part.video ∈ l) (hMem : Part.mem ∈ l) (hEvents : Part.events ∈ l)
    (hd : (t.advance dt).dieUp die = true) (hi : (t.advance dt).inService die inst = some i) (ho : i.desc.op = .encode id k) :
    NextWithin l ((((t.advance dt).haps haps).forEncode id i.beat).takeScoped (.encoding id) i.beat) (execEncodeTask dt die inst haps poison t) := by
  simp only [execEncodeTask, hd, hi, ho, Bool.not_true, Bool.false_eq_true, ↓reduceIte, State.forEncode, State.onEncode]
  split <;> simp [State.encodeDone_scoped, *]

theorem execEncodeTask_within {l : List Part} {t : State} {dt die inst haps poison} (hNow : Part.now ∈ l) (hStaged : Part.staged ∈ l) (hClaims : Part.claims ∈ l) (hVcp : Part.vcp ∈ l) (hRole : Part.role ∈ l) (hEscs : Part.escs ∈ l) (hPools : Part.pools ∈ l) (hFwd : Part.fwd ∈ l) (hCipher : Part.cipher ∈ l) (hEgress : Part.egress ∈ l) (hVideo : Part.video ∈ l) (hAudio : Part.audio ∈ l) (hTime : Part.time ∈ l) (hMem : Part.mem ∈ l) (hPorts : Part.ports ∈ l) (hEvents : Part.events ∈ l) (hStart : Part.start ∈ l) (hPower : Part.power ∈ l) :
    NextWithin l (t.advance dt) (execEncodeTask dt die inst haps poison t) := by
  simp only [execEncodeTask]
  repeat' split
  all_goals simp [*]

theorem execGangFinish_within {l : List Part} {t : State} {dt die inst haps poison} (hEscs : Part.escs ∈ l) (hPools : Part.pools ∈ l) (hFwd : Part.fwd ∈ l) (hCipher : Part.cipher ∈ l) (hEgress : Part.egress ∈ l) (hVideo : Part.video ∈ l) (hMem : Part.mem ∈ l) (hEvents : Part.events ∈ l) :
    NextWithin l (t.advance dt) (execGangFinish dt die inst haps poison t) := by
  simp only [execGangFinish]
  repeat' split
  all_goals simp [*]

/- Machine/Sched.lean. -/

theorem execBeatTrigger_within {l : List Part} {t : State} {dt die kind rate} (hPools : Part.pools ∈ l) (hVideo : Part.video ∈ l) :
    NextWithin l (t.advance dt) (execBeatTrigger dt die kind rate t) := by
  simp only [execBeatTrigger]
  repeat' split
  all_goals simp [*]

theorem execEscapementResume_within {l : List Part} {t : State} {dt cluster} (hEscs : Part.escs ∈ l) (hPools : Part.pools ∈ l) (hVideo : Part.video ∈ l) (hEvents : Part.events ∈ l) :
    NextWithin l (t.advance dt) (execEscapementResume dt cluster t) := by
  simp only [execEscapementResume]
  repeat' split
  all_goals simp [*]

theorem execEscapementWalk_within {l : List Part} {t : State} {dt cluster} (hEscs : Part.escs ∈ l) (hPools : Part.pools ∈ l) (hVideo : Part.video ∈ l) (hEvents : Part.events ∈ l) :
    NextWithin l (t.advance dt) (execEscapementWalk dt cluster t) := by
  simp only [execEscapementWalk]
  repeat' split
  all_goals simp [*]

theorem execTaskExpired_within {l : List Part} {t : State} {dt die inst} (hEscs : Part.escs ∈ l) (hPools : Part.pools ∈ l) (hVideo : Part.video ∈ l) (hEvents : Part.events ∈ l) :
    NextWithin l (t.advance dt) (execTaskExpired dt die inst t) := by
  simp only [execTaskExpired]
  repeat' split
  all_goals simp [*]

theorem execTaskStart_within {l : List Part} {t : State} {dt die inst} (hEscs : Part.escs ∈ l) (hPools : Part.pools ∈ l) (hVideo : Part.video ∈ l) (hEvents : Part.events ∈ l) :
    NextWithin l (t.advance dt) (execTaskStart dt die inst t) := by
  simp only [execTaskStart]
  repeat' split
  all_goals simp [*]

theorem execTestWindow_within {l : List Part} {t : State} {dt die inst} (hEscs : Part.escs ∈ l) (hPools : Part.pools ∈ l) (hVideo : Part.video ∈ l) (hMem : Part.mem ∈ l) (hEvents : Part.events ∈ l) (hStart : Part.start ∈ l) :
    NextWithin l (t.advance dt) (execTestWindow dt die inst t) := by
  simp only [execTestWindow]
  repeat' split
  all_goals simp [*]

theorem execTriggerWord_within {l : List Part} {t : State} {dt die kind rate index haps} (hPools : Part.pools ∈ l) (hMem : Part.mem ∈ l) (hEvents : Part.events ∈ l) :
    NextWithin l (t.advance dt) (execTriggerWord dt die kind rate index haps t) := by
  simp only [execTriggerWord]
  repeat' split
  all_goals simp [*]

/- Machine/Audio.lean. -/

/-- The row's frame beyond the staged changes that it takes. -/
theorem execReceiveTask_scoped {l : List Part} {t : State} {dt die inst haps id} {i : Inst} (hEscs : Part.escs ∈ l) (hPools : Part.pools ∈ l) (hVideo : Part.video ∈ l) (hAudio : Part.audio ∈ l) (hMem : Part.mem ∈ l) (hEvents : Part.events ∈ l)
    (hd : (t.advance dt).dieUp die = true) (hi : (t.advance dt).inService die inst = some i) (ho : i.desc.op = .receive id) (hx : (t.advance dt).xAlone (legUnit id) = false) :
    NextWithin l (((t.advance dt).haps haps).takeScoped (.audioTask id) i.beat) (execReceiveTask dt die inst haps t) := by
  simp only [execReceiveTask, hx, hd, hi, ho, Bool.not_true, Bool.false_eq_true, ↓reduceIte]
  repeat' split
  all_goals simp [*]

theorem execReceiveTask_within {l : List Part} {t : State} {dt die inst haps} (hNow : Part.now ∈ l) (hStaged : Part.staged ∈ l) (hClaims : Part.claims ∈ l) (hVcp : Part.vcp ∈ l) (hRole : Part.role ∈ l) (hEscs : Part.escs ∈ l) (hPools : Part.pools ∈ l) (hFwd : Part.fwd ∈ l) (hCipher : Part.cipher ∈ l) (hEgress : Part.egress ∈ l) (hVideo : Part.video ∈ l) (hAudio : Part.audio ∈ l) (hTime : Part.time ∈ l) (hMem : Part.mem ∈ l) (hPorts : Part.ports ∈ l) (hEvents : Part.events ∈ l) (hStart : Part.start ∈ l) (hPower : Part.power ∈ l) :
    NextWithin l (t.advance dt) (execReceiveTask dt die inst haps t) := by
  simp only [execReceiveTask]
  repeat' split
  all_goals simp [*]

/-- The row's frame beyond the staged changes that it takes. -/
theorem execSendTask_scoped {l : List Part} {t : State} {dt die inst haps poison id} {i : Inst} (hEscs : Part.escs ∈ l) (hPools : Part.pools ∈ l) (hFwd : Part.fwd ∈ l) (hCipher : Part.cipher ∈ l) (hEgress : Part.egress ∈ l) (hVideo : Part.video ∈ l) (hAudio : Part.audio ∈ l) (hMem : Part.mem ∈ l) (hEvents : Part.events ∈ l)
    (hd : (t.advance dt).dieUp die = true) (hi : (t.advance dt).inService die inst = some i) (ho : i.desc.op = .send id) (hx : (t.advance dt).xAlone (legUnit id) = false) :
    NextWithin l (((t.advance dt).haps haps).takeScoped (.audioTask id) i.beat) (execSendTask dt die inst haps poison t) := by
  simp only [execSendTask, hx, hd, hi, ho, Bool.not_true, Bool.false_eq_true, ↓reduceIte]
  repeat' split
  all_goals simp [*]

theorem execSendTask_within {l : List Part} {t : State} {dt die inst haps poison} (hNow : Part.now ∈ l) (hStaged : Part.staged ∈ l) (hClaims : Part.claims ∈ l) (hVcp : Part.vcp ∈ l) (hRole : Part.role ∈ l) (hEscs : Part.escs ∈ l) (hPools : Part.pools ∈ l) (hFwd : Part.fwd ∈ l) (hCipher : Part.cipher ∈ l) (hEgress : Part.egress ∈ l) (hVideo : Part.video ∈ l) (hAudio : Part.audio ∈ l) (hTime : Part.time ∈ l) (hMem : Part.mem ∈ l) (hPorts : Part.ports ∈ l) (hEvents : Part.events ∈ l) (hStart : Part.start ∈ l) (hPower : Part.power ∈ l) :
    NextWithin l (t.advance dt) (execSendTask dt die inst haps poison t) := by
  simp only [execSendTask]
  repeat' split
  all_goals simp [*]

/- Machine/Packet.lean. -/

theorem execExpressPacket_within {l : List Part} {t : State} {p} (hFwd : Part.fwd ∈ l) (hCipher : Part.cipher ∈ l) (hEgress : Part.egress ∈ l) (hMem : Part.mem ∈ l) (hEvents : Part.events ∈ l) :
    NextWithin l (t.advance p.dt) (execExpressPacket p t) := by
  simp only [execExpressPacket]
  repeat' split
  all_goals simp [*]

theorem execIngressFrameEnd_within {l : List Part} {t : State} {dt cut} (hFwd : Part.fwd ∈ l) (hEgress : Part.egress ∈ l) (hEvents : Part.events ∈ l) :
    NextWithin l (t.advance dt) (execIngressFrameEnd dt cut t) := by
  simp only [execIngressFrameEnd]
  repeat' split
  all_goals simp [*]

theorem execRtcpPacket_within {l : List Part} {t : State} {f} (hFwd : Part.fwd ∈ l) (hCipher : Part.cipher ∈ l) (hEgress : Part.egress ∈ l) (hVideo : Part.video ∈ l) (hMem : Part.mem ∈ l) (hPorts : Part.ports ∈ l) (hEvents : Part.events ∈ l) :
    NextWithin l (t.advance f.dt) (execRtcpPacket f t) := by
  simp only [execRtcpPacket]
  repeat' split
  all_goals simp [*]

theorem execRtpPacket_within {l : List Part} {t : State} {p} (hEscs : Part.escs ∈ l) (hPools : Part.pools ∈ l) (hFwd : Part.fwd ∈ l) (hCipher : Part.cipher ∈ l) (hEgress : Part.egress ∈ l) (hVideo : Part.video ∈ l) (hAudio : Part.audio ∈ l) (hMem : Part.mem ∈ l) (hEvents : Part.events ∈ l) :
    NextWithin l (t.advance p.dt) (execRtpPacket p t) := by
  simp only [execRtpPacket]
  repeat' split
  all_goals simp [*]

theorem execTagVerdict_within {l : List Part} {t : State} {dt cut} (hEscs : Part.escs ∈ l) (hPools : Part.pools ∈ l) (hFwd : Part.fwd ∈ l) (hEgress : Part.egress ∈ l) (hVideo : Part.video ∈ l) (hAudio : Part.audio ∈ l) (hEvents : Part.events ∈ l) :
    NextWithin l (t.advance dt) (execTagVerdict dt cut t) := by
  simp only [execTagVerdict]
  repeat' split
  all_goals simp [*]

/- Machine/Cipher.lean. -/

theorem execKeyAutoRoll_within {l : List Part} {t : State} {dt key} (hFwd : Part.fwd ∈ l) (hCipher : Part.cipher ∈ l) :
    NextWithin l (t.advance dt) (execKeyAutoRoll dt key t) := by
  simp only [execKeyAutoRoll, applyAll, List.foldl_map, applyChange]
  repeat' split
  all_goals simp [*]

theorem execMigrationSegment_within {l : List Part} {t : State} {f} (hCipher : Part.cipher ∈ l) (hEvents : Part.events ∈ l) :
    NextWithin l (t.advance f.dt) (execMigrationSegment f t) := by
  simp only [execMigrationSegment]
  repeat' split
  all_goals simp [*]

theorem execSealComplete_within {l : List Part} {t : State} {dt pkg} (hCipher : Part.cipher ∈ l) (hEvents : Part.events ∈ l) :
    NextWithin l (t.advance dt) (execSealComplete dt pkg t) := by
  simp only [execSealComplete]
  repeat' split
  all_goals simp [*]

theorem execSegmentSend_within {l : List Part} {t : State} {dt pkg} (hCipher : Part.cipher ∈ l) (hEgress : Part.egress ∈ l) (hEvents : Part.events ∈ l) :
    NextWithin l (t.advance dt) (execSegmentSend dt pkg t) := by
  simp only [execSegmentSend]
  repeat' split
  all_goals simp [*]

/- Machine/Crosspoint.lean. -/

/-- The row's frame beyond the staged changes that it takes. -/
theorem execMix_scoped {l : List Part} {t : State} {dt die inst haps poison transit} {i : Inst} (hEscs : Part.escs ∈ l) (hPools : Part.pools ∈ l) (hVideo : Part.video ∈ l) (hAudio : Part.audio ∈ l) (hMem : Part.mem ∈ l) (hEvents : Part.events ∈ l)
    (hd : (t.advance dt).dieUp die = true) (hi : (t.advance dt).inService die inst = some i) (ho : i.desc.op = .mix) :
    NextWithin l (((t.advance dt).haps haps).takeScoped (.mixing die) i.beat) (execMix dt die inst haps poison transit t) := by
  simp only [execMix, hd, hi, ho, Bool.not_true, Bool.false_eq_true, ↓reduceIte]
  simp [State.mixBeat_scoped, *]

theorem execMix_within {l : List Part} {t : State} {dt die inst haps poison transit} (hNow : Part.now ∈ l) (hStaged : Part.staged ∈ l) (hClaims : Part.claims ∈ l) (hVcp : Part.vcp ∈ l) (hRole : Part.role ∈ l) (hEscs : Part.escs ∈ l) (hPools : Part.pools ∈ l) (hFwd : Part.fwd ∈ l) (hCipher : Part.cipher ∈ l) (hEgress : Part.egress ∈ l) (hVideo : Part.video ∈ l) (hAudio : Part.audio ∈ l) (hTime : Part.time ∈ l) (hMem : Part.mem ∈ l) (hPorts : Part.ports ∈ l) (hEvents : Part.events ∈ l) (hStart : Part.start ∈ l) (hPower : Part.power ∈ l) :
    NextWithin l (t.advance dt) (execMix dt die inst haps poison transit t) := by
  simp only [execMix]
  repeat' split
  all_goals simp [*]

theorem execTalkerSelection_within {l : List Part} {t : State} {dt die} (hAudio : Part.audio ∈ l) (hEvents : Part.events ∈ l) :
    NextWithin l (t.advance dt) (execTalkerSelection dt die t) := by
  simp only [execTalkerSelection]
  repeat' split
  all_goals simp [*]

/- Machine/Event.lean. -/

theorem execEventArrival_within {l : List Part} {t : State} {dt index haps} (hMem : Part.mem ∈ l) (hEvents : Part.events ∈ l) :
    NextWithin l (t.advance dt) (execEventArrival dt index haps t) := by
  simp only [execEventArrival]
  repeat' split
  all_goals simp [*]

theorem execEventPacketSend_within {l : List Part} {t : State} {dt sub kind} (hVcp : Part.vcp ∈ l) (hEgress : Part.egress ∈ l) (hPorts : Part.ports ∈ l) (hEvents : Part.events ∈ l) :
    NextWithin l (t.advance dt) (execEventPacketSend dt sub kind t) := by
  simp only [execEventPacketSend]
  repeat' split
  all_goals simp [*]

theorem execEventRelease_within {l : List Part} {t : State} {dt} (hEvents : Part.events ∈ l) :
    NextWithin l (t.advance dt) (execEventRelease dt t) := by
  simp only [execEventRelease]
  repeat' split
  all_goals simp [*]

/- Machine/Mem.lean. -/

theorem execBeatAudit_within {l : List Part} {t : State} {dt die leaks} (hMem : Part.mem ∈ l) (hEvents : Part.events ∈ l) :
    NextWithin l (t.advance dt) (execBeatAudit dt die leaks t) := by
  simp only [execBeatAudit]
  repeat' split
  all_goals simp [*]

theorem execHbmScrub_within {l : List Part} {t : State} {dt stack pch found} (hMem : Part.mem ∈ l) (hEvents : Part.events ∈ l) :
    NextWithin l (t.advance dt) (execHbmScrub dt stack pch found t) := by
  simp only [execHbmScrub]
  repeat' split
  all_goals simp [*]

theorem execRefreshDue_within {l : List Part} {t : State} {dt stack pch issued reqs} (hMem : Part.mem ∈ l) :
    NextWithin l (t.advance dt) (execRefreshDue dt stack pch issued reqs t) := by
  simp only [execRefreshDue]
  repeat' split
  all_goals simp [*]

theorem execTemperatureReading_within {l : List Part} {t : State} {dt stack t_} (hMem : Part.mem ∈ l) (hEvents : Part.events ∈ l) :
    NextWithin l (t.advance dt) (execTemperatureReading dt stack t_ t) := by
  simp only [execTemperatureReading]
  repeat' split
  all_goals simp [*]

/- Machine/Port.lean. -/

theorem execAlignmentLoss_within {l : List Part} {t : State} {dt port iface cause lost} (hTime : Part.time ∈ l) (hPorts : Part.ports ∈ l) (hEvents : Part.events ∈ l) :
    NextWithin l (t.advance dt) (execAlignmentLoss dt port iface cause lost t) := by
  simp only [execAlignmentLoss]
  repeat' split
  all_goals simp [*]

theorem execBringupRetry_within {l : List Part} {t : State} {dt port iface} (hPorts : Part.ports ∈ l) :
    NextWithin l (t.advance dt) (execBringupRetry dt port iface t) := by
  simp only [execBringupRetry]
  repeat' split
  all_goals simp [*]

theorem execBringupStageComplete_within {l : List Part} {t : State} {dt port iface mode limits} (hTime : Part.time ∈ l) (hPorts : Part.ports ∈ l) (hEvents : Part.events ∈ l) :
    NextWithin l (t.advance dt) (execBringupStageComplete dt port iface mode limits t) := by
  simp only [execBringupStageComplete]
  repeat' split
  all_goals simp [*]

theorem execBringupStageTimeout_within {l : List Part} {t : State} {dt port iface} (hPorts : Part.ports ∈ l) (hEvents : Part.events ∈ l) :
    NextWithin l (t.advance dt) (execBringupStageTimeout dt port iface t) := by
  simp only [execBringupStageTimeout]
  repeat' split
  all_goals simp [*]

theorem execCmisPoll_within {l : List Part} {t : State} {dt port moduleState activated flags temperature status} (hTime : Part.time ∈ l) (hPorts : Part.ports ∈ l) (hEvents : Part.events ∈ l) :
    NextWithin l (t.advance dt) (execCmisPoll dt port moduleState activated flags temperature status t) := by
  simp only [execCmisPoll]
  repeat' split
  all_goals simp [*]

theorem execDfeTapLimit_within {l : List Part} {t : State} {dt port lane tap} (hEvents : Part.events ∈ l) :
    NextWithin l (t.advance dt) (execDfeTapLimit dt port lane tap t) := by
  simp only [execDfeTapLimit]
  repeat' split
  all_goals simp [*]

theorem execDownHoldEnd_within {l : List Part} {t : State} {dt port iface} (hTime : Part.time ∈ l) (hPorts : Part.ports ∈ l) (hEvents : Part.events ∈ l) :
    NextWithin l (t.advance dt) (execDownHoldEnd dt port iface t) := by
  simp only [execDownHoldEnd]
  repeat' split
  all_goals simp [*]

theorem execFecWindow_within {l : List Part} {t : State} {dt port iface estimate corrected uncorrectable} (hPorts : Part.ports ∈ l) (hEvents : Part.events ∈ l) :
    NextWithin l (t.advance dt) (execFecWindow dt port iface estimate corrected uncorrectable t) := by
  simp only [execFecWindow]
  repeat' split
  all_goals simp [*]

theorem execIplReplay_within {l : List Part} {t : State} {dt dir} (hPorts : Part.ports ∈ l) (hEvents : Part.events ∈ l) :
    NextWithin l (t.advance dt) (execIplReplay dt dir t) := by
  simp only [execIplReplay]
  repeat' split
  all_goals simp [*]

theorem execLaneFailure_within {l : List Part} {t : State} {dt dir lane cause errors} (hPorts : Part.ports ∈ l) (hEvents : Part.events ∈ l) :
    NextWithin l (t.advance dt) (execLaneFailure dt dir lane cause errors t) := by
  simp only [execLaneFailure]
  repeat' split
  all_goals simp [hPorts, hEvents]

theorem execOpticsInserted_within {l : List Part} {t : State} {dt port media modes advertisedMs highWarning} (hPorts : Part.ports ∈ l) (hEvents : Part.events ∈ l) :
    NextWithin l (t.advance dt) (execOpticsInserted dt port media modes advertisedMs highWarning t) := by
  simp only [execOpticsInserted]
  repeat' split
  all_goals simp [*]

theorem execOpticsRemoved_within {l : List Part} {t : State} {dt port} (hTime : Part.time ∈ l) (hPorts : Part.ports ∈ l) (hEvents : Part.events ∈ l) :
    NextWithin l (t.advance dt) (execOpticsRemoved dt port t) := by
  simp only [execOpticsRemoved]
  repeat' split
  all_goals simp [*]

theorem execUpHoldEnd_within {l : List Part} {t : State} {dt port iface} (hTime : Part.time ∈ l) (hPorts : Part.ports ∈ l) (hEvents : Part.events ∈ l) :
    NextWithin l (t.advance dt) (execUpHoldEnd dt port iface t) := by
  simp only [execUpHoldEnd]
  repeat' split
  all_goals simp [*]

/- Machine/Time.lean. -/

theorem execAnnounceTimeout_within {l : List Part} {t : State} {dt port} (hTime : Part.time ∈ l) (hEvents : Part.events ∈ l) :
    NextWithin l (t.advance dt) (execAnnounceTimeout dt port t) := by
  simp only [execAnnounceTimeout]
  repeat' split
  all_goals simp [*]

theorem execCounterCompare_within {l : List Part} {t : State} {dt err} (hTime : Part.time ∈ l) :
    NextWithin l (t.advance dt) (execCounterCompare dt err t) := by
  simp only [execCounterCompare]
  repeat' split
  all_goals simp [*]

theorem execHoldoverExpired_within {l : List Part} {t : State} {dt} (hTime : Part.time ∈ l) (hEvents : Part.events ∈ l) :
    NextWithin l (t.advance dt) (execHoldoverExpired dt t) := by
  simp only [execHoldoverExpired]
  repeat' split
  all_goals simp [*]

theorem execOcxoAlarm_within {l : List Part} {t : State} {dt on} (hTime : Part.time ∈ l) (hEvents : Part.events ∈ l) :
    NextWithin l (t.advance dt) (execOcxoAlarm dt on t) := by
  simp only [execOcxoAlarm]
  repeat' split
  all_goals simp [*]

theorem execOcxoStable_within {l : List Part} {t : State} {dt} (hTime : Part.time ∈ l) (hEvents : Part.events ∈ l) :
    NextWithin l (t.advance dt) (execOcxoStable dt t) := by
  simp only [execOcxoStable]
  repeat' split
  all_goals simp [*]

theorem execOneShot_within {l : List Part} {t : State} {dt} (hTime : Part.time ∈ l) (hEvents : Part.events ∈ l) :
    NextWithin l (t.advance dt) (execOneShot dt t) := by
  simp only [execOneShot]
  repeat' split
  all_goals simp [*]

theorem execPtpAnnounceReceived_within {l : List Part} {t : State} {x} (hEgress : Part.egress ∈ l) (hTime : Part.time ∈ l) (hMem : Part.mem ∈ l) (hPorts : Part.ports ∈ l) (hEvents : Part.events ∈ l) :
    NextWithin l (t.advance x.dt) (execPtpAnnounceReceived x t) := by
  simp only [execPtpAnnounceReceived]
  have hw := State.takePtp_within (l := l) (s := t.advance x.dt) (t := t.advance x.dt) (a1 := x) hEgress hTime hMem hPorts hEvents
  generalize State.takePtp (t.advance x.dt) x = q at hw ⊢
  obtain ⟨u, b⟩ := q
  cases b <;> (repeat' split) <;> simp_all

theorem execPtpAnnounceSend_within {l : List Part} {t : State} {dt port} (hEgress : Part.egress ∈ l) (hTime : Part.time ∈ l) (hPorts : Part.ports ∈ l) :
    NextWithin l (t.advance dt) (execPtpAnnounceSend dt port t) := by
  simp only [execPtpAnnounceSend]
  repeat' split
  all_goals simp [*]

theorem execPtpDelayReqReceived_within {l : List Part} {t : State} {x} (hEgress : Part.egress ∈ l) (hTime : Part.time ∈ l) (hMem : Part.mem ∈ l) (hPorts : Part.ports ∈ l) (hEvents : Part.events ∈ l) :
    NextWithin l (t.advance x.dt) (execPtpDelayReqReceived x t) := by
  simp only [execPtpDelayReqReceived]
  have hw := State.takePtp_within (l := l) (s := t.advance x.dt) (t := t.advance x.dt) (a1 := x) hEgress hTime hMem hPorts hEvents
  generalize State.takePtp (t.advance x.dt) x = q at hw ⊢
  obtain ⟨u, b⟩ := q
  cases b <;> (repeat' split) <;> simp_all

theorem execPtpDelayReqSend_within {l : List Part} {t : State} {dt port} (hEgress : Part.egress ∈ l) (hTime : Part.time ∈ l) (hPorts : Part.ports ∈ l) :
    NextWithin l (t.advance dt) (execPtpDelayReqSend dt port t) := by
  simp only [execPtpDelayReqSend]
  repeat' split
  all_goals simp [*]

theorem execPtpDelayRespReceived_within {l : List Part} {t : State} {x} (hEgress : Part.egress ∈ l) (hTime : Part.time ∈ l) (hMem : Part.mem ∈ l) (hPorts : Part.ports ∈ l) (hEvents : Part.events ∈ l) :
    NextWithin l (t.advance x.dt) (execPtpDelayRespReceived x t) := by
  simp only [execPtpDelayRespReceived]
  have hw := State.takePtp_within (l := l) (s := t.advance x.dt) (t := t.advance x.dt) (a1 := x) hEgress hTime hMem hPorts hEvents
  generalize State.takePtp (t.advance x.dt) x = q at hw ⊢
  obtain ⟨u, b⟩ := q
  cases b <;> (repeat' split) <;> simp_all

theorem execPtpSyncReceived_within {l : List Part} {t : State} {x} (hEgress : Part.egress ∈ l) (hTime : Part.time ∈ l) (hMem : Part.mem ∈ l) (hPorts : Part.ports ∈ l) (hEvents : Part.events ∈ l) :
    NextWithin l (t.advance x.dt) (execPtpSyncReceived x t) := by
  simp only [execPtpSyncReceived]
  have hw := State.takePtp_within (l := l) (s := t.advance x.dt) (t := t.advance x.dt) (a1 := x) hEgress hTime hMem hPorts hEvents
  generalize State.takePtp (t.advance x.dt) x = q at hw ⊢
  obtain ⟨u, b⟩ := q
  cases b <;> (repeat' split) <;> simp_all

theorem execPtpSyncSend_within {l : List Part} {t : State} {dt port} (hEgress : Part.egress ∈ l) (hTime : Part.time ∈ l) (hPorts : Part.ports ∈ l) :
    NextWithin l (t.advance dt) (execPtpSyncSend dt port t) := by
  simp only [execPtpSyncSend]
  repeat' split
  all_goals simp [*]

theorem execRegulatorUpdate_within {l : List Part} {t : State} {dt} (hNow : Part.now ∈ l) (hVcp : Part.vcp ∈ l) (hRole : Part.role ∈ l) (hEscs : Part.escs ∈ l) (hPools : Part.pools ∈ l) (hEgress : Part.egress ∈ l) (hTime : Part.time ∈ l) (hMem : Part.mem ∈ l) (hPorts : Part.ports ∈ l) (hEvents : Part.events ∈ l) (hStart : Part.start ∈ l) (hPower : Part.power ∈ l) :
    NextWithin l (t.advance dt) (execRegulatorUpdate dt t) := by
  simp only [execRegulatorUpdate]
  repeat' split
  all_goals simp [*]

theorem execReplicaCheck_within {l : List Part} {t : State} {dt die err} (hPools : Part.pools ∈ l) (hEvents : Part.events ∈ l) :
    NextWithin l (t.advance dt) (execReplicaCheck dt die err t) := by
  simp only [execReplicaCheck]
  repeat' split
  all_goals simp [*]

theorem execSourceTimeout_within {l : List Part} {t : State} {dt} (hTime : Part.time ∈ l) (hEvents : Part.events ∈ l) :
    NextWithin l (t.advance dt) (execSourceTimeout dt t) := by
  simp only [execSourceTimeout]
  repeat' split
  all_goals simp [*]

theorem execTimeInAverage_within {l : List Part} {t : State} {dt edges} (hTime : Part.time ∈ l) (hEvents : Part.events ∈ l) :
    NextWithin l (t.advance dt) (execTimeInAverage dt edges t) := by
  simp only [execTimeInAverage]
  repeat' split
  all_goals simp [*]

theorem execTimeInEdge_within {l : List Part} {t : State} {dt stamp} (hTime : Part.time ∈ l) (hEvents : Part.events ∈ l) :
    NextWithin l (t.advance dt) (execTimeInEdge dt stamp t) := by
  simp only [execTimeInEdge]
  repeat' split
  all_goals simp [*]

theorem execTimeInLost_within {l : List Part} {t : State} {dt amplitudeFailed} (hTime : Part.time ∈ l) (hEvents : Part.events ∈ l) :
    NextWithin l (t.advance dt) (execTimeInLost dt amplitudeFailed t) := by
  simp only [execTimeInLost]
  repeat' split
  all_goals simp [*]

theorem execTimeOutEdge_within {l : List Part} {t : State} {dt} (hTime : Part.time ∈ l) :
    NextWithin l (t.advance dt) (execTimeOutEdge dt t) := by
  simp only [execTimeOutEdge]
  repeat' split
  all_goals simp [*]

theorem execUnicastGrantExpiry_within {l : List Part} {t : State} {dt port id} (hEgress : Part.egress ∈ l) (hTime : Part.time ∈ l) (hPorts : Part.ports ∈ l) :
    NextWithin l (t.advance dt) (execUnicastGrantExpiry dt port id t) := by
  simp only [execUnicastGrantExpiry]
  repeat' split
  all_goals simp [*]

theorem execUnicastNegotiation_within {l : List Part} {t : State} {x} (hEgress : Part.egress ∈ l) (hTime : Part.time ∈ l) (hMem : Part.mem ∈ l) (hPorts : Part.ports ∈ l) (hEvents : Part.events ∈ l) :
    NextWithin l (t.advance x.dt) (execUnicastNegotiation x t) := by
  simp only [execUnicastNegotiation]
  have hw := State.takePtp_within (l := l) (s := t.advance x.dt) (t := t.advance x.dt) (a1 := x) hEgress hTime hMem hPorts hEvents
  generalize State.takePtp (t.advance x.dt) x = q at hw ⊢
  obtain ⟨u, b⟩ := q
  have hf : Within l (t.advance x.dt) (x.tlvs.foldl (fun t v => t.negotiate x.port x.peer v.1 v.2.1 v.2.2) u) ↔ Within l (t.advance x.dt) u :=
    Within.foldl fun _ _ => by simp [*]
  cases b <;> (repeat' split) <;> simp_all

/- Machine/Start.lean. -/

theorem execBistSliceEnd_within {l : List Part} {t : State} {dt die target misr faults} (hClaims : Part.claims ∈ l) (hCipher : Part.cipher ∈ l) (hEvents : Part.events ∈ l) (hStart : Part.start ∈ l) :
    NextWithin l (t.advance dt) (execBistSliceEnd dt die target misr faults t) := by
  simp only [execBistSliceEnd]
  repeat' split
  all_goals simp [*]

theorem execBistSliceStart_within {l : List Part} {t : State} {dt die kind target} (hClaims : Part.claims ∈ l) (hCipher : Part.cipher ∈ l) (hStart : Part.start ∈ l) :
    NextWithin l (t.advance dt) (execBistSliceStart dt die kind target t) := by
  simp only [execBistSliceStart]
  repeat' split
  all_goals simp [*]

theorem execDieRecoveryComplete_within {l : List Part} {t : State} {dt die failed} (hEscs : Part.escs ∈ l) (hPools : Part.pools ∈ l) (hAudio : Part.audio ∈ l) (hMem : Part.mem ∈ l) (hEvents : Part.events ∈ l) (hStart : Part.start ∈ l) :
    NextWithin l (t.advance dt) (execDieRecoveryComplete dt die failed t) := by
  simp only [execDieRecoveryComplete]
  repeat' split
  all_goals simp [*]

theorem execDieToDieLinkFailure_within {l : List Part} {t : State} {dt die} (hClaims : Part.claims ∈ l) (hEscs : Part.escs ∈ l) (hPools : Part.pools ∈ l) (hCipher : Part.cipher ∈ l) (hEvents : Part.events ∈ l) (hStart : Part.start ∈ l) :
    NextWithin l (t.advance dt) (execDieToDieLinkFailure dt die t) := by
  simp only [execDieToDieLinkFailure]
  repeat' split
  all_goals simp [*]

theorem execJumper_within {l : List Part} {t : State} {dt fitted} (hEvents : Part.events ∈ l) (hStart : Part.start ∈ l) :
    NextWithin l (t.advance dt) (execJumper dt fitted t) := by
  simp only [execJumper]
  repeat' split
  all_goals simp [*]

theorem execMainsApplied_within {l : List Part} {t : State} {dt} (hNow : Part.now ∈ l) (hStaged : Part.staged ∈ l) (hClaims : Part.claims ∈ l) (hVcp : Part.vcp ∈ l) (hRole : Part.role ∈ l) (hEscs : Part.escs ∈ l) (hPools : Part.pools ∈ l) (hFwd : Part.fwd ∈ l) (hCipher : Part.cipher ∈ l) (hEgress : Part.egress ∈ l) (hVideo : Part.video ∈ l) (hAudio : Part.audio ∈ l) (hTime : Part.time ∈ l) (hMem : Part.mem ∈ l) (hPorts : Part.ports ∈ l) (hEvents : Part.events ∈ l) (hStart : Part.start ∈ l) (hPower : Part.power ∈ l) :
    NextWithin l (t.advance dt) (execMainsApplied dt t) := by
  simp only [execMainsApplied]
  repeat' split
  all_goals simp [*]

theorem execOnCommandTestComplete_within {l : List Part} {t : State} {dt die done failures sigOk restartOk} (hClaims : Part.claims ∈ l) (hEscs : Part.escs ∈ l) (hPools : Part.pools ∈ l) (hAudio : Part.audio ∈ l) (hMem : Part.mem ∈ l) (hEvents : Part.events ∈ l) (hStart : Part.start ∈ l) :
    NextWithin l (t.advance dt) (execOnCommandTestComplete dt die done failures sigOk restartOk t) := by
  simp only [execOnCommandTestComplete]
  repeat' split
  all_goals simp [*]

theorem execRestartDelay_within {l : List Part} {t : State} {dt} (hNow : Part.now ∈ l) (hStaged : Part.staged ∈ l) (hClaims : Part.claims ∈ l) (hVcp : Part.vcp ∈ l) (hRole : Part.role ∈ l) (hEscs : Part.escs ∈ l) (hPools : Part.pools ∈ l) (hFwd : Part.fwd ∈ l) (hCipher : Part.cipher ∈ l) (hEgress : Part.egress ∈ l) (hVideo : Part.video ∈ l) (hAudio : Part.audio ∈ l) (hTime : Part.time ∈ l) (hMem : Part.mem ∈ l) (hPorts : Part.ports ∈ l) (hEvents : Part.events ∈ l) (hStart : Part.start ∈ l) (hPower : Part.power ∈ l) :
    NextWithin l (t.advance dt) (execRestartDelay dt t) := by
  simp only [execRestartDelay]
  repeat' split
  all_goals simp [*]

theorem execSettingModeRetry_within {l : List Part} {t : State} {dt} (hNow : Part.now ∈ l) (hStaged : Part.staged ∈ l) (hClaims : Part.claims ∈ l) (hVcp : Part.vcp ∈ l) (hRole : Part.role ∈ l) (hEscs : Part.escs ∈ l) (hPools : Part.pools ∈ l) (hFwd : Part.fwd ∈ l) (hCipher : Part.cipher ∈ l) (hEgress : Part.egress ∈ l) (hVideo : Part.video ∈ l) (hAudio : Part.audio ∈ l) (hTime : Part.time ∈ l) (hMem : Part.mem ∈ l) (hPorts : Part.ports ∈ l) (hEvents : Part.events ∈ l) (hStart : Part.start ∈ l) (hPower : Part.power ∈ l) :
    NextWithin l (t.advance dt) (execSettingModeRetry dt t) := by
  simp only [execSettingModeRetry]
  repeat' split
  all_goals simp [*]

theorem execStartStageComplete_within {l : List Part} {t : State} {dt fails} (hStaged : Part.staged ∈ l) (hClaims : Part.claims ∈ l) (hVcp : Part.vcp ∈ l) (hRole : Part.role ∈ l) (hEscs : Part.escs ∈ l) (hPools : Part.pools ∈ l) (hFwd : Part.fwd ∈ l) (hCipher : Part.cipher ∈ l) (hEgress : Part.egress ∈ l) (hVideo : Part.video ∈ l) (hAudio : Part.audio ∈ l) (hTime : Part.time ∈ l) (hMem : Part.mem ∈ l) (hPorts : Part.ports ∈ l) (hEvents : Part.events ∈ l) (hStart : Part.start ∈ l) (hPower : Part.power ∈ l) :
    NextWithin l (t.advance dt) (execStartStageComplete dt fails t) := by
  simp only [execStartStageComplete]
  repeat' split
  all_goals simp [*]

theorem execStartStageTimeout_within {l : List Part} {t : State} {dt sites} (hStaged : Part.staged ∈ l) (hClaims : Part.claims ∈ l) (hVcp : Part.vcp ∈ l) (hRole : Part.role ∈ l) (hEscs : Part.escs ∈ l) (hPools : Part.pools ∈ l) (hFwd : Part.fwd ∈ l) (hCipher : Part.cipher ∈ l) (hEgress : Part.egress ∈ l) (hVideo : Part.video ∈ l) (hAudio : Part.audio ∈ l) (hTime : Part.time ∈ l) (hMem : Part.mem ∈ l) (hPorts : Part.ports ∈ l) (hEvents : Part.events ∈ l) (hStart : Part.start ∈ l) (hPower : Part.power ∈ l) :
    NextWithin l (t.advance dt) (execStartStageTimeout dt sites t) := by
  simp only [execStartStageTimeout]
  repeat' split
  all_goals simp [*]

/- Machine/Power.lean. -/

theorem execFanFailed_within {l : List Part} {t : State} {dt fan rpm} (hEvents : Part.events ∈ l) (hPower : Part.power ∈ l) :
    NextWithin l (t.advance dt) (execFanFailed dt fan rpm t) := by
  simp only [execFanFailed]
  repeat' split
  all_goals simp [*]

theorem execHoldUpExpiry_within {l : List Part} {t : State} {dt} (hStaged : Part.staged ∈ l) (hClaims : Part.claims ∈ l) (hVcp : Part.vcp ∈ l) (hRole : Part.role ∈ l) (hEscs : Part.escs ∈ l) (hPools : Part.pools ∈ l) (hFwd : Part.fwd ∈ l) (hCipher : Part.cipher ∈ l) (hEgress : Part.egress ∈ l) (hVideo : Part.video ∈ l) (hAudio : Part.audio ∈ l) (hTime : Part.time ∈ l) (hMem : Part.mem ∈ l) (hPorts : Part.ports ∈ l) (hEvents : Part.events ∈ l) (hStart : Part.start ∈ l) (hPower : Part.power ∈ l) :
    NextWithin l (t.advance dt) (execHoldUpExpiry dt t) := by
  simp only [execHoldUpExpiry]
  repeat' split
  all_goals simp [*]

theorem execMainsInterruption_within {l : List Part} {t : State} {dt} (hPower : Part.power ∈ l) :
    NextWithin l (t.advance dt) (execMainsInterruption dt t) := by
  simp only [execMainsInterruption]
  repeat' split
  all_goals simp [*]

theorem execMainsRestored_within {l : List Part} {t : State} {dt} (hStaged : Part.staged ∈ l) (hClaims : Part.claims ∈ l) (hVcp : Part.vcp ∈ l) (hRole : Part.role ∈ l) (hEscs : Part.escs ∈ l) (hPools : Part.pools ∈ l) (hFwd : Part.fwd ∈ l) (hCipher : Part.cipher ∈ l) (hEgress : Part.egress ∈ l) (hVideo : Part.video ∈ l) (hAudio : Part.audio ∈ l) (hTime : Part.time ∈ l) (hMem : Part.mem ∈ l) (hPorts : Part.ports ∈ l) (hEvents : Part.events ∈ l) (hStart : Part.start ∈ l) (hPower : Part.power ∈ l) :
    NextWithin l (t.advance dt) (execMainsRestored dt t) := by
  simp only [execMainsRestored]
  repeat' split
  all_goals simp [*]

theorem execPsuFault_within {l : List Part} {t : State} {dt output cause} (hEvents : Part.events ∈ l) (hPower : Part.power ∈ l) :
    NextWithin l (t.advance dt) (execPsuFault dt output cause t) := by
  simp only [execPsuFault]
  repeat' split
  all_goals simp [*]

theorem execPsuInput_within {l : List Part} {t : State} {dt state decivolts} (hEvents : Part.events ∈ l) (hPower : Part.power ∈ l) :
    NextWithin l (t.advance dt) (execPsuInput dt state decivolts t) := by
  simp only [execPsuInput]
  repeat' split
  all_goals simp [*]

theorem execStandbyRailDrop_within {l : List Part} {t : State} {dt} (hNow : Part.now ∈ l) (hStaged : Part.staged ∈ l) (hClaims : Part.claims ∈ l) (hVcp : Part.vcp ∈ l) (hRole : Part.role ∈ l) (hEscs : Part.escs ∈ l) (hPools : Part.pools ∈ l) (hFwd : Part.fwd ∈ l) (hCipher : Part.cipher ∈ l) (hEgress : Part.egress ∈ l) (hVideo : Part.video ∈ l) (hAudio : Part.audio ∈ l) (hTime : Part.time ∈ l) (hMem : Part.mem ∈ l) (hPorts : Part.ports ∈ l) (hEvents : Part.events ∈ l) (hStart : Part.start ∈ l) (hPower : Part.power ∈ l) :
    NextWithin l (t.advance dt) (execStandbyRailDrop dt t) := by
  simp only [execStandbyRailDrop]
  repeat' split
  all_goals simp [*]

theorem execThermalLoop_within {l : List Part} {t : State} {dt readings tachs} (hEvents : Part.events ∈ l) (hPower : Part.power ∈ l) :
    NextWithin l (t.advance dt) (execThermalLoop dt readings tachs t) := by
  simp only [execThermalLoop]
  repeat' split
  all_goals simp [*]

theorem execThermalStop_within {l : List Part} {t : State} {dt site} (hStaged : Part.staged ∈ l) (hClaims : Part.claims ∈ l) (hVcp : Part.vcp ∈ l) (hRole : Part.role ∈ l) (hEscs : Part.escs ∈ l) (hPools : Part.pools ∈ l) (hFwd : Part.fwd ∈ l) (hCipher : Part.cipher ∈ l) (hEgress : Part.egress ∈ l) (hVideo : Part.video ∈ l) (hAudio : Part.audio ∈ l) (hTime : Part.time ∈ l) (hMem : Part.mem ∈ l) (hPorts : Part.ports ∈ l) (hEvents : Part.events ∈ l) (hStart : Part.start ∈ l) (hPower : Part.power ∈ l) :
    NextWithin l (t.advance dt) (execThermalStop dt site t) := by
  simp only [execThermalStop]
  repeat' split
  all_goals simp [*]

/- Machine/Vcp.lean. -/

theorem execCachedReplyResend_within {l : List Part} {t : State} {p} (hVcp : Part.vcp ∈ l) (hEgress : Part.egress ∈ l) (hPorts : Part.ports ∈ l) :
    NextWithin l (t.advance p.dt) (execCachedReplyResend p t) := by
  simp only [execCachedReplyResend]
  repeat' split
  all_goals simp [*]

theorem execClientFinish_within {l : List Part} {t : State} {p} (hVcp : Part.vcp ∈ l) (hEgress : Part.egress ∈ l) (hPorts : Part.ports ∈ l) (hEvents : Part.events ∈ l) :
    NextWithin l (t.advance p.dt) (execClientFinish p t) := by
  simp only [execClientFinish]
  repeat' split
  all_goals simp [*]

theorem execClientHello_within {l : List Part} {t : State} {h} (hVcp : Part.vcp ∈ l) (hEgress : Part.egress ∈ l) (hPorts : Part.ports ∈ l) :
    NextWithin l (t.advance h.dt) (execClientHello h t) := by
  simp only [execClientHello]
  repeat' split
  all_goals simp [*]

theorem execDhcpReply_within {l : List Part} {t : State} {dt port family addr prefixLen gateway renewAfter rebindAfter lease} (hVcp : Part.vcp ∈ l) :
    NextWithin l (t.advance dt) (execDhcpReply dt port family addr prefixLen gateway renewAfter rebindAfter lease t) := by
  simp only [execDhcpReply]
  repeat' split
  all_goals simp [*]

theorem execDhcpRetransmission_within {l : List Part} {t : State} {dt port} (hVcp : Part.vcp ∈ l) (hEgress : Part.egress ∈ l) (hPorts : Part.ports ∈ l) :
    NextWithin l (t.advance dt) (execDhcpRetransmission dt port t) := by
  simp only [execDhcpRetransmission]
  repeat' split
  all_goals simp [*]

theorem execDhcpTimeout_within {l : List Part} {t : State} {dt port} (hVcp : Part.vcp ∈ l) (hEgress : Part.egress ∈ l) (hPorts : Part.ports ∈ l) :
    NextWithin l (t.advance dt) (execDhcpTimeout dt port t) := by
  simp only [execDhcpTimeout]
  repeat' split
  all_goals simp [*]

theorem execEffectiveInstant_within {l : List Part} {t : State} {dt} (hNow : Part.now ∈ l) (hStaged : Part.staged ∈ l) (hClaims : Part.claims ∈ l) (hVcp : Part.vcp ∈ l) (hRole : Part.role ∈ l) (hEscs : Part.escs ∈ l) (hPools : Part.pools ∈ l) (hFwd : Part.fwd ∈ l) (hCipher : Part.cipher ∈ l) (hEgress : Part.egress ∈ l) (hVideo : Part.video ∈ l) (hAudio : Part.audio ∈ l) (hTime : Part.time ∈ l) (hMem : Part.mem ∈ l) (hPorts : Part.ports ∈ l) (hEvents : Part.events ∈ l) (hStart : Part.start ∈ l) (hPower : Part.power ∈ l) :
    NextWithin l (t.advance dt) (execEffectiveInstant dt t) := by
  simp only [execEffectiveInstant]
  repeat' split
  all_goals simp [*]

theorem execHalfOpenTimeout_within {l : List Part} {t : State} {dt id} (hVcp : Part.vcp ∈ l) :
    NextWithin l (t.advance dt) (execHalfOpenTimeout dt id t) := by
  simp only [execHalfOpenTimeout]
  repeat' split
  all_goals simp [*]

theorem execHeartbeat_within {l : List Part} {t : State} {dt sent answered} (hRole : Part.role ∈ l) :
    NextWithin l (t.advance dt) (execHeartbeat dt sent answered t) := by
  simp only [execHeartbeat]
  repeat' split
  all_goals simp [*]

theorem execHeartbeatLoss_within {l : List Part} {t : State} {dt} (hStaged : Part.staged ∈ l) (hClaims : Part.claims ∈ l) (hVcp : Part.vcp ∈ l) (hRole : Part.role ∈ l) (hEscs : Part.escs ∈ l) (hPools : Part.pools ∈ l) (hFwd : Part.fwd ∈ l) (hCipher : Part.cipher ∈ l) (hEgress : Part.egress ∈ l) (hVideo : Part.video ∈ l) (hAudio : Part.audio ∈ l) (hTime : Part.time ∈ l) (hMem : Part.mem ∈ l) (hPorts : Part.ports ∈ l) (hEvents : Part.events ∈ l) (hStart : Part.start ∈ l) (hPower : Part.power ∈ l) :
    NextWithin l (t.advance dt) (execHeartbeatLoss dt t) := by
  simp only [execHeartbeatLoss]
  repeat' split
  all_goals simp [*]

theorem execLeaseExpiry_within {l : List Part} {t : State} {dt port} (hVcp : Part.vcp ∈ l) (hEgress : Part.egress ∈ l) (hPorts : Part.ports ∈ l) :
    NextWithin l (t.advance dt) (execLeaseExpiry dt port t) := by
  simp only [execLeaseExpiry]
  repeat' split
  all_goals simp [*]

theorem execLeaseRenewal_within {l : List Part} {t : State} {dt port} (hVcp : Part.vcp ∈ l) (hEgress : Part.egress ∈ l) (hPorts : Part.ports ∈ l) :
    NextWithin l (t.advance dt) (execLeaseRenewal dt port t) := by
  simp only [execLeaseRenewal]
  repeat' split
  all_goals simp [*]

theorem execPrimaryLossNoStandby_within {l : List Part} {t : State} {dt} (hStaged : Part.staged ∈ l) (hClaims : Part.claims ∈ l) (hVcp : Part.vcp ∈ l) (hRole : Part.role ∈ l) (hEscs : Part.escs ∈ l) (hPools : Part.pools ∈ l) (hFwd : Part.fwd ∈ l) (hCipher : Part.cipher ∈ l) (hEgress : Part.egress ∈ l) (hVideo : Part.video ∈ l) (hAudio : Part.audio ∈ l) (hTime : Part.time ∈ l) (hMem : Part.mem ∈ l) (hPorts : Part.ports ∈ l) (hEvents : Part.events ∈ l) (hStart : Part.start ∈ l) (hPower : Part.power ∈ l) :
    NextWithin l (t.advance dt) (execPrimaryLossNoStandby dt t) := by
  simp only [execPrimaryLossNoStandby]
  repeat' split
  all_goals simp [*]

theorem execReceivedFrame_within {l : List Part} {t : State} {f} (hVcp : Part.vcp ∈ l) (hFwd : Part.fwd ∈ l) (hEgress : Part.egress ∈ l) (hTime : Part.time ∈ l) (hMem : Part.mem ∈ l) (hPorts : Part.ports ∈ l) (hEvents : Part.events ∈ l) :
    NextWithin l (t.advance f.dt) (execReceivedFrame f t) := by
  simp only [execReceivedFrame]
  repeat' split
  all_goals simp [*]

theorem execReply_within {l : List Part} {t : State} {dt session seq} (hNow : Part.now ∈ l) (hStaged : Part.staged ∈ l) (hClaims : Part.claims ∈ l) (hVcp : Part.vcp ∈ l) (hRole : Part.role ∈ l) (hEscs : Part.escs ∈ l) (hPools : Part.pools ∈ l) (hFwd : Part.fwd ∈ l) (hCipher : Part.cipher ∈ l) (hEgress : Part.egress ∈ l) (hVideo : Part.video ∈ l) (hAudio : Part.audio ∈ l) (hTime : Part.time ∈ l) (hMem : Part.mem ∈ l) (hPorts : Part.ports ∈ l) (hEvents : Part.events ∈ l) (hStart : Part.start ∈ l) (hPower : Part.power ∈ l) :
    NextWithin l (t.advance dt) (execReply dt session seq t) := by
  simp only [execReply]
  repeat' split
  all_goals simp [*]

theorem execSessionErase_within {l : List Part} {t : State} {dt id} (hStaged : Part.staged ∈ l) (hVcp : Part.vcp ∈ l) (hEvents : Part.events ∈ l) :
    NextWithin l (t.advance dt) (execSessionErase dt id t) := by
  simp only [execSessionErase]
  repeat' split
  all_goals simp [*]

theorem execSessionExpiring_within {l : List Part} {t : State} {dt id} (hVcp : Part.vcp ∈ l) (hEvents : Part.events ∈ l) :
    NextWithin l (t.advance dt) (execSessionExpiring dt id t) := by
  simp only [execSessionExpiring]
  repeat' split
  all_goals simp [*]

theorem execSessionExpiry_within {l : List Part} {t : State} {dt id} (hVcp : Part.vcp ∈ l) (hEvents : Part.events ∈ l) :
    NextWithin l (t.advance dt) (execSessionExpiry dt id t) := by
  simp only [execSessionExpiry]
  repeat' split
  all_goals simp [*]

theorem execSessionIdleTimeout_within {l : List Part} {t : State} {dt id} (hStaged : Part.staged ∈ l) (hVcp : Part.vcp ∈ l) (hEvents : Part.events ∈ l) :
    NextWithin l (t.advance dt) (execSessionIdleTimeout dt id t) := by
  simp only [execSessionIdleTimeout]
  repeat' split
  all_goals simp [*]

theorem execStandbyLoss_within {l : List Part} {t : State} {dt} (hStaged : Part.staged ∈ l) (hClaims : Part.claims ∈ l) (hVcp : Part.vcp ∈ l) (hRole : Part.role ∈ l) (hEscs : Part.escs ∈ l) (hPools : Part.pools ∈ l) (hFwd : Part.fwd ∈ l) (hCipher : Part.cipher ∈ l) (hEgress : Part.egress ∈ l) (hVideo : Part.video ∈ l) (hAudio : Part.audio ∈ l) (hTime : Part.time ∈ l) (hMem : Part.mem ∈ l) (hPorts : Part.ports ∈ l) (hEvents : Part.events ∈ l) (hStart : Part.start ∈ l) (hPower : Part.power ∈ l) :
    NextWithin l (t.advance dt) (execStandbyLoss dt t) := by
  simp only [execStandbyLoss]
  repeat' split
  all_goals simp [*]

theorem execVcpPacketRejected_within {l : List Part} {t : State} {p} (hVcp : Part.vcp ∈ l) (hEgress : Part.egress ∈ l) (hPorts : Part.ports ∈ l) (hEvents : Part.events ∈ l) :
    NextWithin l (t.advance p.dt) (execVcpPacketRejected p t) := by
  simp only [execVcpPacketRejected]
  repeat' split
  all_goals simp [*]

end Sys2Proof.Machine
end

