-- ==== Sys2Proof/Laws/Commands.lean ====
section
/-! SUPPORT. What running a command of a packet can do: one lemma per outcome of `runCmd`. -/

namespace Sys2Proof.Machine

/-- Taking claims one by one appends them, numbered from the next identifier on. -/
theorem takeClaims_eq (session opcode : Nat) (l : List (Nat × Resource)) : ∀ (s : State) (k : Nat), k = s.vcp.nextClaim →
    l.foldl (fun t c => t.takeClaim c.1 session opcode c.2) s =
      { s with vcp := { s.vcp with
          claims := s.vcp.claims ++ (l.zipIdx 0).map (fun c =>
            { id := k + c.2, site := c.1.1, session := session, opcode := opcode, taken := s.now, res := c.1.2 }),
          nextClaim := s.vcp.nextClaim + l.length } } := by
  induction l with
  | nil => intro s k _; simp
  | cons c cs ih =>
    intro s k hk
    rw [List.foldl_cons, ih (s.takeClaim c.1 session opcode c.2) (k + 1) (by simp [State.takeClaim, hk])]
    simp [State.takeClaim, hk, List.zipIdx_succ, Function.comp_def, Nat.add_comm, Nat.add_left_comm]

/-- Identifiers of new claims are the next ones, in order. -/
theorem newClaims_ids (z : State) (p : ExecPkt) (opcode : Nat) (l : List (Nat × Resource)) :
    (newClaims z p opcode l).map (·.id) = (List.range l.length).map (z.vcp.nextClaim + ·) := by
  apply List.ext_getElem <;> simp [newClaims]

/-- A command that passes its checks leaves what `State.completed` says. -/
theorem passCmd_eq (z : State) (p : ExecPkt) (opcode tag : Nat) (o : CmdOut) :
    z.passCmd p opcode tag o = z.completed p opcode tag o := by
  unfold State.passCmd State.completed
  simp only [newClaims_ids]
  rw [takeClaims_eq p.session opcode o.claims z z.vcp.nextClaim rfl]
  simp [newClaims, ExecPkt.answer]

/-- `runCmd` on a command that stands next is `runRecord` on its packet; on any other it changes nothing but the time. -/
theorem runCmd_eq (d : CmdDef) (r : CmdRef) (b : List Byte) (s : State) :
    runCmd d r b s = match d.taken r b s with
      | some (z, p) => .next (z.runRecord d p r.tag b r.firmwareFault)
      | none => .next (s.advance r.dt) := by
  simp only [runCmd, CmdDef.taken]
  cases hr : (s.advance r.dt).running with
  | none => rfl
  | some p0 =>
    cases hl : ((s.advance r.dt).live && p0.session == r.session && p0.seq == r.seq) with
    | false => simp only [hl, Bool.not_false, ↓reduceIte, Bool.false_eq_true]
    | true =>
      simp only [hl, Bool.not_true, Bool.false_eq_true, ↓reduceIte]
      generalize flushUndefined (s.advance r.dt) p0 p0.todo = yq
      obtain ⟨y, q⟩ := yq
      dsimp only
      cases q.todo with
      | nil => rfl
      | cons x rest =>
        dsimp only
        cases d.isNext r b x <;> rfl

theorem runCmd_of_taken {d : CmdDef} {r : CmdRef} {b : List Byte} {s z : State} {p : ExecPkt} (h : d.taken r b s = some (z, p)) :
    runCmd d r b s = .next (z.runRecord d p r.tag b r.firmwareFault) := by
  rw [runCmd_eq, h]

theorem runCmd_of_not_taken {d : CmdDef} {r : CmdRef} {b : List Byte} {s : State} (h : d.taken r b s = none) :
    runCmd d r b s = .next (s.advance r.dt) := by
  rw [runCmd_eq, h]

/-- An accepted command completes. -/
theorem runCmd_of_accepts {d : CmdDef} {r : CmdRef} {b : List Byte} {s z : State} {p : ExecPkt} {e : Env}
    (h : d.accepts r b s = some (z, p, e)) : runCmd d r b s = .next (z.completed p d.opcode r.tag (d.effect e)) := by
  unfold CmdDef.accepts at h
  split at h
  · cases h
  · rename_i z' p' ht
    rw [runCmd_of_taken ht]
    split at h
    · cases h
    · rename_i hs
      split at h
      · cases h
      · rename_i v tl hv
        split at h
        · cases h
        · rename_i hr
          cases h
          simp only [Bool.or_eq_true, not_or, Option.isSome_iff_ne_none, ne_eq, Decidable.not_not] at hs hr
          unfold State.runRecord
          simp [hs, hv, hr, passCmd_eq]

/-- A refused command is answered with its error, and makes only the changes of its refusal. -/
theorem runCmd_of_rejects {d : CmdDef} {r : CmdRef} {b : List Byte} {s z : State} {p : ExecPkt} {x : Err} {fx : List Change}
    (h : d.rejects r b s = some (z, p, x, fx)) : runCmd d r b s = .next (applyAll fx (z.failCmd p d.opcode r.tag x)) := by
  unfold CmdDef.rejects at h
  split at h
  · cases h
  · rename_i z' p' ht
    rw [runCmd_of_taken ht]
    split at h
    · cases h
    · rename_i hs
      simp only [Bool.or_eq_true, not_or, Option.isSome_iff_ne_none, ne_eq, Decidable.not_not] at hs
      split at h
      · rename_i e hv
        cases h
        unfold State.runRecord
        simp [hs, hv, applyAll]
      · rename_i v tl hv
        obtain ⟨y, hy, heq⟩ := Option.map_eq_some_iff.1 h
        cases heq
        unfold State.runRecord
        simp [hs, hv, hy]

/-- A row that is a command of a packet runs it. -/
theorem exec_packetCommand {i : Instr} {d : CmdDef} {r : CmdRef} {b : List Byte} (h : packetCommand i = some (d, r, b)) (s : State) :
    exec i s = runCmd d r b s := by
  cases i <;> simp only [packetCommand, Option.some.injEq, Prod.mk.injEq, reduceCtorEq] at h <;> (obtain ⟨rfl, rfl, rfl⟩ := h; rfl)

/-- Taking a command off its packet changes the command complex alone, and what undefined opcodes before it undo. -/
theorem taken_within {l : List Part} {d : CmdDef} {r : CmdRef} {b : List Byte} {s z : State} {p : ExecPkt}
    (hS : Part.staged ∈ l) (hC : Part.claims ∈ l) (hV : Part.vcp ∈ l) (h : d.taken r b s = some (z, p)) : Within l (s.advance r.dt) z := by
  simp only [CmdDef.taken] at h
  split at h
  · cases h
  · rename_i p0 _
    split at h
    · have hw := (flushUndefined_within (l := l) (s := s.advance r.dt) (t := s.advance r.dt) (a1 := p0) (a2 := p0.todo) hS hC hV).2 Within.refl
      generalize flushUndefined (s.advance r.dt) p0 p0.todo = yq at hw h
      obtain ⟨y, q⟩ := yq
      dsimp only at h hw
      split at h
      · cases h
      · split at h
        · cases h; simp [*]
        · cases h
    · cases h

/-- A command's frame, from those of what its refusal and its effect change at once. -/
theorem runCmd_within {l : List Part} {d : CmdDef} {r : CmdRef} {b : List Byte} {s : State}
    (hS : Part.staged ∈ l) (hC : Part.claims ∈ l) (hV : Part.vcp ∈ l) (hf : r.firmwareFault = none ∨ Part.events ∈ l)
    (h1 : ∀ e x t u, Within l t u → Within l t (applyAll (d.onFail e x) u))
    (h2 : ∀ e t u, Within l t u → Within l t (applyAll (d.effect e).atOnce u)) : NextWithin l (s.advance r.dt) (runCmd d r b s) := by
  rw [runCmd_eq]
  split
  · rename_i z p ht
    have hz := taken_within hS hC hV ht
    simp only [nextWithin_next, State.runRecord]
    split
    · simp [*]
    · split
      · split
        · rcases hf with hf | hf
          · simp_all
          · simp [*]
        · simp [*]
      · split
        · simp [*]
        · split
          · exact h1 _ _ _ _ (by simp [*])
          · simp only [passCmd_eq, State.completed, State.setPacket_within hV]
            exact h2 _ _ _ (by simp [*])
  · simp

end Sys2Proof.Machine
end

