-- ==== Sys2Proof/Laws/State.lean ====
section
/-! SUPPORT. What each update of the state leaves as it was, field by field. Each lemma is a conjunction of equations, which `simp` takes
one by one. -/

namespace Sys2Proof.Machine

@[simp] theorem State.raiseAt_frame (s : State) (t : Instant) (source code data : Nat) (pkg : Nat) :
    (s.raiseAt t source code data pkg).pending = s.pending ∧ (s.raiseAt t source code data pkg).now = s.now ∧
    (s.raiseAt t source code data pkg).staged = s.staged ∧ (s.raiseAt t source code data pkg).vcp = s.vcp ∧
    (s.raiseAt t source code data pkg).role = s.role ∧ (s.raiseAt t source code data pkg).escs = s.escs ∧
    (s.raiseAt t source code data pkg).pools = s.pools ∧ (s.raiseAt t source code data pkg).fwd = s.fwd ∧
    (s.raiseAt t source code data pkg).cipher = s.cipher ∧ (s.raiseAt t source code data pkg).egress = s.egress ∧
    (s.raiseAt t source code data pkg).video = s.video ∧ (s.raiseAt t source code data pkg).audio = s.audio ∧
    (s.raiseAt t source code data pkg).time = s.time ∧ (s.raiseAt t source code data pkg).mem = s.mem ∧
    (s.raiseAt t source code data pkg).ports = s.ports ∧ (s.raiseAt t source code data pkg).start = s.start ∧
    (s.raiseAt t source code data pkg).power = s.power := by
  unfold State.raiseAt; (repeat' split) <;> exact ⟨rfl, rfl, rfl, rfl, rfl, rfl, rfl, rfl, rfl, rfl, rfl, rfl, rfl, rfl, rfl, rfl, rfl⟩

@[simp] theorem State.raise_frame (s : State) (source code data : Nat) (pkg : Nat) :
    (s.raise source code data pkg).pending = s.pending ∧ (s.raise source code data pkg).now = s.now ∧
    (s.raise source code data pkg).staged = s.staged ∧ (s.raise source code data pkg).vcp = s.vcp ∧
    (s.raise source code data pkg).role = s.role ∧ (s.raise source code data pkg).escs = s.escs ∧
    (s.raise source code data pkg).pools = s.pools ∧ (s.raise source code data pkg).fwd = s.fwd ∧
    (s.raise source code data pkg).cipher = s.cipher ∧ (s.raise source code data pkg).egress = s.egress ∧
    (s.raise source code data pkg).video = s.video ∧ (s.raise source code data pkg).audio = s.audio ∧
    (s.raise source code data pkg).time = s.time ∧ (s.raise source code data pkg).mem = s.mem ∧
    (s.raise source code data pkg).ports = s.ports ∧ (s.raise source code data pkg).start = s.start ∧
    (s.raise source code data pkg).power = s.power := by
  unfold State.raise; (repeat' split) <;> exact ⟨rfl, rfl, rfl, rfl, rfl, rfl, rfl, rfl, rfl, rfl, rfl, rfl, rfl, rfl, rfl, rfl, rfl⟩

@[simp] theorem State.raiseIf_frame (s : State) (c : Bool) (source code data : Nat) (pkg : Nat) :
    (s.raiseIf c source code data pkg).pending = s.pending ∧ (s.raiseIf c source code data pkg).now = s.now ∧
    (s.raiseIf c source code data pkg).staged = s.staged ∧ (s.raiseIf c source code data pkg).vcp = s.vcp ∧
    (s.raiseIf c source code data pkg).role = s.role ∧ (s.raiseIf c source code data pkg).escs = s.escs ∧
    (s.raiseIf c source code data pkg).pools = s.pools ∧ (s.raiseIf c source code data pkg).fwd = s.fwd ∧
    (s.raiseIf c source code data pkg).cipher = s.cipher ∧ (s.raiseIf c source code data pkg).egress = s.egress ∧
    (s.raiseIf c source code data pkg).video = s.video ∧ (s.raiseIf c source code data pkg).audio = s.audio ∧
    (s.raiseIf c source code data pkg).time = s.time ∧ (s.raiseIf c source code data pkg).mem = s.mem ∧
    (s.raiseIf c source code data pkg).ports = s.ports ∧ (s.raiseIf c source code data pkg).start = s.start ∧
    (s.raiseIf c source code data pkg).power = s.power := by
  unfold State.raiseIf; (repeat' split) <;> exact ⟨rfl, rfl, rfl, rfl, rfl, rfl, rfl, rfl, rfl, rfl, rfl, rfl, rfl, rfl, rfl, rfl, rfl⟩

@[simp] theorem State.takeClaim_frame (s : State) (site session opcode : Nat) (res : Resource) :
    (s.takeClaim site session opcode res).pending = s.pending ∧ (s.takeClaim site session opcode res).now = s.now ∧
    (s.takeClaim site session opcode res).staged = s.staged ∧ (s.takeClaim site session opcode res).role = s.role ∧
    (s.takeClaim site session opcode res).escs = s.escs ∧ (s.takeClaim site session opcode res).pools = s.pools ∧
    (s.takeClaim site session opcode res).fwd = s.fwd ∧ (s.takeClaim site session opcode res).cipher = s.cipher ∧
    (s.takeClaim site session opcode res).egress = s.egress ∧ (s.takeClaim site session opcode res).video = s.video ∧
    (s.takeClaim site session opcode res).audio = s.audio ∧ (s.takeClaim site session opcode res).time = s.time ∧
    (s.takeClaim site session opcode res).mem = s.mem ∧ (s.takeClaim site session opcode res).ports = s.ports ∧
    (s.takeClaim site session opcode res).events = s.events ∧ (s.takeClaim site session opcode res).start = s.start ∧
    (s.takeClaim site session opcode res).power = s.power := by
  unfold State.takeClaim; (repeat' split) <;> exact ⟨rfl, rfl, rfl, rfl, rfl, rfl, rfl, rfl, rfl, rfl, rfl, rfl, rfl, rfl, rfl, rfl, rfl⟩

@[simp] theorem State.dropClaim_frame (s : State) (id : Nat) :
    (s.dropClaim id).pending = s.pending ∧ (s.dropClaim id).now = s.now ∧ (s.dropClaim id).staged = s.staged ∧
    (s.dropClaim id).role = s.role ∧ (s.dropClaim id).escs = s.escs ∧ (s.dropClaim id).pools = s.pools ∧ (s.dropClaim id).fwd = s.fwd ∧
    (s.dropClaim id).cipher = s.cipher ∧ (s.dropClaim id).egress = s.egress ∧ (s.dropClaim id).video = s.video ∧
    (s.dropClaim id).audio = s.audio ∧ (s.dropClaim id).time = s.time ∧ (s.dropClaim id).mem = s.mem ∧ (s.dropClaim id).ports = s.ports ∧
    (s.dropClaim id).events = s.events ∧ (s.dropClaim id).start = s.start ∧ (s.dropClaim id).power = s.power := by
  unfold State.dropClaim; (repeat' split) <;> exact ⟨rfl, rfl, rfl, rfl, rfl, rfl, rfl, rfl, rfl, rfl, rfl, rfl, rfl, rfl, rfl, rfl, rfl⟩

@[simp] theorem State.setPacket_frame (s : State) (p : ExecPkt) :
    (s.setPacket p).pending = s.pending ∧ (s.setPacket p).now = s.now ∧ (s.setPacket p).staged = s.staged ∧
    (s.setPacket p).role = s.role ∧ (s.setPacket p).escs = s.escs ∧ (s.setPacket p).pools = s.pools ∧ (s.setPacket p).fwd = s.fwd ∧
    (s.setPacket p).cipher = s.cipher ∧ (s.setPacket p).egress = s.egress ∧ (s.setPacket p).video = s.video ∧
    (s.setPacket p).audio = s.audio ∧ (s.setPacket p).time = s.time ∧ (s.setPacket p).mem = s.mem ∧ (s.setPacket p).ports = s.ports ∧
    (s.setPacket p).events = s.events ∧ (s.setPacket p).start = s.start ∧ (s.setPacket p).power = s.power := by
  unfold State.setPacket; (repeat' split) <;> exact ⟨rfl, rfl, rfl, rfl, rfl, rfl, rfl, rfl, rfl, rfl, rfl, rfl, rfl, rfl, rfl, rfl, rfl⟩

@[simp] theorem State.modSession_frame (s : State) (id : Nat) (f : Session → Session) :
    (s.modSession id f).pending = s.pending ∧ (s.modSession id f).now = s.now ∧ (s.modSession id f).staged = s.staged ∧
    (s.modSession id f).role = s.role ∧ (s.modSession id f).escs = s.escs ∧ (s.modSession id f).pools = s.pools ∧
    (s.modSession id f).fwd = s.fwd ∧ (s.modSession id f).cipher = s.cipher ∧ (s.modSession id f).egress = s.egress ∧
    (s.modSession id f).video = s.video ∧ (s.modSession id f).audio = s.audio ∧ (s.modSession id f).time = s.time ∧
    (s.modSession id f).mem = s.mem ∧ (s.modSession id f).ports = s.ports ∧ (s.modSession id f).events = s.events ∧
    (s.modSession id f).start = s.start ∧ (s.modSession id f).power = s.power := by
  unfold State.modSession; (repeat' split) <;> exact ⟨rfl, rfl, rfl, rfl, rfl, rfl, rfl, rfl, rfl, rfl, rfl, rfl, rfl, rfl, rfl, rfl, rfl⟩

@[simp] theorem State.setPool_frame (s : State) (d : Nat) (p : Pool) :
    (s.setPool d p).pending = s.pending ∧ (s.setPool d p).now = s.now ∧ (s.setPool d p).staged = s.staged ∧ (s.setPool d p).vcp = s.vcp ∧
    (s.setPool d p).role = s.role ∧ (s.setPool d p).escs = s.escs ∧ (s.setPool d p).fwd = s.fwd ∧ (s.setPool d p).cipher = s.cipher ∧
    (s.setPool d p).egress = s.egress ∧ (s.setPool d p).video = s.video ∧ (s.setPool d p).audio = s.audio ∧
    (s.setPool d p).time = s.time ∧ (s.setPool d p).mem = s.mem ∧ (s.setPool d p).ports = s.ports ∧ (s.setPool d p).events = s.events ∧
    (s.setPool d p).start = s.start ∧ (s.setPool d p).power = s.power := by
  unfold State.setPool; (repeat' split) <;> exact ⟨rfl, rfl, rfl, rfl, rfl, rfl, rfl, rfl, rfl, rfl, rfl, rfl, rfl, rfl, rfl, rfl, rfl⟩

@[simp] theorem State.modPool_frame (s : State) (d : Nat) (f : Pool → Pool) :
    (s.modPool d f).pending = s.pending ∧ (s.modPool d f).now = s.now ∧ (s.modPool d f).staged = s.staged ∧ (s.modPool d f).vcp = s.vcp ∧
    (s.modPool d f).role = s.role ∧ (s.modPool d f).escs = s.escs ∧ (s.modPool d f).fwd = s.fwd ∧ (s.modPool d f).cipher = s.cipher ∧
    (s.modPool d f).egress = s.egress ∧ (s.modPool d f).video = s.video ∧ (s.modPool d f).audio = s.audio ∧
    (s.modPool d f).time = s.time ∧ (s.modPool d f).mem = s.mem ∧ (s.modPool d f).ports = s.ports ∧ (s.modPool d f).events = s.events ∧
    (s.modPool d f).start = s.start ∧ (s.modPool d f).power = s.power := by
  unfold State.modPool; (repeat' split) <;> exact ⟨rfl, rfl, rfl, rfl, rfl, rfl, rfl, rfl, rfl, rfl, rfl, rfl, rfl, rfl, rfl, rfl, rfl⟩

@[simp] theorem State.setEsc_frame (s : State) (n : Nat) (e : Escapement) :
    (s.setEsc n e).pending = s.pending ∧ (s.setEsc n e).now = s.now ∧ (s.setEsc n e).staged = s.staged ∧ (s.setEsc n e).vcp = s.vcp ∧
    (s.setEsc n e).role = s.role ∧ (s.setEsc n e).pools = s.pools ∧ (s.setEsc n e).fwd = s.fwd ∧ (s.setEsc n e).cipher = s.cipher ∧
    (s.setEsc n e).egress = s.egress ∧ (s.setEsc n e).video = s.video ∧ (s.setEsc n e).audio = s.audio ∧ (s.setEsc n e).time = s.time ∧
    (s.setEsc n e).mem = s.mem ∧ (s.setEsc n e).ports = s.ports ∧ (s.setEsc n e).events = s.events ∧ (s.setEsc n e).start = s.start ∧
    (s.setEsc n e).power = s.power := by
  unfold State.setEsc; (repeat' split) <;> exact ⟨rfl, rfl, rfl, rfl, rfl, rfl, rfl, rfl, rfl, rfl, rfl, rfl, rfl, rfl, rfl, rfl, rfl⟩

@[simp] theorem State.modEsc_frame (s : State) (n : Nat) (f : Escapement → Escapement) :
    (s.modEsc n f).pending = s.pending ∧ (s.modEsc n f).now = s.now ∧ (s.modEsc n f).staged = s.staged ∧ (s.modEsc n f).vcp = s.vcp ∧
    (s.modEsc n f).role = s.role ∧ (s.modEsc n f).pools = s.pools ∧ (s.modEsc n f).fwd = s.fwd ∧ (s.modEsc n f).cipher = s.cipher ∧
    (s.modEsc n f).egress = s.egress ∧ (s.modEsc n f).video = s.video ∧ (s.modEsc n f).audio = s.audio ∧ (s.modEsc n f).time = s.time ∧
    (s.modEsc n f).mem = s.mem ∧ (s.modEsc n f).ports = s.ports ∧ (s.modEsc n f).events = s.events ∧ (s.modEsc n f).start = s.start ∧
    (s.modEsc n f).power = s.power := by
  unfold State.modEsc; (repeat' split) <;> exact ⟨rfl, rfl, rfl, rfl, rfl, rfl, rfl, rfl, rfl, rfl, rfl, rfl, rfl, rfl, rfl, rfl, rfl⟩

@[simp] theorem State.setStream_frame (s : State) (id : Nat) (x : Stream) :
    (s.setStream id x).pending = s.pending ∧ (s.setStream id x).now = s.now ∧ (s.setStream id x).staged = s.staged ∧
    (s.setStream id x).vcp = s.vcp ∧ (s.setStream id x).role = s.role ∧ (s.setStream id x).escs = s.escs ∧
    (s.setStream id x).pools = s.pools ∧ (s.setStream id x).cipher = s.cipher ∧ (s.setStream id x).egress = s.egress ∧
    (s.setStream id x).video = s.video ∧ (s.setStream id x).audio = s.audio ∧ (s.setStream id x).time = s.time ∧
    (s.setStream id x).mem = s.mem ∧ (s.setStream id x).ports = s.ports ∧ (s.setStream id x).events = s.events ∧
    (s.setStream id x).start = s.start ∧ (s.setStream id x).power = s.power := by
  unfold State.setStream; (repeat' split) <;> exact ⟨rfl, rfl, rfl, rfl, rfl, rfl, rfl, rfl, rfl, rfl, rfl, rfl, rfl, rfl, rfl, rfl, rfl⟩

@[simp] theorem State.countStream_frame (s : State) (id : Nat) (f : StreamCtrs → StreamCtrs) :
    (s.countStream id f).pending = s.pending ∧ (s.countStream id f).now = s.now ∧ (s.countStream id f).staged = s.staged ∧
    (s.countStream id f).vcp = s.vcp ∧ (s.countStream id f).role = s.role ∧ (s.countStream id f).escs = s.escs ∧
    (s.countStream id f).pools = s.pools ∧ (s.countStream id f).cipher = s.cipher ∧ (s.countStream id f).egress = s.egress ∧
    (s.countStream id f).video = s.video ∧ (s.countStream id f).audio = s.audio ∧ (s.countStream id f).time = s.time ∧
    (s.countStream id f).mem = s.mem ∧ (s.countStream id f).ports = s.ports ∧ (s.countStream id f).events = s.events ∧
    (s.countStream id f).start = s.start ∧ (s.countStream id f).power = s.power := by
  unfold State.countStream; (repeat' split) <;> exact ⟨rfl, rfl, rfl, rfl, rfl, rfl, rfl, rfl, rfl, rfl, rfl, rfl, rfl, rfl, rfl, rfl, rfl⟩

@[simp] theorem State.modStream_frame (s : State) (id : Nat) (f : Stream → Stream) :
    (s.modStream id f).pending = s.pending ∧ (s.modStream id f).now = s.now ∧ (s.modStream id f).staged = s.staged ∧
    (s.modStream id f).vcp = s.vcp ∧ (s.modStream id f).role = s.role ∧ (s.modStream id f).escs = s.escs ∧
    (s.modStream id f).pools = s.pools ∧ (s.modStream id f).cipher = s.cipher ∧ (s.modStream id f).egress = s.egress ∧
    (s.modStream id f).video = s.video ∧ (s.modStream id f).audio = s.audio ∧ (s.modStream id f).time = s.time ∧
    (s.modStream id f).mem = s.mem ∧ (s.modStream id f).ports = s.ports ∧ (s.modStream id f).events = s.events ∧
    (s.modStream id f).start = s.start ∧ (s.modStream id f).power = s.power := by
  unfold State.modStream; (repeat' split) <;> exact ⟨rfl, rfl, rfl, rfl, rfl, rfl, rfl, rfl, rfl, rfl, rfl, rfl, rfl, rfl, rfl, rfl, rfl⟩

@[simp] theorem State.modTarget_frame (s : State) (ctx num : Nat) (f : Target → Target) :
    (s.modTarget ctx num f).pending = s.pending ∧ (s.modTarget ctx num f).now = s.now ∧ (s.modTarget ctx num f).staged = s.staged ∧
    (s.modTarget ctx num f).vcp = s.vcp ∧ (s.modTarget ctx num f).role = s.role ∧ (s.modTarget ctx num f).escs = s.escs ∧
    (s.modTarget ctx num f).pools = s.pools ∧ (s.modTarget ctx num f).cipher = s.cipher ∧ (s.modTarget ctx num f).egress = s.egress ∧
    (s.modTarget ctx num f).video = s.video ∧ (s.modTarget ctx num f).audio = s.audio ∧ (s.modTarget ctx num f).time = s.time ∧
    (s.modTarget ctx num f).mem = s.mem ∧ (s.modTarget ctx num f).ports = s.ports ∧ (s.modTarget ctx num f).events = s.events ∧
    (s.modTarget ctx num f).start = s.start ∧ (s.modTarget ctx num f).power = s.power := by
  unfold State.modTarget; (repeat' split) <;> exact ⟨rfl, rfl, rfl, rfl, rfl, rfl, rfl, rfl, rfl, rfl, rfl, rfl, rfl, rfl, rfl, rfl, rfl⟩

@[simp] theorem State.modCut_frame (s : State) (id : Nat) (f : Cut → Cut) :
    (s.modCut id f).pending = s.pending ∧ (s.modCut id f).now = s.now ∧ (s.modCut id f).staged = s.staged ∧ (s.modCut id f).vcp = s.vcp ∧
    (s.modCut id f).role = s.role ∧ (s.modCut id f).escs = s.escs ∧ (s.modCut id f).pools = s.pools ∧ (s.modCut id f).cipher = s.cipher ∧
    (s.modCut id f).egress = s.egress ∧ (s.modCut id f).video = s.video ∧ (s.modCut id f).audio = s.audio ∧
    (s.modCut id f).time = s.time ∧ (s.modCut id f).mem = s.mem ∧ (s.modCut id f).ports = s.ports ∧ (s.modCut id f).events = s.events ∧
    (s.modCut id f).start = s.start ∧ (s.modCut id f).power = s.power := by
  unfold State.modCut; (repeat' split) <;> exact ⟨rfl, rfl, rfl, rfl, rfl, rfl, rfl, rfl, rfl, rfl, rfl, rfl, rfl, rfl, rfl, rfl, rfl⟩

@[simp] theorem State.modParse_frame (s : State) (port : Nat) (f : ParseCtrs → ParseCtrs) :
    (s.modParse port f).pending = s.pending ∧ (s.modParse port f).now = s.now ∧ (s.modParse port f).staged = s.staged ∧
    (s.modParse port f).vcp = s.vcp ∧ (s.modParse port f).role = s.role ∧ (s.modParse port f).escs = s.escs ∧
    (s.modParse port f).pools = s.pools ∧ (s.modParse port f).cipher = s.cipher ∧ (s.modParse port f).egress = s.egress ∧
    (s.modParse port f).video = s.video ∧ (s.modParse port f).audio = s.audio ∧ (s.modParse port f).time = s.time ∧
    (s.modParse port f).mem = s.mem ∧ (s.modParse port f).ports = s.ports ∧ (s.modParse port f).events = s.events ∧
    (s.modParse port f).start = s.start ∧ (s.modParse port f).power = s.power := by
  unfold State.modParse; (repeat' split) <;> exact ⟨rfl, rfl, rfl, rfl, rfl, rfl, rfl, rfl, rfl, rfl, rfl, rfl, rfl, rfl, rfl, rfl, rfl⟩

@[simp] theorem State.setKey_frame (s : State) (id : Nat) (k : KeyCtx) :
    (s.setKey id k).pending = s.pending ∧ (s.setKey id k).now = s.now ∧ (s.setKey id k).staged = s.staged ∧ (s.setKey id k).vcp = s.vcp ∧
    (s.setKey id k).role = s.role ∧ (s.setKey id k).escs = s.escs ∧ (s.setKey id k).pools = s.pools ∧ (s.setKey id k).fwd = s.fwd ∧
    (s.setKey id k).egress = s.egress ∧ (s.setKey id k).video = s.video ∧ (s.setKey id k).audio = s.audio ∧
    (s.setKey id k).time = s.time ∧ (s.setKey id k).mem = s.mem ∧ (s.setKey id k).ports = s.ports ∧ (s.setKey id k).events = s.events ∧
    (s.setKey id k).start = s.start ∧ (s.setKey id k).power = s.power := by
  unfold State.setKey; (repeat' split) <;> exact ⟨rfl, rfl, rfl, rfl, rfl, rfl, rfl, rfl, rfl, rfl, rfl, rfl, rfl, rfl, rfl, rfl, rfl⟩

@[simp] theorem State.setExport_frame (s : State) (p : Nat) (x : Export) :
    (s.setExport p x).pending = s.pending ∧ (s.setExport p x).now = s.now ∧ (s.setExport p x).staged = s.staged ∧
    (s.setExport p x).vcp = s.vcp ∧ (s.setExport p x).role = s.role ∧ (s.setExport p x).escs = s.escs ∧
    (s.setExport p x).pools = s.pools ∧ (s.setExport p x).fwd = s.fwd ∧ (s.setExport p x).egress = s.egress ∧
    (s.setExport p x).video = s.video ∧ (s.setExport p x).audio = s.audio ∧ (s.setExport p x).time = s.time ∧
    (s.setExport p x).mem = s.mem ∧ (s.setExport p x).ports = s.ports ∧ (s.setExport p x).events = s.events ∧
    (s.setExport p x).start = s.start ∧ (s.setExport p x).power = s.power := by
  unfold State.setExport; (repeat' split) <;> exact ⟨rfl, rfl, rfl, rfl, rfl, rfl, rfl, rfl, rfl, rfl, rfl, rfl, rfl, rfl, rfl, rfl, rfl⟩

@[simp] theorem State.setImport_frame (s : State) (p : Nat) (x : Import) :
    (s.setImport p x).pending = s.pending ∧ (s.setImport p x).now = s.now ∧ (s.setImport p x).staged = s.staged ∧
    (s.setImport p x).vcp = s.vcp ∧ (s.setImport p x).role = s.role ∧ (s.setImport p x).escs = s.escs ∧
    (s.setImport p x).pools = s.pools ∧ (s.setImport p x).fwd = s.fwd ∧ (s.setImport p x).egress = s.egress ∧
    (s.setImport p x).video = s.video ∧ (s.setImport p x).audio = s.audio ∧ (s.setImport p x).time = s.time ∧
    (s.setImport p x).mem = s.mem ∧ (s.setImport p x).ports = s.ports ∧ (s.setImport p x).events = s.events ∧
    (s.setImport p x).start = s.start ∧ (s.setImport p x).power = s.power := by
  unfold State.setImport; (repeat' split) <;> exact ⟨rfl, rfl, rfl, rfl, rfl, rfl, rfl, rfl, rfl, rfl, rfl, rfl, rfl, rfl, rfl, rfl, rfl⟩

@[simp] theorem State.setUnit_frame (s : State) (n : Nat) (u : CryptoUnit) :
    (s.setUnit n u).pending = s.pending ∧ (s.setUnit n u).now = s.now ∧ (s.setUnit n u).staged = s.staged ∧ (s.setUnit n u).vcp = s.vcp ∧
    (s.setUnit n u).role = s.role ∧ (s.setUnit n u).escs = s.escs ∧ (s.setUnit n u).pools = s.pools ∧ (s.setUnit n u).fwd = s.fwd ∧
    (s.setUnit n u).egress = s.egress ∧ (s.setUnit n u).video = s.video ∧ (s.setUnit n u).audio = s.audio ∧
    (s.setUnit n u).time = s.time ∧ (s.setUnit n u).mem = s.mem ∧ (s.setUnit n u).ports = s.ports ∧ (s.setUnit n u).events = s.events ∧
    (s.setUnit n u).start = s.start ∧ (s.setUnit n u).power = s.power := by
  unfold State.setUnit; (repeat' split) <;> exact ⟨rfl, rfl, rfl, rfl, rfl, rfl, rfl, rfl, rfl, rfl, rfl, rfl, rfl, rfl, rfl, rfl, rfl⟩

@[simp] theorem State.setEgIface_frame (s : State) (n : Nat) (x : EgIface) :
    (s.setEgIface n x).pending = s.pending ∧ (s.setEgIface n x).now = s.now ∧ (s.setEgIface n x).staged = s.staged ∧
    (s.setEgIface n x).vcp = s.vcp ∧ (s.setEgIface n x).role = s.role ∧ (s.setEgIface n x).escs = s.escs ∧
    (s.setEgIface n x).pools = s.pools ∧ (s.setEgIface n x).fwd = s.fwd ∧ (s.setEgIface n x).cipher = s.cipher ∧
    (s.setEgIface n x).video = s.video ∧ (s.setEgIface n x).audio = s.audio ∧ (s.setEgIface n x).time = s.time ∧
    (s.setEgIface n x).mem = s.mem ∧ (s.setEgIface n x).ports = s.ports ∧ (s.setEgIface n x).events = s.events ∧
    (s.setEgIface n x).start = s.start ∧ (s.setEgIface n x).power = s.power := by
  unfold State.setEgIface; (repeat' split) <;> exact ⟨rfl, rfl, rfl, rfl, rfl, rfl, rfl, rfl, rfl, rfl, rfl, rfl, rfl, rfl, rfl, rfl, rfl⟩

@[simp] theorem State.setLeg_frame (s : State) (id : Nat) (l : Leg) :
    (s.setLeg id l).pending = s.pending ∧ (s.setLeg id l).now = s.now ∧ (s.setLeg id l).staged = s.staged ∧ (s.setLeg id l).vcp = s.vcp ∧
    (s.setLeg id l).role = s.role ∧ (s.setLeg id l).escs = s.escs ∧ (s.setLeg id l).pools = s.pools ∧ (s.setLeg id l).fwd = s.fwd ∧
    (s.setLeg id l).cipher = s.cipher ∧ (s.setLeg id l).video = s.video ∧ (s.setLeg id l).audio = s.audio ∧
    (s.setLeg id l).time = s.time ∧ (s.setLeg id l).mem = s.mem ∧ (s.setLeg id l).ports = s.ports ∧ (s.setLeg id l).events = s.events ∧
    (s.setLeg id l).start = s.start ∧ (s.setLeg id l).power = s.power := by
  unfold State.setLeg; (repeat' split) <;> exact ⟨rfl, rfl, rfl, rfl, rfl, rfl, rfl, rfl, rfl, rfl, rfl, rfl, rfl, rfl, rfl, rfl, rfl⟩

@[simp] theorem State.setDecode_frame (s : State) (id : Nat) (x : DecodeStream) :
    (s.setDecode id x).pending = s.pending ∧ (s.setDecode id x).now = s.now ∧ (s.setDecode id x).staged = s.staged ∧
    (s.setDecode id x).vcp = s.vcp ∧ (s.setDecode id x).role = s.role ∧ (s.setDecode id x).escs = s.escs ∧
    (s.setDecode id x).pools = s.pools ∧ (s.setDecode id x).fwd = s.fwd ∧ (s.setDecode id x).cipher = s.cipher ∧
    (s.setDecode id x).egress = s.egress ∧ (s.setDecode id x).audio = s.audio ∧ (s.setDecode id x).time = s.time ∧
    (s.setDecode id x).mem = s.mem ∧ (s.setDecode id x).ports = s.ports ∧ (s.setDecode id x).events = s.events ∧
    (s.setDecode id x).start = s.start ∧ (s.setDecode id x).power = s.power := by
  unfold State.setDecode; (repeat' split) <;> exact ⟨rfl, rfl, rfl, rfl, rfl, rfl, rfl, rfl, rfl, rfl, rfl, rfl, rfl, rfl, rfl, rfl, rfl⟩

@[simp] theorem State.setOutput_frame (s : State) (id : Nat) (x : Output) :
    (s.setOutput id x).pending = s.pending ∧ (s.setOutput id x).now = s.now ∧ (s.setOutput id x).staged = s.staged ∧
    (s.setOutput id x).vcp = s.vcp ∧ (s.setOutput id x).role = s.role ∧ (s.setOutput id x).escs = s.escs ∧
    (s.setOutput id x).pools = s.pools ∧ (s.setOutput id x).fwd = s.fwd ∧ (s.setOutput id x).cipher = s.cipher ∧
    (s.setOutput id x).egress = s.egress ∧ (s.setOutput id x).audio = s.audio ∧ (s.setOutput id x).time = s.time ∧
    (s.setOutput id x).mem = s.mem ∧ (s.setOutput id x).ports = s.ports ∧ (s.setOutput id x).events = s.events ∧
    (s.setOutput id x).start = s.start ∧ (s.setOutput id x).power = s.power := by
  unfold State.setOutput; (repeat' split) <;> exact ⟨rfl, rfl, rfl, rfl, rfl, rfl, rfl, rfl, rfl, rfl, rfl, rfl, rfl, rfl, rfl, rfl, rfl⟩

@[simp] theorem State.modOutput_frame (s : State) (id : Nat) (f : Output → Output) :
    (s.modOutput id f).pending = s.pending ∧ (s.modOutput id f).now = s.now ∧ (s.modOutput id f).staged = s.staged ∧
    (s.modOutput id f).vcp = s.vcp ∧ (s.modOutput id f).role = s.role ∧ (s.modOutput id f).escs = s.escs ∧
    (s.modOutput id f).pools = s.pools ∧ (s.modOutput id f).fwd = s.fwd ∧ (s.modOutput id f).cipher = s.cipher ∧
    (s.modOutput id f).egress = s.egress ∧ (s.modOutput id f).audio = s.audio ∧ (s.modOutput id f).time = s.time ∧
    (s.modOutput id f).mem = s.mem ∧ (s.modOutput id f).ports = s.ports ∧ (s.modOutput id f).events = s.events ∧
    (s.modOutput id f).start = s.start ∧ (s.modOutput id f).power = s.power := by
  unfold State.modOutput; (repeat' split) <;> exact ⟨rfl, rfl, rfl, rfl, rfl, rfl, rfl, rfl, rfl, rfl, rfl, rfl, rfl, rfl, rfl, rfl, rfl⟩

@[simp] theorem State.setEncode_frame (s : State) (id : Nat) (x : EncodeLeg) :
    (s.setEncode id x).pending = s.pending ∧ (s.setEncode id x).now = s.now ∧ (s.setEncode id x).staged = s.staged ∧
    (s.setEncode id x).vcp = s.vcp ∧ (s.setEncode id x).role = s.role ∧ (s.setEncode id x).escs = s.escs ∧
    (s.setEncode id x).pools = s.pools ∧ (s.setEncode id x).fwd = s.fwd ∧ (s.setEncode id x).cipher = s.cipher ∧
    (s.setEncode id x).egress = s.egress ∧ (s.setEncode id x).audio = s.audio ∧ (s.setEncode id x).time = s.time ∧
    (s.setEncode id x).mem = s.mem ∧ (s.setEncode id x).ports = s.ports ∧ (s.setEncode id x).events = s.events ∧
    (s.setEncode id x).start = s.start ∧ (s.setEncode id x).power = s.power := by
  unfold State.setEncode; (repeat' split) <;> exact ⟨rfl, rfl, rfl, rfl, rfl, rfl, rfl, rfl, rfl, rfl, rfl, rfl, rfl, rfl, rfl, rfl, rfl⟩

@[simp] theorem State.modEncode_frame (s : State) (id : Nat) (f : EncodeLeg → EncodeLeg) :
    (s.modEncode id f).pending = s.pending ∧ (s.modEncode id f).now = s.now ∧ (s.modEncode id f).staged = s.staged ∧
    (s.modEncode id f).vcp = s.vcp ∧ (s.modEncode id f).role = s.role ∧ (s.modEncode id f).escs = s.escs ∧
    (s.modEncode id f).pools = s.pools ∧ (s.modEncode id f).fwd = s.fwd ∧ (s.modEncode id f).cipher = s.cipher ∧
    (s.modEncode id f).egress = s.egress ∧ (s.modEncode id f).audio = s.audio ∧ (s.modEncode id f).time = s.time ∧
    (s.modEncode id f).mem = s.mem ∧ (s.modEncode id f).ports = s.ports ∧ (s.modEncode id f).events = s.events ∧
    (s.modEncode id f).start = s.start ∧ (s.modEncode id f).power = s.power := by
  unfold State.modEncode; (repeat' split) <;> exact ⟨rfl, rfl, rfl, rfl, rfl, rfl, rfl, rfl, rfl, rfl, rfl, rfl, rfl, rfl, rfl, rfl, rfl⟩

@[simp] theorem State.setGraphic_frame (s : State) (h : Nat) (x : Graphic) :
    (s.setGraphic h x).pending = s.pending ∧ (s.setGraphic h x).now = s.now ∧ (s.setGraphic h x).staged = s.staged ∧
    (s.setGraphic h x).vcp = s.vcp ∧ (s.setGraphic h x).role = s.role ∧ (s.setGraphic h x).escs = s.escs ∧
    (s.setGraphic h x).pools = s.pools ∧ (s.setGraphic h x).fwd = s.fwd ∧ (s.setGraphic h x).cipher = s.cipher ∧
    (s.setGraphic h x).egress = s.egress ∧ (s.setGraphic h x).audio = s.audio ∧ (s.setGraphic h x).time = s.time ∧
    (s.setGraphic h x).mem = s.mem ∧ (s.setGraphic h x).ports = s.ports ∧ (s.setGraphic h x).events = s.events ∧
    (s.setGraphic h x).start = s.start ∧ (s.setGraphic h x).power = s.power := by
  unfold State.setGraphic; (repeat' split) <;> exact ⟨rfl, rfl, rfl, rfl, rfl, rfl, rfl, rfl, rfl, rfl, rfl, rfl, rfl, rfl, rfl, rfl, rfl⟩

@[simp] theorem State.modGraphic_frame (s : State) (h : Nat) (f : Graphic → Graphic) :
    (s.modGraphic h f).pending = s.pending ∧ (s.modGraphic h f).now = s.now ∧ (s.modGraphic h f).staged = s.staged ∧
    (s.modGraphic h f).vcp = s.vcp ∧ (s.modGraphic h f).role = s.role ∧ (s.modGraphic h f).escs = s.escs ∧
    (s.modGraphic h f).pools = s.pools ∧ (s.modGraphic h f).fwd = s.fwd ∧ (s.modGraphic h f).cipher = s.cipher ∧
    (s.modGraphic h f).egress = s.egress ∧ (s.modGraphic h f).audio = s.audio ∧ (s.modGraphic h f).time = s.time ∧
    (s.modGraphic h f).mem = s.mem ∧ (s.modGraphic h f).ports = s.ports ∧ (s.modGraphic h f).events = s.events ∧
    (s.modGraphic h f).start = s.start ∧ (s.modGraphic h f).power = s.power := by
  unfold State.modGraphic; (repeat' split) <;> exact ⟨rfl, rfl, rfl, rfl, rfl, rfl, rfl, rfl, rfl, rfl, rfl, rfl, rfl, rfl, rfl, rfl, rfl⟩

@[simp] theorem State.modGone_frame (s : State) (id : Nat) (c : Instant) (f : GoneObj → GoneObj) :
    (s.modGone id c f).pending = s.pending ∧ (s.modGone id c f).now = s.now ∧ (s.modGone id c f).staged = s.staged ∧
    (s.modGone id c f).vcp = s.vcp ∧ (s.modGone id c f).role = s.role ∧ (s.modGone id c f).escs = s.escs ∧
    (s.modGone id c f).pools = s.pools ∧ (s.modGone id c f).fwd = s.fwd ∧ (s.modGone id c f).cipher = s.cipher ∧
    (s.modGone id c f).egress = s.egress ∧ (s.modGone id c f).audio = s.audio ∧ (s.modGone id c f).time = s.time ∧
    (s.modGone id c f).mem = s.mem ∧ (s.modGone id c f).ports = s.ports ∧ (s.modGone id c f).events = s.events ∧
    (s.modGone id c f).start = s.start ∧ (s.modGone id c f).power = s.power := by
  unfold State.modGone; (repeat' split) <;> exact ⟨rfl, rfl, rfl, rfl, rfl, rfl, rfl, rfl, rfl, rfl, rfl, rfl, rfl, rfl, rfl, rfl, rfl⟩

@[simp] theorem State.setLegA_frame (s : State) (id : Nat) (x : AudioLeg) :
    (s.setLegA id x).pending = s.pending ∧ (s.setLegA id x).now = s.now ∧ (s.setLegA id x).staged = s.staged ∧
    (s.setLegA id x).vcp = s.vcp ∧ (s.setLegA id x).role = s.role ∧ (s.setLegA id x).escs = s.escs ∧ (s.setLegA id x).pools = s.pools ∧
    (s.setLegA id x).fwd = s.fwd ∧ (s.setLegA id x).cipher = s.cipher ∧ (s.setLegA id x).egress = s.egress ∧
    (s.setLegA id x).video = s.video ∧ (s.setLegA id x).time = s.time ∧ (s.setLegA id x).mem = s.mem ∧ (s.setLegA id x).ports = s.ports ∧
    (s.setLegA id x).events = s.events ∧ (s.setLegA id x).start = s.start ∧ (s.setLegA id x).power = s.power := by
  unfold State.setLegA; (repeat' split) <;> exact ⟨rfl, rfl, rfl, rfl, rfl, rfl, rfl, rfl, rfl, rfl, rfl, rfl, rfl, rfl, rfl, rfl, rfl⟩

@[simp] theorem State.modLegA_frame (s : State) (id : Nat) (f : AudioLeg → AudioLeg) :
    (s.modLegA id f).pending = s.pending ∧ (s.modLegA id f).now = s.now ∧ (s.modLegA id f).staged = s.staged ∧
    (s.modLegA id f).vcp = s.vcp ∧ (s.modLegA id f).role = s.role ∧ (s.modLegA id f).escs = s.escs ∧ (s.modLegA id f).pools = s.pools ∧
    (s.modLegA id f).fwd = s.fwd ∧ (s.modLegA id f).cipher = s.cipher ∧ (s.modLegA id f).egress = s.egress ∧
    (s.modLegA id f).video = s.video ∧ (s.modLegA id f).time = s.time ∧ (s.modLegA id f).mem = s.mem ∧ (s.modLegA id f).ports = s.ports ∧
    (s.modLegA id f).events = s.events ∧ (s.modLegA id f).start = s.start ∧ (s.modLegA id f).power = s.power := by
  unfold State.modLegA; (repeat' split) <;> exact ⟨rfl, rfl, rfl, rfl, rfl, rfl, rfl, rfl, rfl, rfl, rfl, rfl, rfl, rfl, rfl, rfl, rfl⟩

@[simp] theorem State.setXp_frame (s : State) (d : Nat) (x : Crosspoint) :
    (s.setXp d x).pending = s.pending ∧ (s.setXp d x).now = s.now ∧ (s.setXp d x).staged = s.staged ∧ (s.setXp d x).vcp = s.vcp ∧
    (s.setXp d x).role = s.role ∧ (s.setXp d x).escs = s.escs ∧ (s.setXp d x).pools = s.pools ∧ (s.setXp d x).fwd = s.fwd ∧
    (s.setXp d x).cipher = s.cipher ∧ (s.setXp d x).egress = s.egress ∧ (s.setXp d x).video = s.video ∧ (s.setXp d x).time = s.time ∧
    (s.setXp d x).mem = s.mem ∧ (s.setXp d x).ports = s.ports ∧ (s.setXp d x).events = s.events ∧ (s.setXp d x).start = s.start ∧
    (s.setXp d x).power = s.power := by
  unfold State.setXp; (repeat' split) <;> exact ⟨rfl, rfl, rfl, rfl, rfl, rfl, rfl, rfl, rfl, rfl, rfl, rfl, rfl, rfl, rfl, rfl, rfl⟩

@[simp] theorem State.modXp_frame (s : State) (d : Nat) (f : Crosspoint → Crosspoint) :
    (s.modXp d f).pending = s.pending ∧ (s.modXp d f).now = s.now ∧ (s.modXp d f).staged = s.staged ∧ (s.modXp d f).vcp = s.vcp ∧
    (s.modXp d f).role = s.role ∧ (s.modXp d f).escs = s.escs ∧ (s.modXp d f).pools = s.pools ∧ (s.modXp d f).fwd = s.fwd ∧
    (s.modXp d f).cipher = s.cipher ∧ (s.modXp d f).egress = s.egress ∧ (s.modXp d f).video = s.video ∧ (s.modXp d f).time = s.time ∧
    (s.modXp d f).mem = s.mem ∧ (s.modXp d f).ports = s.ports ∧ (s.modXp d f).events = s.events ∧ (s.modXp d f).start = s.start ∧
    (s.modXp d f).power = s.power := by
  unfold State.modXp; (repeat' split) <;> exact ⟨rfl, rfl, rfl, rfl, rfl, rfl, rfl, rfl, rfl, rfl, rfl, rfl, rfl, rfl, rfl, rfl, rfl⟩

@[simp] theorem State.setPtp_frame (s : State) (p : Nat) (x : PtpPort) :
    (s.setPtp p x).pending = s.pending ∧ (s.setPtp p x).now = s.now ∧ (s.setPtp p x).staged = s.staged ∧ (s.setPtp p x).vcp = s.vcp ∧
    (s.setPtp p x).role = s.role ∧ (s.setPtp p x).escs = s.escs ∧ (s.setPtp p x).pools = s.pools ∧ (s.setPtp p x).fwd = s.fwd ∧
    (s.setPtp p x).cipher = s.cipher ∧ (s.setPtp p x).egress = s.egress ∧ (s.setPtp p x).video = s.video ∧
    (s.setPtp p x).audio = s.audio ∧ (s.setPtp p x).mem = s.mem ∧ (s.setPtp p x).ports = s.ports ∧ (s.setPtp p x).events = s.events ∧
    (s.setPtp p x).start = s.start ∧ (s.setPtp p x).power = s.power := by
  unfold State.setPtp; (repeat' split) <;> exact ⟨rfl, rfl, rfl, rfl, rfl, rfl, rfl, rfl, rfl, rfl, rfl, rfl, rfl, rfl, rfl, rfl, rfl⟩

@[simp] theorem State.modPtp_frame (s : State) (p : Nat) (f : PtpPort → PtpPort) :
    (s.modPtp p f).pending = s.pending ∧ (s.modPtp p f).now = s.now ∧ (s.modPtp p f).staged = s.staged ∧ (s.modPtp p f).vcp = s.vcp ∧
    (s.modPtp p f).role = s.role ∧ (s.modPtp p f).escs = s.escs ∧ (s.modPtp p f).pools = s.pools ∧ (s.modPtp p f).fwd = s.fwd ∧
    (s.modPtp p f).cipher = s.cipher ∧ (s.modPtp p f).egress = s.egress ∧ (s.modPtp p f).video = s.video ∧
    (s.modPtp p f).audio = s.audio ∧ (s.modPtp p f).mem = s.mem ∧ (s.modPtp p f).ports = s.ports ∧ (s.modPtp p f).events = s.events ∧
    (s.modPtp p f).start = s.start ∧ (s.modPtp p f).power = s.power := by
  unfold State.modPtp; (repeat' split) <;> exact ⟨rfl, rfl, rfl, rfl, rfl, rfl, rfl, rfl, rfl, rfl, rfl, rfl, rfl, rfl, rfl, rfl, rfl⟩

@[simp] theorem State.setStack_frame (s : State) (k : Nat) (x : Stack) :
    (s.setStack k x).pending = s.pending ∧ (s.setStack k x).now = s.now ∧ (s.setStack k x).staged = s.staged ∧
    (s.setStack k x).vcp = s.vcp ∧ (s.setStack k x).role = s.role ∧ (s.setStack k x).escs = s.escs ∧ (s.setStack k x).pools = s.pools ∧
    (s.setStack k x).fwd = s.fwd ∧ (s.setStack k x).cipher = s.cipher ∧ (s.setStack k x).egress = s.egress ∧
    (s.setStack k x).video = s.video ∧ (s.setStack k x).audio = s.audio ∧ (s.setStack k x).time = s.time ∧
    (s.setStack k x).ports = s.ports ∧ (s.setStack k x).events = s.events ∧ (s.setStack k x).start = s.start ∧
    (s.setStack k x).power = s.power := by
  unfold State.setStack; (repeat' split) <;> exact ⟨rfl, rfl, rfl, rfl, rfl, rfl, rfl, rfl, rfl, rfl, rfl, rfl, rfl, rfl, rfl, rfl, rfl⟩

@[simp] theorem State.setFifo_frame (s : State) (site fifo : Nat) (x : Fifo) :
    (s.setFifo site fifo x).pending = s.pending ∧ (s.setFifo site fifo x).now = s.now ∧ (s.setFifo site fifo x).staged = s.staged ∧
    (s.setFifo site fifo x).vcp = s.vcp ∧ (s.setFifo site fifo x).role = s.role ∧ (s.setFifo site fifo x).escs = s.escs ∧
    (s.setFifo site fifo x).pools = s.pools ∧ (s.setFifo site fifo x).fwd = s.fwd ∧ (s.setFifo site fifo x).cipher = s.cipher ∧
    (s.setFifo site fifo x).egress = s.egress ∧ (s.setFifo site fifo x).video = s.video ∧ (s.setFifo site fifo x).audio = s.audio ∧
    (s.setFifo site fifo x).time = s.time ∧ (s.setFifo site fifo x).ports = s.ports ∧ (s.setFifo site fifo x).events = s.events ∧
    (s.setFifo site fifo x).start = s.start ∧ (s.setFifo site fifo x).power = s.power := by
  unfold State.setFifo; (repeat' split) <;> exact ⟨rfl, rfl, rfl, rfl, rfl, rfl, rfl, rfl, rfl, rfl, rfl, rfl, rfl, rfl, rfl, rfl, rfl⟩

@[simp] theorem State.setPort_frame (s : State) (p : Nat) (x : Port) :
    (s.setPort p x).pending = s.pending ∧ (s.setPort p x).now = s.now ∧ (s.setPort p x).staged = s.staged ∧ (s.setPort p x).vcp = s.vcp ∧
    (s.setPort p x).role = s.role ∧ (s.setPort p x).escs = s.escs ∧ (s.setPort p x).pools = s.pools ∧ (s.setPort p x).fwd = s.fwd ∧
    (s.setPort p x).cipher = s.cipher ∧ (s.setPort p x).egress = s.egress ∧ (s.setPort p x).video = s.video ∧
    (s.setPort p x).audio = s.audio ∧ (s.setPort p x).time = s.time ∧ (s.setPort p x).mem = s.mem ∧ (s.setPort p x).events = s.events ∧
    (s.setPort p x).start = s.start ∧ (s.setPort p x).power = s.power := by
  unfold State.setPort; (repeat' split) <;> exact ⟨rfl, rfl, rfl, rfl, rfl, rfl, rfl, rfl, rfl, rfl, rfl, rfl, rfl, rfl, rfl, rfl, rfl⟩

@[simp] theorem State.modPort_frame (s : State) (p : Nat) (f : Port → Port) :
    (s.modPort p f).pending = s.pending ∧ (s.modPort p f).now = s.now ∧ (s.modPort p f).staged = s.staged ∧ (s.modPort p f).vcp = s.vcp ∧
    (s.modPort p f).role = s.role ∧ (s.modPort p f).escs = s.escs ∧ (s.modPort p f).pools = s.pools ∧ (s.modPort p f).fwd = s.fwd ∧
    (s.modPort p f).cipher = s.cipher ∧ (s.modPort p f).egress = s.egress ∧ (s.modPort p f).video = s.video ∧
    (s.modPort p f).audio = s.audio ∧ (s.modPort p f).time = s.time ∧ (s.modPort p f).mem = s.mem ∧ (s.modPort p f).events = s.events ∧
    (s.modPort p f).start = s.start ∧ (s.modPort p f).power = s.power := by
  unfold State.modPort; (repeat' split) <;> exact ⟨rfl, rfl, rfl, rfl, rfl, rfl, rfl, rfl, rfl, rfl, rfl, rfl, rfl, rfl, rfl, rfl, rfl⟩

@[simp] theorem State.modIface_frame (s : State) (p i : Nat) (f : Iface → Iface) :
    (s.modIface p i f).pending = s.pending ∧ (s.modIface p i f).now = s.now ∧ (s.modIface p i f).staged = s.staged ∧
    (s.modIface p i f).vcp = s.vcp ∧ (s.modIface p i f).role = s.role ∧ (s.modIface p i f).escs = s.escs ∧
    (s.modIface p i f).pools = s.pools ∧ (s.modIface p i f).fwd = s.fwd ∧ (s.modIface p i f).cipher = s.cipher ∧
    (s.modIface p i f).egress = s.egress ∧ (s.modIface p i f).video = s.video ∧ (s.modIface p i f).audio = s.audio ∧
    (s.modIface p i f).time = s.time ∧ (s.modIface p i f).mem = s.mem ∧ (s.modIface p i f).events = s.events ∧
    (s.modIface p i f).start = s.start ∧ (s.modIface p i f).power = s.power := by
  unfold State.modIface; (repeat' split) <;> exact ⟨rfl, rfl, rfl, rfl, rfl, rfl, rfl, rfl, rfl, rfl, rfl, rfl, rfl, rfl, rfl, rfl, rfl⟩

@[simp] theorem State.setLane_frame (s : State) (site : Nat) (x : Lane) :
    (s.setLane site x).pending = s.pending ∧ (s.setLane site x).now = s.now ∧ (s.setLane site x).staged = s.staged ∧
    (s.setLane site x).vcp = s.vcp ∧ (s.setLane site x).role = s.role ∧ (s.setLane site x).escs = s.escs ∧
    (s.setLane site x).pools = s.pools ∧ (s.setLane site x).fwd = s.fwd ∧ (s.setLane site x).cipher = s.cipher ∧
    (s.setLane site x).egress = s.egress ∧ (s.setLane site x).video = s.video ∧ (s.setLane site x).audio = s.audio ∧
    (s.setLane site x).time = s.time ∧ (s.setLane site x).mem = s.mem ∧ (s.setLane site x).events = s.events ∧
    (s.setLane site x).start = s.start ∧ (s.setLane site x).power = s.power := by
  unfold State.setLane; (repeat' split) <;> exact ⟨rfl, rfl, rfl, rfl, rfl, rfl, rfl, rfl, rfl, rfl, rfl, rfl, rfl, rfl, rfl, rfl, rfl⟩

@[simp] theorem State.modLane_frame (s : State) (site : Nat) (f : Lane → Lane) :
    (s.modLane site f).pending = s.pending ∧ (s.modLane site f).now = s.now ∧ (s.modLane site f).staged = s.staged ∧
    (s.modLane site f).vcp = s.vcp ∧ (s.modLane site f).role = s.role ∧ (s.modLane site f).escs = s.escs ∧
    (s.modLane site f).pools = s.pools ∧ (s.modLane site f).fwd = s.fwd ∧ (s.modLane site f).cipher = s.cipher ∧
    (s.modLane site f).egress = s.egress ∧ (s.modLane site f).video = s.video ∧ (s.modLane site f).audio = s.audio ∧
    (s.modLane site f).time = s.time ∧ (s.modLane site f).mem = s.mem ∧ (s.modLane site f).events = s.events ∧
    (s.modLane site f).start = s.start ∧ (s.modLane site f).power = s.power := by
  exact State.setLane_frame s site (f (s.lane site))

@[simp] theorem State.setIpl_frame (s : State) (dir : Nat) (x : IplDir) :
    (s.setIpl dir x).pending = s.pending ∧ (s.setIpl dir x).now = s.now ∧ (s.setIpl dir x).staged = s.staged ∧
    (s.setIpl dir x).vcp = s.vcp ∧ (s.setIpl dir x).role = s.role ∧ (s.setIpl dir x).escs = s.escs ∧ (s.setIpl dir x).pools = s.pools ∧
    (s.setIpl dir x).fwd = s.fwd ∧ (s.setIpl dir x).cipher = s.cipher ∧ (s.setIpl dir x).egress = s.egress ∧
    (s.setIpl dir x).video = s.video ∧ (s.setIpl dir x).audio = s.audio ∧ (s.setIpl dir x).time = s.time ∧ (s.setIpl dir x).mem = s.mem ∧
    (s.setIpl dir x).events = s.events ∧ (s.setIpl dir x).start = s.start ∧ (s.setIpl dir x).power = s.power := by
  unfold State.setIpl; (repeat' split) <;> exact ⟨rfl, rfl, rfl, rfl, rfl, rfl, rfl, rfl, rfl, rfl, rfl, rfl, rfl, rfl, rfl, rfl, rfl⟩

@[simp] theorem State.modOtp_frame (s : State) (p : Nat) (f : OtpBlock → OtpBlock) :
    (s.modOtp p f).pending = s.pending ∧ (s.modOtp p f).now = s.now ∧ (s.modOtp p f).staged = s.staged ∧ (s.modOtp p f).vcp = s.vcp ∧
    (s.modOtp p f).role = s.role ∧ (s.modOtp p f).escs = s.escs ∧ (s.modOtp p f).pools = s.pools ∧ (s.modOtp p f).fwd = s.fwd ∧
    (s.modOtp p f).cipher = s.cipher ∧ (s.modOtp p f).egress = s.egress ∧ (s.modOtp p f).video = s.video ∧
    (s.modOtp p f).audio = s.audio ∧ (s.modOtp p f).time = s.time ∧ (s.modOtp p f).mem = s.mem ∧ (s.modOtp p f).ports = s.ports ∧
    (s.modOtp p f).events = s.events ∧ (s.modOtp p f).power = s.power := by
  unfold State.modOtp; (repeat' split) <;> exact ⟨rfl, rfl, rfl, rfl, rfl, rfl, rfl, rfl, rfl, rfl, rfl, rfl, rfl, rfl, rfl, rfl, rfl⟩

@[simp] theorem State.modFw_frame (s : State) (p : Nat) (f : FirmwareStore → FirmwareStore) :
    (s.modFw p f).pending = s.pending ∧ (s.modFw p f).now = s.now ∧ (s.modFw p f).staged = s.staged ∧ (s.modFw p f).vcp = s.vcp ∧
    (s.modFw p f).role = s.role ∧ (s.modFw p f).escs = s.escs ∧ (s.modFw p f).pools = s.pools ∧ (s.modFw p f).fwd = s.fwd ∧
    (s.modFw p f).cipher = s.cipher ∧ (s.modFw p f).egress = s.egress ∧ (s.modFw p f).video = s.video ∧ (s.modFw p f).audio = s.audio ∧
    (s.modFw p f).time = s.time ∧ (s.modFw p f).mem = s.mem ∧ (s.modFw p f).ports = s.ports ∧ (s.modFw p f).events = s.events ∧
    (s.modFw p f).power = s.power := by
  unfold State.modFw; (repeat' split) <;> exact ⟨rfl, rfl, rfl, rfl, rfl, rfl, rfl, rfl, rfl, rfl, rfl, rfl, rfl, rfl, rfl, rfl, rfl⟩

@[simp] theorem State.modDie_frame (s : State) (d : Nat) (f : DieState → DieState) :
    (s.modDie d f).pending = s.pending ∧ (s.modDie d f).now = s.now ∧ (s.modDie d f).staged = s.staged ∧ (s.modDie d f).vcp = s.vcp ∧
    (s.modDie d f).role = s.role ∧ (s.modDie d f).escs = s.escs ∧ (s.modDie d f).pools = s.pools ∧ (s.modDie d f).fwd = s.fwd ∧
    (s.modDie d f).cipher = s.cipher ∧ (s.modDie d f).egress = s.egress ∧ (s.modDie d f).video = s.video ∧
    (s.modDie d f).audio = s.audio ∧ (s.modDie d f).time = s.time ∧ (s.modDie d f).mem = s.mem ∧ (s.modDie d f).ports = s.ports ∧
    (s.modDie d f).events = s.events ∧ (s.modDie d f).power = s.power := by
  unfold State.modDie; (repeat' split) <;> exact ⟨rfl, rfl, rfl, rfl, rfl, rfl, rfl, rfl, rfl, rfl, rfl, rfl, rfl, rfl, rfl, rfl, rfl⟩

/- A read after a write. -/

@[simp] theorem State.exp_setExport (s : State) (p : Nat) (x : Export) : (s.setExport p x).cipher.exp p = x := by
  unfold State.setExport CipherState.exp; split <;> rfl
@[simp] theorem State.imp_setImport (s : State) (p : Nat) (x : Import) : (s.setImport p x).cipher.imp p = x := by
  unfold State.setImport CipherState.imp; split <;> rfl
@[simp] theorem State.port_setPort (s : State) (p : Nat) (x : Port) : (s.setPort p x).port p = x := by
  unfold State.setPort State.port PortsState.setPort PortsState.port; split <;> rfl
@[simp] theorem State.ipl_setIpl (s : State) (d : Nat) (x : IplDir) : (s.setIpl d x).ports.ipl d = x := by
  unfold State.setIpl PortsState.ipl; split <;> rfl
@[simp] theorem State.port_setPtp (s : State) (p : Nat) (x : PtpPort) : (s.setPtp p x).time.port p = x := by
  unfold State.setPtp TimeState.port; split <;> rfl

end Sys2Proof.Machine
end

