-- ==== Sys2Proof/Tests/Slice0.lean ====
section
/-! SUPPORT. Tests: ill-formed commands are refused by name of their check; values that the spec or a standard gives; and, for each
statement with hypotheses, states and operands that meet them (`wit_<statement>`, one conjunct for each clause). -/

set_option Elab.async false

namespace Sys2Proof.Tests

open Sys2Proof Sys2Proof.Machine

/- Ill-formed terms. -/

/-- The address of port A in the states below. -/
def home : Nat := 3232235786
def aPeer : Peer := { port := 0, addr := 3232235787, udp := 5555, localAddr := home, localUdp := 4740 }
def aRef : CmdRef := { dt := 0, session := 9, seq := 1, tag := 5 }
/-- A packet of a session whose four keys are all zeros, sealed as R34 says. -/
def vcpOf (type session seq : Nat) (payload : List Byte) : VcpRx :=
  let h := vcpHeader type session seq payload.length
  { dt := 0, peer := aPeer, bytes := h ++ gcmSeal (zeros 32) (vcpNonce 0 seq) h payload }
def nopPayload : CmdPayload := { records := [{ opcode := 1, tag := 0 }] }
def aVcp : VcpRx := vcpOf 4 9 2 nopPayload.bytes
/-- A hello with a certificate of four bytes; its share is the generator. -/
def helloOf (random : Nat) (caKey : Option Nat) : HelloRx :=
  let payload := beBytes 32 random ++ beBytes 2 1280 ++ beBytes 2 4 ++ [4] ++ beBytes 96 curveG ++ zeros 3 ++ [1, 2, 3, 4]
  { dt := 0, peer := aPeer, bytes := vcpClear 1 0 payload, caKey := caKey, subjectKey := curveG, notAfter := 2 ^ 40 }
def aHello : HelloRx := helloOf 1 none
/-- A frame of at least 64 bytes. -/
def framed (b : List Byte) : List Byte := let c := b ++ zeros (60 - b.length); c ++ fcsBytes c
def udpFrame (src dst sport dport : Nat) (payload : List Byte) : List Byte :=
  framed (NetHdr.frame { dstMac := 1, srcMac := 2, src := src, dst := dst, sport := sport, dport := dport } payload)
def rtpHdr : RtpPkt := { ssrc := 4660, pt := 96, body := [7, 8] }
def aRtp : RtpRx := { dt := 0, port := 0, bytes := udpFrame 5 3325256711 6000 5004 (rtpHdr.header ++ rtpHdr.body) }
def ptpOf (m : PtpMsg) : PtpRx := { dt := 0, port := 0, rxMac := 0, bytes := framed (ethBytes 0x011B19000000 7 0 0x88F7 m.bytes) }
def aPtp (kind : Nat) : PtpRx := ptpOf { kind := kind, source := 1 * 65536 + 1 }
def aFrame : FrameRx := { dt := 0, port := 0, bytes := framed (ethBytes 1 2 0 0x0806 []) }

theorem test_wellFormed_terms_pass : (Instr.clientHello aHello).wf ∧ (Instr.vcpPacketRejected aVcp).wf ∧ (Instr.cmdNop aRef []).wf ∧
    (Instr.rtpPacket aRtp).wf ∧ (Instr.ptpSyncReceived (aPtp 0)).wf ∧ (Instr.receivedFrame aFrame).wf := by decide +kernel

theorem test_portOk_refuses : (Instr.dhcpTimeout 0 2).wf = false := by decide
theorem test_packageOk_refuses : (Instr.sealComplete 0 2).wf = false := by decide
theorem test_ifaceOk_refuses : (Instr.upHoldEnd 0 0 8).wf = false := by decide
theorem test_dieOk_refuses : (Instr.taskStart 0 8 1).wf = false := by decide
theorem test_clusterOk_refuses : (Instr.escapementWalk 0 192).wf = false := by decide
theorem test_stackOk_refuses : (Instr.temperatureReading 0 10 0).wf = false := by decide
theorem test_channelOk_refuses : (Instr.hbmScrub 0 0 32 []).wf = false := by decide
theorem test_familyOk_refuses : (Instr.dhcpReply 0 0 5 0 0 0 0 0 0).wf = false := by decide
theorem test_addressOk_refuses : (Instr.dhcpReply 0 0 6 (2 ^ 128) 0 0 0 0 0).wf = false := by decide
theorem test_bits16_refuses : (Instr.cmdNop { aRef with tag := 65536 } []).wf = false := by decide
theorem test_bits32_refuses : (Instr.sessionErase 0 (2 ^ 32)).wf = false := by decide
theorem test_bits64_refuses : (Instr.reply 0 0 (2 ^ 64)).wf = false := by decide
theorem test_blockOk_refuses : blockOk (List.replicate 65536 0) = false := by rw [blockOk, List.length_replicate]; decide
theorem test_peer_refuses : (Instr.clientHello { aHello with peer := { aPeer with udp := 65536 } }).wf = false := by decide
theorem test_cmdRef_refuses : (Instr.cmdNop { aRef with session := 2 ^ 32 } []).wf = false := by decide
theorem test_hello_refuses : (Instr.clientHello { aHello with peer := { aPeer with localUdp := 65536 } }).wf = false := by decide
theorem test_vcp_refuses : (Instr.vcpPacketRejected { aVcp with peer := { aPeer with vid := 4096 } }).wf = false := by decide
theorem test_rtp_refuses : (Instr.rtpPacket { aRtp with port := 2 }).wf = false := by decide
theorem test_ptp_refuses : (Instr.ptpSyncReceived { aPtp 0 with bytes := zeros 63 }).wf = false := by decide +kernel
theorem test_frame_refuses : (Instr.receivedFrame { aFrame with iface := 8 }).wf = false := by decide
theorem test_rowRanges_refuse : (Instr.triggerWord 0 0 2 0 0 []).wf = false ∧ (Instr.refreshDue 0 0 0 9 []).wf = false ∧
    (Instr.bringupStageComplete 0 0 0 4 []).wf = false ∧ (Instr.laneFailure 0 0 18 0 0).wf = false ∧ (Instr.eventPacketSend 0 0 2).wf = false ∧
    (Instr.bistSliceStart 0 0 8 0).wf = false ∧ (Instr.fanFailed 0 6 0).wf = false ∧ (Instr.psuInput 0 2 0).wf = false ∧
    (Instr.psuFault 0 0 4).wf = false ∧ (Instr.dfeTapLimit 0 0 0 15).wf = false ∧ (Instr.unicastNegotiation { aPtp 12 with port := 2 }).wf = false := by decide

/- Values. The check values of the CRCs are those published for the string "123456789". -/

def nine : List Byte := [0x31, 0x32, 0x33, 0x34, 0x35, 0x36, 0x37, 0x38, 0x39]

theorem test_crc8 : crc8 (bytesBits nine) = 0xF4 := by decide +kernel
theorem test_crc16 : crc16 nine = 0x29B1 := by decide +kernel
theorem test_crc32 : crc32 (nine.map (·.toNat)) = 0xCBF43926 := by decide +kernel
/-- FIPS 197, appendix C: AES-128 and AES-256. -/
theorem test_aes : aes (roundKeys (beBytes 16 0x000102030405060708090A0B0C0D0E0F)) 0x00112233445566778899AABBCCDDEEFF = 0x69C4E0D86A7B0430D8CDB78070B4C55A ∧
    aes (roundKeys (beBytes 32 0x000102030405060708090A0B0C0D0E0F101112131415161718191A1B1C1D1E1F)) 0x00112233445566778899AABBCCDDEEFF =
      0x8EA2B7CA516745BFEAFC49904B496089 := by decide +kernel
/-- FIPS 180: the digests of "abc". -/
theorem test_hashes : beNat (hashOf .sha1 [0x61, 0x62, 0x63]) = 0xA9993E364706816ABA3E25717850C26C9CD0D89D ∧
    beNat (sha384 [0x61, 0x62, 0x63]) =
      0xCB00753F45A35E8BB5A03D699AC65007272C32AB0EDED1631A8B605A43FF5BED8086072BA1E7CC2358BAECA134C825A7 := by decide +kernel
/-- RFC 3711, appendix B.3: session key and salt. -/
theorem test_srtpDerive :
    let d := srtpDerive (beBytes 16 0xE1F97A0D3E018BE0D64FA32C06DE4139) (beBytes 14 0x0EC675AD498AFEEBB6960B3AABE6)
    beNat (d 0 16) = 0xC61E7A93744F39EE10734AFE3FF7A087 ∧ beNat (d 2 14) = 0x30CBBC08863D8C85D49DB34A9AE1 := by decide +kernel
/-- A well-known IPv4 header, whose checksum is 0xB861. -/
theorem test_ipv4Sum : inetSum (beBytes 20 0x450000730000400040110000C0A80001C0A800C7) = 0xB861 := by decide +kernel
/-- What is written as a packet is read back from it. -/
theorem test_rtp_read_back : aRtp.rtp = rtpHdr ∧ aRtp.udpOk = true ∧ fcsGood aRtp.bytes = true ∧ aRtp.dstUdp = 5004 := by decide +kernel
/-- R248. -/
theorem test_lin : lin 0 = 268435456 ∧ lin (-4608) = 33794022 ∧ lin 4608 = 2132258619 ∧ lin gainOff = 0 := by decide +kernel
/-- R250: at n = R the code is the target, and off counts as −24,576. -/
theorem test_ramp : Ramp.code { s := 0, t := -2560, r := 480, n := 0 } 480 = -2560 ∧ Ramp.code { s := gainOff, t := 0, r := 24, n := 0 } 12 = -12288 := by decide +kernel
/-- The reference slot set of decode stream 0x12 on D3 (Table 14.4). -/
theorem test_handle : mkHandle 0x03 3 0x12 = 0x0CC00012 := by decide +kernel
/-- The worked charge of 3840 × 2160 at 30 frames/s. -/
theorem test_charge : charged { maxWidth := 3840, maxHeight := 2160 } * 30 = 248832000 := by decide +kernel
/-- R60: beat 399 of second 7. -/
theorem test_audioBeat : Grid.audio.beatAt (400 * 7 + 399) = sec 7 + ns 997500000 := by decide +kernel
/-- Network byte order (R31). -/
theorem test_bigEndian : beBytes 4 0x01020304 = [1, 2, 3, 4] ∧ beNat [1, 2, 3, 4] = 0x01020304 := by decide +kernel

/- A module in service with one session, and the command that stands next in its packet. -/

def svcPort : Port :=
  { mode := 1, cfg := { mode := 1, mtu := 1518 }, optics := some { media := 1, modes := [1, 2, 3], advertisedMs := 0, highWarning := 100, insertedAt := 0 },
    ifaces := [(0, { stage := 7 })] }

def addrA : PortAddr := { phase := .bound 4, family := 4, addr := home, infinite := true }

def svc : State :=
  { now := sec 1000
    start := { run := .service, dies := (List.range 8).map (fun d => (d, { fenced := false })) }
    role := { up0 := true, up1 := true }
    ports := { portA := svcPort, portB := svcPort }
    vcp := { sessions := [{ id := 9 }], addrA := addrA } }

/-- The state with one packet in execution, whose one record is the command of this opcode and block. -/
def one (s : State) (op : Nat) (b : List Byte) : State :=
  { s with vcp := { s.vcp with executing := [{ session := 9, seq := 1, arrival := s.now, todo := [{ opcode := op, tag := 5, block := b }] }] } }

/-- The command of these fields is accepted in s. -/
def okAt (d : CmdDef) (s : State) (v : List Nat) (tail : List Byte := []) : Bool :=
  let b := writeFields d.fields v ++ tail
  (d.accepts aRef b (one s d.opcode b)).isSome

/-- What it leaves, once its changes have taken effect. -/
def did (s : State) (d : CmdDef) (v : List Nat) (tail : List Byte := []) : State :=
  let b := writeFields d.fields v ++ tail
  match d.accepts aRef b (one s d.opcode b) with
  | some (z, p, e) => applyAll ((d.effect e).stage.map (·.2)) { z.completed p d.opcode 5 (d.effect e) with staged := [] }
  | none => s

/- Every command of a packet is accepted somewhere. -/

def timv : List Nat := [0, 0, 0, 0, 0, 0, 0, 1, 0, 0, 1000]

theorem wit_BaseCommandsComplete :
    okAt nopDef svc [] ∧ okAt sessionCloseDef svc [9] ∧ okAt moduleInfoDef svc [] ∧ okAt setAddressDef svc [0, 4, 24, 3232235786, 0, 4740, 0] ∧ okAt claimQueryDef svc [0, 0] ∧
    okAt claimReleaseDef (did svc timerSetDef timv) [1] := by decide +kernel

def cl : Nat := mkSite 7 0 0 0 0 0

theorem wit_TaskCommandsComplete :
    okAt escStatusDef svc [cl] ∧ okAt tableReadDef svc [cl, 0, 0, 0, 16] ∧ okAt poolStatusDef svc [tpSite 0] ∧ okAt traceArmDef svc [cl, 0, 0] ∧
    okAt traceReadDef svc [cl, 0, 1] := by decide +kernel

def strv : List Nat := [0, 0, 4, 0, 3325256711, 5004, 4660, 0, 2, 0, 0, 0, 0, 0, 0, 0, 0, 0xFF]
def legv : List Nat := [0xFFFFFFFF, 0, 0, 0, 0, 0xFFFFFFFF, 65536, 2048, 1518, 1, 0xFFFFFFFF]
def tgtv : List Nat := [0, 0, 0, 4, 0, 3405803785, 6000, 7000, 0, 0, 77, 0, 0xFF, 0, 0, 0xFF, 0xFF, 0xFF, 0]
def keyv : List Nat := [0, 1, 16, 14, 0, 0, 7 * 256 ^ 16, 3 * 256 ^ 2, 4096, 4096, 0]
def streamed : State := did svc streamCreateDef strv
def legged : State := did streamed legSetDef legv
def targeted : State := did legged targetAddDef tgtv
def keyed : State := did (did svc keyInstallDef keyv) keyInstallDef keyv
/-- Stream and target are under key context 1. -/
def secured : State :=
  did (did (did keyed streamCreateDef [0, 0, 4, 0, 3325256711, 5004, 4660, 1, 2, 0, 0, 0, 0, 0, 0, 0, 0, 0xFF]) legSetDef legv) targetAddDef
    [0, 0, 0, 4, 0, 3405803785, 6000, 7000, 0, 1, 77, 0, 0xFF, 0, 0, 0xFF, 0xFF, 0xFF, 0]

theorem wit_ForwardingCommandsComplete :
    okAt streamCreateDef svc strv ∧ okAt streamDeleteDef streamed [0] ∧ okAt targetAddDef legged tgtv ∧ okAt targetSelectDef targeted [0, 0, 0, 0, 0xFF] ∧
    okAt targetRemoveDef targeted [0, 0] ∧ okAt streamPinDef secured [0, 0] ∧ okAt streamUnpinDef (did secured streamPinDef [0, 0]) [0, 1] ∧
    okAt streamStatusDef streamed [0] ∧ okAt parseCountersDef svc [0] := by decide +kernel

def decv : List Nat := [mkSite 8 0 0 0 0 0, 4, 100, 31, 8, 1280, 720, 30, 1, 0, 0, 8, 8, 2, 262144, 2000000, 100000]
def outv : List Nat := [mkSite 8 0 0 0 4 0, 30, 0xFF, 1, 640, 360, 16, 128, 128]
def decoded : State := did svc decodeCreateDef decv
def outed : State := did decoded composeCreateDef outv
def sealed : State := did decoded sealKeyDef [0, 1, 7, 8]
def bufs : List Byte := beBytes 4 (decoded.video.decodes.getD 0 {}).streamBuffer ++ beBytes 4 1
def expv : List Nat := [0, 0, 4, 0, 77, 1, 3325256711, 5000, 5001, 1000, 0, 0, 1]
/-- An export whose image has been sent. -/
def exped : State :=
  let c := { svc.cipher with exp0 := { state := 3, imageId := 77, imageLen := 2000, next := 2, until_ := 2 } }; { svc with cipher := c }
def armv : List Nat := [0, 0, 4, 5, 3325256711, 3325256712, 5000, 4096, 0]

theorem wit_CipherCommandsComplete :
    (okAt keyInstallDef svc keyv ∧ okAt keyDeleteDef keyed [1] ∧ okAt keyStatusDef keyed [1] ∧ okAt keyLimitDef keyed [1, 2048, 2048] ∧
     okAt keyLinkDef keyed [1, 2] ∧ okAt keyRollDef secured [0, 0, 2]) ∧
    (okAt sealKeyDef svc [0, 1, 7, 8] ∧ okAt exportSendDef sealed expv bufs ∧ okAt exportResendDef exped [1, 0, 0, 0, 77, 0, 0, 0, 0, 0, 0, 0, 0] ∧
     okAt exportStatusDef svc [2, 0, 0, 0, 0, 0, 0, 0, 0, 0, 0, 0, 0] ∧ okAt exportDiscardDef exped [3, 0, 0, 0, 77, 0, 0, 0, 0, 0, 0, 0, 0]) ∧
    okAt importArmDef svc armv ∧ okAt importStatusDef svc [1, 0, 0, 0, 0, 0, 0, 0, 0] ∧
    okAt importDiscardDef (did svc importArmDef armv) [3, 0, 0, 5, 0, 0, 0, 0, 0] := by decide +kernel

def polv : List Nat := [0xFFFFFFFF, 0, 0, 0, 1000, 65536, 0, 65536]
def timed : State := did svc timerSetDef timv

theorem wit_EgressCommandsComplete :
    (okAt legSetDef svc legv ∧ okAt legDeleteDef legged [0] ∧
     okAt classSetDef svc ([0, 0, 4, 20] ++ List.replicate 8 1 ++ List.replicate 8 0xFFFFFFFF ++ [65536]) ∧
     okAt policerSetDef svc polv ∧ okAt policerDeleteDef (did svc policerSetDef polv) [1] ∧ okAt policerStatusDef (did svc policerSetDef polv) [1] ∧
     okAt dscpColourDef svc [0, 0]) ∧
    okAt timerSetDef svc timv ∧ okAt timerFreeDef timed [0, 1] ∧ okAt timerReadDef timed [0, 2] ∧
    okAt timerChangeDef timed [0, 3, 0, 0, 0, 0, 0, 1, 0, 0, 2000] ∧ okAt queueStatusDef legged [0] ∧
    okAt queueSamplingDef legged [0, 0, 1000, 1] (beBytes 4 0) := by decide +kernel

theorem wit_DecodeCommandsComplete :
    okAt decodeCreateDef svc decv ∧ okAt decodeDeleteDef decoded [0] ∧ okAt decodeSelectDef decoded [0, 0, 1] ∧ okAt decodeResyncDef decoded [0] ∧
    okAt decodeStatusDef decoded [0] ∧ okAt decodeLoadDef svc [mkSite 8 0 0 0 0 0] := by decide +kernel

def surf : Nat := (decoded.video.decodes.getD 0 {}).outs.getD 0 0
def layv : List Nat := [0, 0xFF, 0, 0, 1, surf, 0, 0, 640, 360, 0, 0, 640, 360, 255, 0, 3, 0, 16, 128, 128]
def gfx : State := did svc graphicCreateDef [0, 64, 64]
def gh : Nat := gfx.video.graphics.keys.getD 0 0
/-- One filter kind: taps of which each phase sums to 256 (R184). -/
def taps : List Byte := (([0, 0, 0, 256, 0, 0, 0, 0] ++ [0, 0, 256, 0, 0, 0]).map (beBytes 2)).flatten

theorem wit_ComposeCommandsComplete :
    (okAt composeCreateDef decoded outv ∧ okAt composeDeleteDef outed [0] ∧ okAt composeLayerDef outed layv ∧
     okAt composeRegionDef outed [0, 0xFF, 0, 0, 0, 0, 16, 16, 7] ∧ okAt composeStatusDef outed [0]) ∧
    okAt graphicCreateDef svc [0, 64, 64] ∧ okAt graphicWriteDef gfx [gh, 0, 4] [1, 2, 3, 4] ∧ okAt graphicFlipDef gfx [gh] ∧
    okAt graphicDeleteDef gfx [gh] ∧ okAt composeFilterDef svc [0, 1, 0, 1] taps := by decide +kernel

def pair : Nat := (outed.video.outputs.getD 0 {}).memoryPair
def encv : List Nat := [mkSite 8 0 0 0 2 0, pair, 1, 3, 1, 30, 640, 360, 1000, 200, 0, 0, 0, 0, 0, 1000, 0, 0xFF, 0, 1048576, noSite, noSite, noSite]
def encoded : State := did outed encodeCreateDef encv

theorem wit_EncodeCommandsComplete :
    okAt encodeCreateDef outed encv ∧ okAt encodeDeleteDef encoded [0] ∧
    okAt encodeSetDef encoded [0, 500, 0, 0, 0, 0xFF, 0, 0xFFFFFFFF, 0xFFFF, 0xFFFF, 0, 0] ∧ okAt encodeKeyframeDef encoded [0, 0] ∧
    okAt encodeRecoveryDef encoded [0, 1] ∧ okAt encodeStatusDef encoded [0] ∧ okAt encodeLoadDef svc [mkSite 8 0 0 0 2 0] := by decide +kernel

def audv : List Nat := [mkSite 8 0 0 4 0 0, 5, 1, 4, 10, 32000, 40000000, 65536 - 12800, 0xFF, 0, 2000000]
/-- One Opus leg, on slot 0 of the first audio unit. -/
def aLeg : AudioLeg := {}
def legA : State := let a := { svc.audio with legs := [(0, aLeg)] }; { svc with audio := a }

theorem wit_AudioCommandsComplete :
    okAt audioLegCreateDef svc audv ∧ okAt audioLegDeleteDef legA [0] ∧ okAt audioSetDef legA [0, 0xFF, 0xFF, 0xFF, 0, 24000, 0, 0x7FFF] ∧
    okAt audioStageDef legA [0, 0, 0x10, 0, 0, 2560, 0] ∧ okAt audioSteerDef legA [0, 128, 32] ∧ okAt audioStatusDef legA [0] ∧
    okAt audioLoadDef svc [mkSite 8 0 0 4 0 0] ∧ okAt audioTableDef svc [0, 0, 16] := by decide +kernel

def legB : State := let a := { svc.audio with legs := [(0, aLeg), (1, aLeg)] }; { svc with audio := a }
def node : List Byte := beBytes 2 0 ++ beBytes 2 1 ++ beBytes 2 0 ++ beBytes 2 24 ++ zeros 4
def grpv : List Nat := [0, 0xFF, 0, 3, 25, 1536, 65536 - 7680, 24, 24]
def grouped : State := did legA groupSetDef grpv
def member : List Byte := beBytes 2 0 ++ zeros 2

theorem wit_CrosspointCommandsComplete :
    (okAt xpNodeDef legB [0, 1] node ∧ okAt tieConnectDef svc [0, 0, 1, 0xFFFF, 0xFFFF] ∧
     okAt tieFreeDef (did svc tieConnectDef [0, 0, 1, 0xFFFF, 0xFFFF]) [1, 0, 1, 1536, 0xFFFF] ∧ okAt groupSetDef legA grpv ∧
     okAt groupDeleteDef grouped [0, 0, 1, 3, 25, 1536, 65536 - 7680, 24, 24] ∧ okAt memberAddDef grouped [0, 0, 0, 0, 1] member ∧
     okAt memberRemoveDef (did grouped memberAddDef [0, 0, 0, 0, 1] member) [0, 0, 1, 0, 1] member) ∧
    okAt xpNodeReadDef svc [0, 0, 0] ∧ okAt xpStatusDef svc [xpSite 0] ∧ okAt xpTalkersDef grouped [0, 0] ∧ okAt gainTableDef svc [0, 16] := by decide +kernel

def bcv : List Nat := [0, 1, 1, 115, 16, 5, 200, 0, 65536 - 9216, 2048, 768, 10, 0]
def beac : State := did legA beaconSetDef bcv

theorem wit_BeaconCommandsComplete :
    okAt beaconSetDef legA bcv ∧ okAt beaconStatusDef beac [0] ∧ okAt beaconHeardDef beac [0, 0] ∧ okAt beaconLoadingDef beac [0] ∧
    okAt beaconTableDef svc [0, 16] := by decide +kernel

def clkv : List Nat := [1, 0, 0, 0, 128, 128, 128, 6, 37]
def tov : List Nat := [0, 1, 1, 100000, 0, 0, 0, 0, 0, 0]
def touted : State := did svc timeOutSetDef tov
def regv (action : Nat) : List Nat := [action, 4, 1, 2, 0, 16, 0x400000, 0x40000, 0x640000, 0x640000, 1000, 100, 1000, 5000, 600, 14400]
def locked : State := let t := { svc.time with mode := .locked }; { svc with time := t }

theorem wit_TimeCommandsComplete :
    (okAt timeStatusDef svc [] ∧ okAt ptpClockDef svc clkv ∧ okAt ptpPortDef svc [0, 1, 0xFC, 0xFC, 0, 3, 0, 0, 0, 0, 0] ∧
     okAt ptpPortStatusDef (did svc ptpClockDef clkv) [0]) ∧
    (okAt regulatorSetDef svc (regv 0) ∧ okAt regulatorForceDef locked (regv 1) ∧ okAt regulatorReleaseDef svc (regv 2)) ∧
    okAt timeSetDef svc [timeRaw (sec 5000), 0xFFFF] ∧ okAt timeInDef svc [1, 0, 0] ∧ okAt timeOutSetDef svc tov ∧
    okAt timeOutFreeDef touted [1, 1, 1, 100000, 0, 0, 0, 0, 0, 1] ∧ okAt timeOutChangeDef touted [2, 1, 1, 200000, 0, 0, 0, 0, 0, 1] := by decide +kernel

theorem wit_MemoryCommandsComplete :
    okAt hbmStatusDef svc [mkSite 5 0 0 0 0 3] ∧ okAt (memReadDef []) svc [mkSite 5 0 0 0 0 3, 0, 4] ∧ okAt fifoStatusDef svc [dieSite 0, 0] ∧
    okAt auditDef svc [dieSite 0, 1] := by decide +kernel

def down : State :=
  let p := { svcPort with cfg := { svcPort.cfg with adminDown := 1 } }; let q := { svc.ports with portA := p }
  { svc with ports := q }
def ltv (a : Nat) : List Nat := [laneSite 0 0, a, 0, 1, 0, 0, 0, 64, 0]

theorem wit_PortCommandsComplete :
    (okAt portModeDef svc [0, 1, 0, 0, 9238, 100, 0, 10000000] ∧ okAt portStatusDef svc [0] ∧ okAt laneStatusDef svc [laneSite 0 0] ∧
     okAt laneQuietDef down [laneSite 0 0, 1, 1]) ∧
    (okAt laneTestEndDef down (ltv 0) ∧ okAt laneTestNearLoopbackDef down (ltv 1) ∧ okAt laneTestFarLoopbackDef down (ltv 2) ∧
     okAt laneTestPrbsDef down (ltv 3) ∧ okAt laneTestSlipDef (did down laneTestPrbsDef (ltv 3)) (ltv 4) ∧ okAt laneTestTxFfeDef down (ltv 5) ∧
     okAt laneTestFreezeDef down (ltv 6) ∧ okAt laneTestResumeDef down (ltv 7)) ∧
    okAt cmisReadDef svc [0, 0, 0, 0, 4] ∧ okAt cmisWriteDef svc [0, 0, 0, 100, 1] [1] := by decide +kernel

def subv (a : Nat) : List Nat := [a, 0, 10, 1000, 2 ^ 256 - 1]
def subbed : State := did svc cmdEventSubscribe (subv 0)
/-- One record has been released to the subscriber. -/
def heard : State :=
  let b : Subscriber := { session := 9, history := [{ seq := 7, rec_ := { stamp := sec 999, source := 224, code := 1 } }], nextSeq := 8 }
  let e := { svc.events with subs := [(0, b)] }
  { svc with events := e }

theorem wit_EventCommandsComplete :
    okAt cmdEventSubscribe svc (subv 0) ∧ okAt cmdEventCancel subbed (subv 1) ∧ okAt cmdEventStatus subbed [] ∧ okAt cmdEventReplay heard [7, 1] ∧
    okAt cmdEventRaise svc [7] := by decide +kernel

/-- Both spare slots hold the factory's image, and the header bytes that say a body of 0 bytes. -/
def imaged : State :=
  let x : Image := { factory := true, bytes := (List.range 80).map (fun i => (i, 0)) }
  let t := { svc.start with fw0 := { slot0 := { factory := true }, slot1 := x }, fw1 := { slot0 := { factory := true }, slot1 := x } }
  { svc with start := t }
/-- The generator of the curve of R33. -/
def point : Nat :=
  0x1D1C64F068CF45FFA2A63A81B7C13F6B8847A3E77EF14FE3DB7FCAFE0CBD10E8E826E03436D646AAEF87B2E247D4AF1E * 2 ^ 384 +
  0x8ABE1D7520F9C2A45CB1EB8E95CFD55262B70B29FEEC5864E19C054FF99129280E4646217791811142820341263C5315
def trusted : State :=
  let v := { imaged.vcp with sessions := [{ id := 9, certKey := point }] }; { imaged with vcp := v }
def repairing : State := let t := { svc.start with pendingRepairs0 := [{ site := dieSite 0, kind := 1, spare := 0, index := 0 }] }; { svc with start := t }
def jumpered : State := let t := { svc.start with jumper := true }; { svc with start := t }

theorem wit_StartCommandsComplete :
    (okAt startReportDef svc [] ∧ okAt resetRestartDef svc [0, noSite] ∧ okAt resetRecoverDieDef svc [1, dieSite 0] ∧ okAt resetClearDef svc [2, noSite] ∧
     okAt identityDef svc [0, 16] ∧ okAt attestDef svc [5]) ∧
    (okAt firmwareWriteDef svc [0, 16] (zeros 16) ∧ okAt firmwareCommitDef imaged [176] ∧ okAt firmwareStatusDef svc [] ∧ okAt otpReadDef svc [0, 1, 0, 4] ∧
     okAt otpWriteSettingsDef trusted [2, 1, 0] (beBytes 104 point) ∧ okAt otpWriteRepairsDef repairing [3, 0, 0]) ∧
    okAt bistControlDef svc [dieSite 0, 1] ∧ okAt bistResultsDef svc [dieSite 0, 0, 0] ∧ okAt testRunStartDef svc [dieSite 0, 0] ∧
    okAt testRunStatusDef svc [dieSite 0, 1] ∧ okAt testRunAbortDef svc [dieSite 0, 2] ∧ okAt dieFenceDef svc [dieSite 0] ∧
    okAt testUnlockDef jumpered [] := by decide +kernel

/-- A complete import whose one object is empty, sealed under seal key 0 as R128 says, and a buffer for it. -/
def theBuffer : Nat := mkHandle 1 0 1
def plainImage : List Byte := beBytes 4 1 ++ zeros 12
def imageHeader : List Byte := Export.header { imageId := 5, handles := [theBuffer] } plainImage.length
def image : List Byte := let m := (imageMsg 1 2 0 imageHeader plainImage false).finish; imageHeader ++ m.output ++ m.tag
def received : State :=
  let c := { svc.cipher with sealKeys0 := [(0, { encKey := 1, macKey := 2 })], imp0 := { state := 2, imageId := 5, imageLength := 128, segments := [(0, image)] } }
  let m := { svc.mem with buffers := [(theBuffer, { size := 4096 })] }
  { svc with cipher := c, mem := m }

theorem wit_importOpen : image.length = 128 ∧ okAt importOpenDef received [2, 0, 0, 5, 0, 0, 0, 0, 1] (beBytes 4 theBuffer) := by decide +kernel

/- Whole-machine rules, blocks and tables. -/

/-- The state in which a command of dt = 0 acts. -/
def z0 (s : State) : State := s.advance 0

def claimed : State :=
  let v := { svc.vcp with claims := [{ id := 1, site := 0, session := 9, opcode := 0x0409, taken := 0, res := .launchTimer 0 },
                                     { id := 4, site := 0, session := 0, opcode := 0, taken := 0, res := .bistSlice cl }], nextClaim := 5 }
  { svc with vcp := v }

theorem wit_StepRunsFrontCommand : ({ svc with pending := [.heartbeatLoss 0] } : State).pending = [.heartbeatLoss 0] := by decide
theorem wit_EmptyQueueIdles : svc.pending = [] := by decide
theorem wit_StepsKeepClaims : claimed.ClaimsInv ∧ ∃ t, step claimed = .next t :=
  ⟨⟨by decide, by decide⟩, claimed, rfl⟩
theorem wit_FieldsReadAsWritten : fieldsFit [fN 2, fR 1, fF 1 3, fT] [0xFFFF, 3, 2 ^ 128 - 2 ^ 16] = true := by decide +kernel
theorem wit_OmittedFieldsTakeDefaults :
    (fieldsFit [fN 1] [255] = true ∧ ∀ g ∈ [fD 2 7, fRD 1], ∃ d, g.dflt = some d ∧ d &&& g.rsv = 0) ∧
    (fieldsFit [fN 1] [255] = true ∧ (fN 2).dflt = none) ∧ (fieldsFit [fN 1] [255] = true ∧ [(1 : Byte)] ≠ [] ∧ [(1 : Byte)].length < (fN 2).w) := by
  refine ⟨⟨by decide +kernel, ?_⟩, by decide +kernel, by decide +kernel⟩
  intro g hg
  simp only [List.mem_cons, List.not_mem_nil, or_false] at hg
  rcases hg with rfl | rfl
  · exact ⟨7, by decide +kernel⟩
  · exact ⟨0, by decide +kernel⟩
theorem wit_FieldsAreBigEndian : 3 < 4 := by decide
theorem wit_LowestFreeIdentifier : 1 ≤ 3 ∧ 3 ∉ [1, 2] := by decide
theorem wit_TablesHoldWhatIsPut : Tab.wf ([(1, 5), (4, 6)] : Tab Nat) = true := by decide

/- Failing commands. -/

/-- KEY_DELETE of a context that does not exist, in a packet with these flags. -/
def failing (atomic stop failed : Bool) : State :=
  let b := writeFields keyDeleteDef.fields [1]
  let s := one svc 0x0302 b
  let v := { s.vcp with executing := s.vcp.executing.map (fun p => { p with atomic := atomic, stopOnError := stop, failed := failed }) }
  { s with vcp := v }
def failBlock : List Byte := writeFields keyDeleteDef.fields [1]

theorem wit_UndefinedOpcodesAreRefused : definedOpcode 0x0200 = false ∧ definedOpcode 0x1001 = false ∧ definedOpcode 0x0F0E = true ∧
    definedOpcode 0x0F0F = false ∧ ((failing false true false).vcp.packet 9 1).isSome = true ∧ ((failing true false false).vcp.packet 9 1).isSome = true ∧
    ((flushUndefined (failing true false false) { session := 9, seq := 1, atomic := true } [{ opcode := 0x1001, tag := 7 }]).2.results.map (fun x => (x.tag, x.status))) =
      [(7, .badOpcode)] := by decide +kernel
theorem wit_FailedCommands :
    ((keyDeleteDef.rejects aRef failBlock (failing false true false)).map (fun x => x.2.1.atomic)) = some false ∧
    ((keyDeleteDef.rejects aRef failBlock (failing true false false)).map (fun x => x.2.1.atomic)) = some true ∧
    ((keyDeleteDef.taken aRef failBlock (failing false true true)).map (fun x => (x.2.failed, x.2.stopOnError))) = some (true, true) ∧
    ((keyDeleteDef.taken aRef failBlock (failing false false true)).map (fun x => (x.2.failed, x.2.stopOnError, x.2.atomic, x.1.inSetting))) = some (true, false, false, false) ∧
    ((keyDeleteDef.taken aRef failBlock (failing true false false)).map (fun x => (x.2.failed, x.1.inSetting))) = some (false, false) ∧ aRef.firmwareFault = none := by decide +kernel
theorem wit_ErrorBlockNamesHolder :
    (claimed.vcp.holder (.bistSlice cl)).map (·.session) = some 0 ∧
    ((claimed.vcp.holder (.launchTimer 0)).map (·.session) = some 9 ∧ ∃ y ∈ claimed.vcp.sessions, y.id = 9 ∧ y.expired = none) ∧
    (let s := { claimed with vcp := { claimed.vcp with sessions := [] } }; (s.vcp.holder (.launchTimer 0)).map (·.session) = some 9 ∧
      ∀ y ∈ s.vcp.sessions, y.id = 9 → y.expired.isSome) := by
  refine ⟨by decide +kernel, ⟨by decide +kernel, { id := 9 }, by decide +kernel, by decide⟩, by decide +kernel, by decide +kernel⟩

def setting (s : State) : State := let t := { s.start with run := .setting }; { s with start := t }

theorem wit_SettingModeOpcodes :
    let s := setting (failing false false false)
    (keyDeleteDef.taken aRef failBlock s).map (fun x => (x.1.inSetting, x.2.stopped, x.2.atomic)) = some (true, false, false) ∧
    keyDeleteDef.setting = false ∧ nopDef.setting = true := by decide +kernel
theorem wit_CommandsChangeOnlyWhatWaits : (packetCommand (.cmdKeyDelete aRef failBlock)).isSome = true ∧ aRef.firmwareFault = none ∧
    changesAtOnce (.cmdKeyDelete aRef failBlock) = false := by decide +kernel

/- Sessions, packets, addresses, roles. -/

def hello0 : ServerHello := { moduleRandom := 0, session := 5, maxDatagram := 1280, validityUnchecked := false, settingMode := false, moduleShare := 0, signature := 0 }
def halfOpen (created : Instant) : State :=
  let v := { svc.vcp with half := [{ id := 5, clientRandom := 1, created := created, hello := hello0 }] }; { svc with vcp := v }
def sess (y : Session) : State := let v := { svc.vcp with sessions := [y] }; { svc with vcp := v }
def aged : Session := { id := 9, lastPacket := sec 940, established := 0 }
/-- A day later. -/
def late (y : Session) : State := { sess y with now := sec 86400 }

theorem wit_SessionsEnd :
    ((z0 (halfOpen (sec 995))).live = true ∧ ∃ h ∈ (z0 (halfOpen (sec 995))).vcp.half, h.id = 5 ∧ h.created + sec 5 ≤ (z0 (halfOpen (sec 995))).now) ∧
    ((z0 (sess aged)).live = true ∧ (z0 (sess aged)).vcp.session 9 = some aged ∧ aged.expired = none ∧ aged.lastPacket + sec 60 ≤ (z0 (sess aged)).now) ∧
    (let s := { sess aged with now := sec 82800 }; (z0 s).vcp.session 9 = some aged ∧ aged.expiringRaised = false ∧ aged.established + sec 86400 ≤ (z0 s).now + sec 3600) ∧
    ((z0 (late aged)).vcp.session 9 = some aged ∧ aged.established + sec 86400 ≤ (z0 (late aged)).now) ∧
    (let y := { aged with high := 2 ^ 32 }; (z0 (sess y)).vcp.session 9 = some y ∧ 2 ^ 32 ≤ y.high) ∧
    (let y := { aged with expired := some (sec 940) }; (z0 (sess y)).vcp.session 9 = some y ∧ sec 940 + sec 60 ≤ (z0 (sess y)).now) := by
  refine ⟨⟨by decide +kernel, _, List.mem_cons_self, by decide +kernel⟩, by decide +kernel, by decide +kernel, by decide +kernel, by decide +kernel, by decide +kernel⟩

/-- Key entry `point` is enrolled. -/
def enrolling (s : State) : State :=
  let t := { s.start with otp0 := { s.start.otp0 with settings := [(1, { keys := [point] })] } }; { s with start := t }
def goodHello (caKey : Nat) : HelloRx := helloOf 7 (some caKey)
/-- With this key and no digest, the signature r = s = the generator's x verifies. -/
def half1 (subjectKey : Nat) (created : Instant) : State :=
  let v := { svc.vcp with half := [{ id := 5, clientRandom := 1, created := created, hello := hello0, subjectKey := subjectKey }] }; { svc with vcp := v }
def finishing (sig : Nat) : VcpRx := vcpOf 3 5 0 (beBytes 96 sig)
def goodSig : Nat := let x := curveG / 2 ^ 384; x * 2 ^ 384 + x
def flooded : State := let v := { svc.vcp with addrA := { addrA with helloSecond := 1000, helloCount := 32 } }; { svc with vcp := v }
/-- A key path is broken. -/
def mute (s : State) : State :=
  let t := { s.start with otp0 := { s.start.otp0 with keyPath := false } }; { s with start := t }
def eightMore (s : State) : State := let v := { s.vcp with sessions := (List.range 8).map (fun k => { id := 10 + k }) }; { s with vcp := v }

/-- A hello that is fit to be judged, and its count within the second. -/
def helloFit (z : State) (h : HelloRx) (counted : Bool) : Bool :=
  let a := z.vcp.addr 0
  z.isVcp h.peer && decide (z.vcp.judge h.packet = .accept) && h.packet.type == 1 && ((perSecond a.helloSecond a.helloCount z.now 32).1 == counted)

theorem wit_SessionsAreEstablished :
    (let z := z0 (enrolling svc); helloFit z (goodHello point) true = true ∧ (∀ x ∈ z.vcp.half, x.clientRandom ≠ (goodHello point).clientRandom) ∧
      z.helloStatus (goodHello point) = none ∧ z.canSign = true) ∧
    (let z := z0 (mute (enrolling svc)); helloFit z (goodHello point) true = true ∧ z.helloStatus (goodHello point) = none ∧ z.canSign = false) ∧
    (let z := z0 (enrolling svc); helloFit z (goodHello 3) true = true ∧ z.helloStatus (goodHello 3) = some .certNotEnrolled) ∧
    (let z := z0 (half1 0 0); helloFit z aHello true = true ∧ (z.vcp.half.find? (fun y => y.clientRandom == aHello.clientRandom)).isSome = true) ∧
    helloFit (z0 flooded) aHello false = true := by decide +kernel
theorem wit_SessionsAreEstablished_finish :
    (let z := z0 (half1 curveG (sec 999)); let x := finishing goodSig
      z.isVcp x.peer = true ∧ x.type = 3 ∧ z.vcp.judge x = .accept ∧ (z.vcp.halfOpen x.session).map (fun h => (h.signedBy x, h.signedBy (finishing 5))) = some (true, false) ∧
      z.vcp.established.length < 8 ∧ z.vcp.judge (finishing 5) = .accept ∧ 8 ≤ (z0 (eightMore (half1 curveG 0))).vcp.established.length) := by decide +kernel

def answeredSession (tag : Nat) : Session :=
  { id := 9, high := 7, window := [{ seq := 7, tag := tag, st := .answered { cmdSeq := 7, status := .ok, arrival := 0, effective := 0 } }] }
def seventh : VcpRx := vcpOf 4 9 7 nopPayload.bytes

theorem wit_CheckedPackets :
    (z0 svc).isVcp aPeer = true ∧ (z0 svc).vcp.judge { aVcp with bytes := aVcp.bytes.take 40 ++ [1] ++ aVcp.bytes.drop 41 } = .drop 3 ∧
    (z0 svc).vcp.judge { aVcp with bytes := aVcp.bytes.take 2 ++ [2] ++ aVcp.bytes.drop 3 } = .version ∧
    (z0 (sess (answeredSession seventh.tag))).vcp.judge seventh = .resend { cmdSeq := 7, status := .ok, arrival := 0, effective := 0 } := by decide +kernel
theorem wit_ReplayWindow :
    (let y := answeredSession 3; y.high < 8 ∧ (7 ≤ y.high ∧ y.high < 7 + 1024 ∧ (y.entry 7).map (·.tag) = some 3 ∧ (4 : Nat) ≠ 3) ∧ (6 ≤ y.high ∧ y.entry 6 = none)) ∧
    (0 + 1024 ≤ ({ id := 9, high := 1024 } : Session).high) ∧
    (({ id := 9, high := 7, window := [{ seq := 7, tag := 3, st := .executing }] } : Session).entry 7).map (·.st) = some .executing := by decide +kernel

def crowded : State := let v := { svc.vcp with executing := List.replicate 64 { session := 9, seq := 1 } }; { svc with vcp := v }

theorem wit_BusyAndLatePackets :
    crowded.judgePacket { id := 9 } 2 nopPayload = some .busy ∧ 64 ≤ crowded.vcp.inExecution 9 ∧ crowded.vcp.inExecution 9 ≤ 64 ∧
    (let v := { crowded.vcp with executing := [] }; State.judgePacket { crowded with vcp := v } { id := 9 } 2 nopPayload = none) ∧
    (timeRaw (sec 999) % 2 ^ 16 = 0 ∧ timeOk (timeRaw (sec 999)) = true ∧ svc.judgePacket { id := 9 } 2 { nopPayload with deadline := 0 } = none ∧
      crowded.judgePacket { id := 9 } 2 { nopPayload with deadline := 0 } = some .busy) ∧
    (svc.now ≤ timeOf (timeRaw (sec 1000))) ∧ (timeRaw (sec 999) ≠ 0 ∧ timeOf (timeRaw (sec 999)) < svc.now) ∧
    svc.judgePacket { id := 9 } 2 { nopPayload with deadline := timeRaw (sec 999) } = some .deadlinePassed := by decide +kernel

/-- A pause frame, a frame that brings a COMMAND, and the frame's events: a FIFO's double-bit error. -/
def pauseFrame : FrameRx := { aFrame with bytes := framed (ethBytes 0x0180C2000001 2 0 0x8808 (beBytes 2 1 ++ beBytes 2 0)) }
def vcpFrameRx : FrameRx := { aFrame with bytes := udpFrame 3232235787 home 5555 4740 aVcp.bytes }
def spoils : List Hap := [.fifoUncorrected (dieSite 0) 0]

theorem wit_FramesAreReceived :
    let z := z0 svc
    z.receives 0 0 = true ∧ (({ aFrame with bytes := zeros 63 } : FrameRx).len < 64 ∧ ({ aFrame with bytes := zeros 64 } : FrameRx).fcsOk = false ∧
      z.mtu 0 < ({ aFrame with bytes := framed (zeros 1515) } : FrameRx).len) ∧
    (aFrame.fcsOk = true ∧ aFrame.len = 64 ∧ aFrame.len ≤ z.mtu 0 ∧ (spoils.any Hap.isDouble && !z.commandFrame aFrame) = true ∧
      (([] : List Hap).any Hap.isDouble && !z.commandFrame aFrame) = false ∧ aFrame.pause = false) ∧
    ({ aFrame with bytes := framed (zeros 1514) } : FrameRx).len = z.mtu 0 ∧
    (pauseFrame.fcsOk = true ∧ pauseFrame.len = 64 ∧ pauseFrame.pause = true) ∧
    (vcpFrameRx.fcsOk = true ∧ z.commandFrame vcpFrameRx = true ∧ (spoils.any Hap.isDouble && !z.commandFrame vcpFrameRx) = false ∧ vcpFrameRx.pause = false) := by
  decide +kernel
theorem wit_FramesAreReceived_command :
    let z := z0 svc; let c := readCommand ((aVcp.opened {}).getD [])
    (perSecond (z.vcp.addr 0).vcpSecond (z.vcp.addr 0).vcpCount z.now 20000).1 = true ∧ aVcp.type = 4 ∧ z.vcp.judge aVcp = .accept ∧
    z.vcp.session aVcp.session = some { id := 9 } ∧ z.judgePacket { ({ id := 9 } : Session) with lastPacket := z.now, peer := aPeer } aVcp.seq c = none ∧
    c.records = nopPayload.records := by decide +kernel

def staged1 : State := { svc with staged := [{ session := 9, seq := 1, scope := .instant, eff := some (sec 1000), change := .event (.cancel 9) }] }
def ranAll : State := let v := { svc.vcp with executing := [{ session := 9, seq := 1 }] }; { svc with vcp := v }

theorem wit_RepliesAndEffects :
    ((z0 ranAll).live = true ∧ (z0 ranAll).vcp.packet 9 1 = some { session := 9, seq := 1 }) ∧
    (staged1.live = true ∧ staged1.staged.length = 1 ∧ (staged1.staged.map (fun x => (x.scope, x.eff))) = [(.instant, some (sec 1000))] ∧ sec 1000 ≤ staged1.now) := by decide +kernel

def acquiring (a : PortAddr) : State := let v := { svc.vcp with addrA := a }; { svc with vcp := v }
/-- A lease of family 4 with T1, T2 and end at these instants. -/
def leased (t1 t2 e : Instant) : PortAddr := { phase := .bound 4, family := 4, addr := home, renewAt := t1, rebindAt := t2, leaseEnd := e }

theorem wit_AddressesAreAcquired :
    (let z := z0 (acquiring { phase := .dhcp6, phaseSince := sec 990 }); z.portRuns 0 = true ∧ (z.vcp.addr 0).phase = .dhcp6 ∧ (z.vcp.addr 0).phaseSince + sec 10 ≤ z.now ∧
      (z.vcp.addr 0).nextTx ≤ z.now) ∧
    (let z := z0 (acquiring { phase := .dhcp4, phaseSince := sec 990 }); (z.vcp.addr 0).phase = .dhcp4 ∧ (z.vcp.addr 0).phaseSince + sec 10 ≤ z.now ∧
      z.receives 0 0 = true ∧ (z.vcp.addr 0).phase.dhcpFamily = 4) ∧
    (let z := z0 (acquiring { leased 0 (sec 1000) (sec 1001) with asking := 2 }); (z.vcp.addr 0).nextTx ≤ z.now ∧ (z.vcp.addr 0).phase = .bound 4 ∧ (z.vcp.addr 0).asking ≠ 0) ∧
    (let z := z0 (acquiring (leased 0 0 (sec 1000))); (z.vcp.addr 0).infinite = false ∧ (z.vcp.addr 0).leaseEnd ≤ z.now) ∧
    (let z := z0 (acquiring (leased 0 (sec 1000) (sec 1001))); z.now < (z.vcp.addr 0).leaseEnd ∧ (z.vcp.addr 0).rebindAt ≤ z.now ∧ (z.vcp.addr 0).asking < 2) ∧
    (let z := z0 (acquiring (leased (sec 1000) (sec 1001) (sec 1002))); z.now < (z.vcp.addr 0).rebindAt ∧ (z.vcp.addr 0).renewAt ≤ z.now ∧ (z.vcp.addr 0).asking = 0) ∧
    ((z0 svc).vcp.addr 0).phase = .bound 4 ∧ ((z0 svc).vcp.addr 0).infinite = true := by decide +kernel

def beaten (b a : Instant) : State := let r := { svc.role with lastBeat := b, lastAnswer := a }; { svc with role := r }
def alone : State := let r := { svc.role with up1 := false }; { svc with role := r }

theorem wit_PackageRoles :
    ((z0 svc).live = true ∧ (z0 svc).role.lastTick + ms 1 ≤ (z0 svc).now) ∧
    (let s := { svc with role := { svc.role with lastTick := sec 1000 } }; (z0 s).now < (z0 s).role.lastTick + ms 1) ∧
    (let z := z0 (beaten (sec 1000 - ms 4) (sec 1000)); z.live = true ∧ z.role.up0 = true ∧ z.role.up1 = true ∧ z.role.lastBeat + ms 4 ≤ z.now) ∧
    (let z := z0 (beaten (sec 1000) (sec 1000 - ms 4)); z.role.lastAnswer + ms 4 ≤ z.now) ∧
    (let z := z0 alone; z.live = true ∧ z.role.up1 = false ∧ z.role.lastBeat + ms 4 ≤ z.now) ∧ svc.role.primary = 0 ∧
    svc.mayServe (1 - svc.role.primary) = true := by decide +kernel

/- Escapements and tasks. -/

/-- An instance on the pool of D0. -/
def inst (op : Op) (ph : Phase) : Inst :=
  { id := 1, cluster := 0, entry := 0, seg := 0, desc := { unit := unitSite 0 0, op := op, service := 1000, deadline := 1000000000 }, beat := sec 999, nextBeat := sec 1000, count := 1, phase := ph }
def pooled (i : Inst) : State := { svc with pools := [(0, { insts := [i], triggered := [(.audio, sec 999)], words := [{ grid := .audio, index := 400000, stamp := sec 1000 - ns 2 }] })] }
/-- Cluster 0 walks the audio grid; its latest beat is this. -/
def walking (last stallEnd : Instant) (stalled : List ToIssue) : State :=
  { svc with escs := [(0, { active := { entries := [{ }], segments := [{ slot := 0, count := 1 }], slots := [.audio] }, lastBeat := last, stallEnd := stallEnd, stalled := stalled })] }
def beat0 : Instant := sec 1000 - ns 2500000

theorem wit_TriggersAreReleased :
    (let z := z0 svc; let g := gridOf 0 0; z.serving = true ∧ z.dieUpBy 0 (g.beatAt 400001) = true ∧ z.gridRuns (pkgOfDie 0) g = true ∧
      z.now + ns 10000 ≤ g.beatAt 400001 ∧ (z.pool 0).triggerOf g = none ∧ (z.pool 0).words = []) ∧
    (let z := z0 (pooled (inst .join .ready)); let g := gridOf 0 0; (z.pool 0).triggerOf g = some (sec 999) ∧ sec 999 < g.beatAt 400001 ∧
      (∀ w ∈ (z.pool 0).words, w.grid = g → w.index < 400001) ∧ .fifoUncorrected (dieSite 0) 0 ∈ spoils ∧
      (((z.pool 0).words.filter (fun w => w.grid == g)).getLast?).map (·.index) = some 400000) ∧
    (let z := z0 (pooled (inst .join .ready)); ((z.pool 0).words.find? (fun w => w.grid == gridOf 0 0)).map (·.stamp) = some (sec 1000 - ns 2) ∧
      z.dieUp 0 = true ∧ releaseAt (sec 1000 - ns 2) ((z.pool 0).replicaNow (sec 1000 - ns 2)) = z.now) := by decide +kernel
theorem wit_EscapementsWalk :
    (let z := z0 (walking beat0 0 []); let b := sec 1000; let z1 := (z.swapBank 0 b).modEsc 0 (fun e => { e with lastBeat := b })
      z.serving = true ∧ (z.esc 0).stalled = [] ∧ z.nextWalk 0 = some b ∧ z.dieUpBy (clusterDie 0) b = true ∧ b - ns 100000 ≤ z.now ∧
      (z.esc 0).walkEnd ≤ z.now ∧ (z1.esc 0).stallEnd ≤ b - ns 100000) ∧
    (let z := z0 (walking beat0 (sec 1000) []); let b := sec 1000; let z1 := (z.swapBank 0 b).modEsc 0 (fun e => { e with lastBeat := b })
      z.nextWalk 0 = some b ∧ b - ns 100000 < (z1.esc 0).stallEnd) ∧
    (let z := z0 (walking (sec 1000) 0 []); z.nextWalk 0 = some (sec 1000 + ns 2500000) ∧ z.now < sec 1000 + ns 2500000 - ns 100000) ∧
    (let z := z0 ((walking beat0 0 []).modEsc 0 (fun e => { e with walkEnd := sec 1000 + 1 })); z.nextWalk 0 = some (sec 1000) ∧ z.now < (z.esc 0).walkEnd) ∧
    (let z := z0 (walking beat0 0 [{ seg := 0, entry := 0 }]); (z.esc 0).stalled = [{ seg := 0, entry := 0 }] ∧ z.dieUp (clusterDie 0) = true ∧
      (z.esc 0).active.entries[0]? = some ({ } : Descriptor) ∧ z.stallOf 0 0 { } = 0) := by decide +kernel
theorem wit_TasksStartInOrder :
    (let z := z0 (pooled (inst (.compose 0) .ready)); let i := inst (.compose 0) .ready
      z.serving = true ∧ z.dieUp 0 = true ∧ z.startsHeld 0 = false ∧ (z.pool 0).inst 1 = some i ∧ i.phase = .ready ∧ (z.pool 0).reached i = true ∧
      (∀ j ∈ (z.pool 0).insts, j.desc.unit = i.desc.unit → j.serving = false) ∧ i.desc.flow = 0 ∧
      (∀ j ∈ (z.pool 0).insts, j.desc.unit = i.desc.unit → (z.pool 0).startable j = true → Inst.before j i = false) ∧ i.desc.op ≠ .testWindow) ∧
    (let i := inst .join .waiting; ((z0 (pooled i)).pool 0).inst 1 = some i ∧ i.phase ≠ .ready) := by decide +kernel
theorem wit_TasksStartInOrder_begin : (((pooled (inst .mix .ready)).pool 0).inst 1 = some (inst .mix .ready)) ∧ ∀ id, (inst .mix .ready).desc.op ≠ .decode id :=
  ⟨by decide +kernel, fun _ h => by cases h⟩
theorem wit_TasksExpireAndWindowsEnd :
    (let i := { inst .join .waiting with beat := sec 999 - ns 1 }; let z := z0 (pooled i); z.serving = true ∧ z.dieUp 0 = true ∧ (z.pool 0).inst 1 = some i ∧
      i.phase = .waiting ∧ 0 < i.count ∧ i.deadline < wholeNs z.now) ∧
    (let i := inst .join .waiting; let z := z0 (pooled i); (z.pool 0).inst 1 = some i ∧ wholeNs z.now = i.deadline) ∧
    (let i := inst .testWindow .ready; let z := z0 (pooled i); (z.pool 0).inst 1 = some i ∧ i.desc.op = .testWindow ∧ i.phase = .ready ∧ (z.pool 0).next i = true) ∧
    (let i := inst .testWindow (.inService (sec 1000 - ns 1000)); let z := z0 (pooled i); (z.pool 0).inst 1 = some i ∧ sec 1000 - ns 1000 + ns i.desc.service ≤ z.now) := by
  decide +kernel
theorem wit_LateCompletionIsOverrun : ({ succ := [], record := true } : Descriptor).succ = [] ∧ ({ succ := [], record := true } : Descriptor).record = true := by decide
theorem wit_AudioGrid : 399 < 400 := by decide

/- Video and audio tasks. -/

def serving (op : Op) : State := pooled (inst op (.inService (sec 1000)))
def withLeg (s : State) (x : EncodeLeg) : State := let v := { s.video with encodes := [(0, x)] }; { s with video := v }
def gangLeg : EncodeLeg := { cfg := { gang := true }, tilesDone := (List.range 4).map (fun k => { beat := sec 999, tile := k }) }
def graphic1 : State := let v := { svc.video with graphics := [(5, { copyPending := some (sec 1000) })] }; { svc with video := v }
def abandoning : State := let v := { svc.video with decodes := [(0, { cfg := { reorderWait := 0 }, held := [{ ts := 1 }, { ts := 2, complete := true, completedAt := sec 1000 }] })] }; { svc with video := v }

theorem wit_VideoTasksComplete :
    ((z0 (serving (.decode 0))).dieUp 0 = true ∧ ((z0 (serving (.decode 0))).inService 0 1).map (·.desc.op) = some (.decode 0)) ∧
    ((z0 (serving (.compose 0))).inService 0 1).map (·.desc.op) = some (.compose 0) ∧
    (let z := z0 (withLeg (serving (.encode 0 0)) {}); (z.inService 0 1).map (·.desc.op) = some (.encode 0 0) ∧ (z.goneAt 0 (sec 999) GoneObj.asEncode).isNone = true ∧
      (z.takeScoped (.encoding 0) (sec 999)).encode 0 = some {} ∧ ({} : EncodeLeg).cfg.gang = false) ∧
    (let z := z0 (withLeg (serving (.encode 0 3)) gangLeg); (z.takeScoped (.encoding 0) (sec 999)).encode 0 = some gangLeg ∧ gangLeg.cfg.gang = true) ∧
    (let z := z0 (withLeg (serving (.gangFinish 0)) gangLeg); (z.inService 0 1).map (·.desc.op) = some (.gangFinish 0) ∧ z.encode 0 = some gangLeg ∧
      gangLeg.gangWhole (sec 999) = true ∧ EncodeLeg.gangWhole {} (sec 999) = false) ∧
    (let z := z0 graphic1; (z.video.graphics.find 5).map (·.copyPending) = some (some (sec 1000)) ∧ sec 1000 ≤ z.now ∧ drawsOld z 5 (sec 1000) = false) ∧
    (let z := z0 abandoning; (z.decode 0).map (·.abandonAt) = some (some (sec 1000)) ∧ sec 1000 ≤ z.now) := by decide +kernel
theorem wit_AudioTasksComplete :
    ((z0 (serving (.receive 0))).inService 0 1).map (·.desc.op) = some (.receive 0) ∧ (z0 (serving (.receive 0))).xAlone (legUnit 0) = false ∧
    ((z0 (serving (.send 0))).inService 0 1).map (·.desc.op) = some (.send 0) ∧
    ((z0 (serving .mix)).pool 0).inst 1 = some (inst .mix (.inService (sec 1000))) ∧
    ((z0 svc).live = true ∧ (z0 svc).dieUp 0 = true ∧ 8 ≤ Grid.audio.indexAtOrBefore (z0 svc).now) ∧ (z0 legA).audioLeg 0 = some aLeg := by decide +kernel

/- Packets, images, egress. -/

def stream0 : Stream := { cfg := { port := 0, family := 4, dstAddress := 3325256711, dstUdpPort := 5004, ssrc := 4660 } }
def streaming (x : Stream) : State := let f := { svc.fwd with streams := [(0, x)] }; { svc with fwd := f }
/-- Key context 1, with session keys of zeros; the stream under it, whose limits are not reached; and its packet, sealed as R114 says. -/
def key1 : KeyCtx := { srtpLimit := 4096, srtcpLimit := 4096, srtpKey := zeros 16, srtpAuth := zeros 20, srtpSalt := zeros 14 }
def ciphered (x : Stream) : State := let c := { svc.cipher with keys := [(1, key1)] }; { streaming x with cipher := c }
def keyStream : Stream := let c := { stream0.cfg with keyCtx := 1 }; { stream0 with cfg := c }
def sealedBody : List Byte := key1.srtpSeal 0 rtpHdr.header rtpHdr.body
def srtpOf (body : List Byte) : RtpRx := { aRtp with bytes := udpFrame 5 3325256711 6000 5004 (rtpHdr.header ++ body) }
/-- The packet with a wrong UDP checksum. -/
def badSum : RtpRx :=
  let b := NetHdr.frame { dstMac := 1, srcMac := 2, src := 5, dst := 3325256711, sport := 6000, dport := 5004 } (rtpHdr.header ++ rtpHdr.body)
  { aRtp with bytes := framed (b.dropLast ++ [0xEE]) }
def seen0 : Stream := { stream0 with highIndex := some 0, marks := [{ index := 0, final := true }] }
def cut0 : Cut :=
  { id := 3, ctx := 0, seq := 0, index := 0, keyUsed := 0, keyNamed := some 0, targets := [1], waiting := [], arrival := 0, tagAt := sec 1000, endAt := sec 1000 }
def cutting (c : Cut) : State := let s := streaming stream0; let f := { s.fwd with cuts := [c] }; { s with fwd := f }
/-- A sender report of this source. -/
def rtcpOfSsrc (ssrc : Nat) : FrameRx :=
  { aFrame with bytes := udpFrame 5 3325256711 6000 5004 ([0x80, 200] ++ beBytes 2 6 ++ beBytes 4 ssrc ++ zeros 20) }
def reached (s : State) (p : RtpRx) (x : Stream) : Bool :=
  let z := z0 s
  z.reachesClusters p.frame && fcsGood p.bytes && decide (z.contextOf p = some (0, x)) && decide (z.stream 0 = some x) &&
  (z.egress.policers.find x.cfg.policer).isNone

theorem wit_PacketsAreForwarded :
    (reached (streaming stream0) aRtp stream0 = true ∧ stream0.pinned = false ∧ rtpIndex stream0.highIndex aRtp.seq.toNat = some 0 ∧ stream0.replayed 0 = false ∧
      stream0.cfg.keyCtx = 0 ∧ aRtp.udpOk = true ∧ aRtp.poison = false) ∧
    (reached (streaming stream0) badSum stream0 = true ∧ badSum.udpOk = false) ∧
    (reached (streaming seen0) aRtp seen0 = true ∧ rtpIndex seen0.highIndex aRtp.seq.toNat = some 0 ∧ seen0.replayed 0 = true) ∧
    (let x := { stream0 with pinned := true }; reached (streaming x) aRtp x = true ∧ x.replayed 0 = false) ∧
    (let z := z0 (cutting cut0); (z.fwd.cuts.find? (fun c => c.id == 3 && c.verdict.isNone)).map (fun c => (c.good, c.frameOk, c.targets)) = some (true, true, [1]) ∧
      cut0.tagAt ≤ z.now ∧ (z.fwd.cuts.find? (fun c => c.id == 3 && !c.ended)).isSome = true ∧ cut0.endAt ≤ z.now) := by decide +kernel
theorem wit_PacketsAreForwarded_keyed :
    (let p := srtpOf sealedBody; let z := z0 (ciphered keyStream); let y := ((z.haps []).countArrival 0 p.len).modStream 0 (fun y => y.mark 0)
      reached (ciphered keyStream) p keyStream = true ∧ rtpIndex keyStream.highIndex p.seq.toNat = some 0 ∧ keyStream.replayed 0 = false ∧ keyStream.cfg.keyCtx ≠ 0 ∧
      z.namedKey keyStream p.rtp.body = some 1 ∧ (y.grant 1 false).2 = true ∧ z.verifies 1 0 p.header p.rtp.body = true) ∧
    (let p := srtpOf (sealedBody.dropLast ++ [1, 2]); (z0 (ciphered keyStream)).verifies 1 0 p.header p.rtp.body = false) := by decide +kernel
theorem wit_PacketsAreForwarded_rtcp :
    let z := z0 (streaming stream0); let f := rtcpOfSsrc 4660; let g := rtcpOfSsrc 1
    (z.reachesClusters f = true ∧ f.fcsOk = true ∧ fieldAt f.udp 0 1 / 64 = 2 ∧ 192 ≤ fieldAt f.udp 1 1 ∧ fieldAt f.udp 1 1 ≤ 223 ∧
      z.fwd.lookup f.port f.ip.family f.ip.dst f.dstUdp f.rtcpSsrc = some (0, stream0)) ∧
    (z.reachesClusters g = true ∧ g.fcsOk = true ∧ z.fwd.bound g.port g.ip.family g.ip.dst g.dstUdp ≠ [] ∧
      (z.fwd.lookup g.port g.ip.family g.ip.dst g.dstUdp g.rtcpSsrc).isNone = true) := by decide +kernel

def rolling (due : Instant) : State :=
  let c := { svc.cipher with keys := [(1, { nextCtx := 2, srtpLimit := 4096, srtcpLimit := 4096, rollDue := some due }), (2, { srtpLimit := 4096, srtcpLimit := 4096 })] }
  { svc with cipher := c }
def exporting (x : Export) : State := let c := { svc.cipher with exp0 := x }; { svc with cipher := c }
/-- The image of the export is sealed on its unit. -/
def sealing : State :=
  let m := (imageMsg 1 2 0 imageHeader plainImage false).finish
  let c := { svc.cipher with exp0 := { state := 1, imageId := 5, imageLen := 128 }, units := [(imageUnit 0, { sealed_ := some m })] }; { svc with cipher := c }
def importing (x : Import) : State := let c := { svc.cipher with imp0 := x }; { svc with cipher := c }
def imp0 : Import := { state := 1, family := 4, imageId := 5, srcAddress := 7, dstAddress := home, dstUdpPort := 9, imageLength := 16 }
def segmentFrom (src : Nat) (b : List Byte) : FrameRx := { aFrame with bytes := udpFrame src home 6000 9 b }
/-- What is wrong with a segment that is dropped, in the order of R132. -/
def segmentFaults (z : State) (f : FrameRx) : List Bool :=
  let x := z.cipher.imp 0
  let u := f.udp
  let data := u.drop 16
  [fieldAt u 0 2 != 0x564D, fieldAt u 2 2 != data.length, f.ip.src != x.srcAddress, fieldAt u 4 4 != x.imageId, decide (data.length < 16),
   decide (1024 < data.length), decide (x.imageLength < 1024 * fieldAt u 8 4 + data.length)]

theorem wit_KeysRollAndImagesMove :
    (let z := z0 (rolling (sec 1000 - ns 200000)); (z.key 1).map (·.rollDue) = some (some (sec 1000 - ns 200000)) ∧ z.now ≤ sec 1000 - ns 200000 + ns 200000 ∧
      (z.key 1).bind z.rollNext = some 2) ∧
    (let z := z0 (rolling (sec 1000 - ns 200001)); (z.key 1).map (·.rollDue) = some (some (sec 1000 - ns 200001)) ∧ sec 1000 - ns 200001 + ns 200000 < z.now) ∧
    (let z := z0 sealing; z.serving = true ∧ (z.cipher.exp 0).state = 1 ∧ ((z.cipher.unit (imageUnit 0)).workTo z.now).sealed_.isSome = true) ∧
    (let x := (z0 (exporting { state := 2, imageLen := 2000, until_ := 2, next := 1 })).cipher.exp 0; x.state = 2 ∧ x.next < x.until_ ∧ x.lastSend = 0 ∧ x.next + 1 = x.until_) ∧
    (let z := z0 (importing imp0); let f := segmentFrom 7 (segmentBytes 5 0 (zeros 16)); f.fcsOk = true ∧ f.ip.isUdp = true ∧ z.importTakes f = true ∧
      segmentFaults z f = List.replicate 7 false ∧
      (let f := segmentFrom 6 (0 :: (segmentBytes 4 0 (zeros 14)).drop 1); f.fcsOk = true ∧ f.ip.isUdp = true ∧ z.importTakes f = true ∧
        segmentFaults z f = [true, false, true, true, true, false, false]) ∧
      segmentFaults z (segmentFrom 7 (segmentBytes 5 1 (zeros 16) ++ [0])) = [false, true, false, false, false, false, true] ∧
      segmentFaults z (segmentFrom 7 (segmentBytes 5 0 (zeros 1025))) = [false, false, false, false, false, true, true]) := by decide +kernel

def queued : State :=
  let e := { svc.egress with legs := [(0, { cfg := { cls := 7 }, queue := [{ len := 100, enq := sec 999, payload := .dhcp 4 1 }] })] }; { svc with egress := e }
def sending (u : Instant) : State :=
  let e := { svc.egress with ifaces := [(0, { tx := some { leg := none, cls := 7, copy := { len := 64, enq := 0, payload := .dhcp 4 1 }, start := 0, until_ := u } })] }
  { svc with egress := e }
def windowed : State := let e := { svc.egress with timers := [(1, { cfg := { length := 1000 } })] }; { svc with egress := e }
def sampling : State := let e := { svc.egress with legs := [(0, {})], sampling0 := { intervalUs := 1000, legs := [0] } }; { svc with egress := e }

theorem wit_FramesAreTransmitted :
    (let z := z0 queued; let y := z.noteMisses 0 0; z.live = true ∧ (z.port 0).hasIface 0 = true ∧ z.pkgUp 0 = true ∧ (z.egress.iface (ifNo 0 0)).tx = none ∧
      (chooseClass y 0 0).1 = some 7 ∧ (chooseLeg y 0 0 7).1 = some 0) ∧
    (let z := z0 (sending (sec 1000)); ((z.egress.iface (ifNo 0 0)).tx.map (·.until_)) = some (sec 1000) ∧ sec 1000 ≤ z.now) ∧
    (let z := z0 (sending (sec 1000 + 1)); ((z.egress.iface (ifNo 0 0)).tx.map (·.until_)) = some (sec 1000 + 1) ∧ z.now < sec 1000 + 1 ∧
      (z.egress.iface (ifNo 0 0)).cuts = []) ∧
    (let z := z0 windowed; let t : Timer := { cfg := { length := 1000 } }; z.egress.timers.find 1 = some t ∧ (t.window z.now).1 ≤ z.now ∧ t.open_ ≠ some (t.window z.now).1) ∧
    (let z := z0 sampling; let c := z.egress.sampling 0; z.serving = true ∧ c.intervalUs ≠ 0 ∧ z.now % 65536 = 0 ∧ nsOf z.now % 1000000000 % (c.intervalUs * 1000) = 0 ∧
      c.legs ≠ []) := by decide +kernel

/- The timebase. -/

def timing (t : TimeState) : State := { svc with time := t }
def clocked (p : PtpPort) : State := timing { ptp := { role := 3 }, portA := p }
def granting (g : List Grant) : State := timing { ptp := { role := 3, profile := 1 }, portA := { portState := 6, grants := g } }

/-- A message of another clock, which reaches the port and is taken. -/
def taken (z : State) (kind : Nat) (x : PtpRx) : Bool := z.ptpComes x kind && (z.takePtp x).2
def askTlv : PtpRx := ptpOf { kind := 12, source := 1 * 65536 + 1, tlv := some (0, 0, 300) }

theorem wit_PtpRowsComplete :
    (let z := z0 (clocked { portState := 6 }); taken z 0 (aPtp 0) = true ∧ taken z 1 (aPtp 1) = true ∧ taken z 11 (aPtp 11) = true ∧
      (let y := (z.takePtp (aPtp 1)).1.modPtp 0 (fun p => { p with delayReqRx := p.delayReqRx + 1 }); (y.time.port 0).portState = 6 ∧ y.granted 0 (aPtp 1).peer 9 = true) ∧
      z.ptpDue 0 [6] (·.nextSync) = true ∧ z.ptpDue 0 [6] (·.nextAnnounce) = true ∧ z.time.ptp.profile ≠ 1) ∧
    (let z := z0 (clocked { portState := 9 }); z.ptpDue 0 [8, 9] (·.nextDelayReq) = true) ∧
    (let z := z0 (timing { ptp := { role := 3, slaveOnly := true }, portA := { portState := 4, lastAnnounce := sec 997 } }); let p := z.time.port 0
      z.serving = true ∧ z.time.ptp.hasPort 0 = true ∧ p.portState = 4 ∧ p.lastAnnounce + p.cfg.announceTimeout * logInterval p.cfg.logAnnounce ≤ z.now ∧
      (∀ f ∈ p.foreign, f.qualified (logInterval p.cfg.logAnnounce) z.now = false) ∧ z.time.ptp.slaveOnly = true) ∧
    (let z := z0 (granting [{ id := 4, peer := 3, msgType := 0, ends := sec 1000, grantor := true }]); taken z 12 askTlv = true ∧ askTlv.tlvs = [(0, 0, 300)] ∧
      z.time.ptp.profile = 1 ∧ 0 < 300 ∧
      (z.time.port 0).grants.find? (fun g => g.id == 4) = some { id := 4, peer := 3, msgType := 0, ends := sec 1000, grantor := true } ∧ sec 1000 ≤ z.now) := by decide +kernel
/-- Of two other clocks, one at least is not this one. -/
theorem wit_PtpRowsComplete_source (k : Nat) : (aPtp 11).source / 65536 ≠ k ∨ (ptpOf { kind := 11, source := 2 * 65536 + 1 }).source / 65536 ≠ k := by
  have a : (aPtp 11).source / 65536 = 1 := by decide +kernel
  have b : (ptpOf { kind := 11, source := 2 * 65536 + 1 }).source / 65536 = 2 := by decide +kernel
  omega
theorem frameBody_fcs (b : List Byte) : frameBody (b ++ fcsBytes b) = b := by simp [frameBody, fcsBytes]
theorem framed_good (b : List Byte) : fcsGood (framed b) = true := by
  have good (c : List Byte) : fcsGood (c ++ fcsBytes c) = true := by
    rw [fcsGood, frameBody_fcs]; simp [fcsBytes]
  exact good _
theorem frameBody_framed (b : List Byte) (long : 60 ≤ b.length) : frameBody (framed b) = b := by
  have none : zeros (60 - b.length) = [] := by rw [Nat.sub_eq_zero_of_le long]; rfl
  simp [framed, none, frameBody_fcs]
/-- An answer to the request under way, whoever asked. -/
def answerOf (id : Nat) : PtpMsg := { kind := 9, source := 1 * 65536 + 1, requesting := id }
/-- What comes before the identity of who asked. -/
def answerHead : List Byte := (answerOf 0).bytes.take 44
theorem answer_bytes (id : Nat) : (answerOf id).bytes = answerHead ++ beBytes 10 id := by rfl
theorem answer_eth (id : Nat) : (ptpOf (answerOf id)).eth = { dst := 0x011B19000000, src := 7, tags := 0, vid := 0, type := 0x88F7, rest := (answerOf id).bytes } := by
  have long : 60 ≤ (ethBytes 0x011B19000000 7 0 0x88F7 (answerOf id).bytes).length := by
    simp [ethBytes, answer_bytes]; decide
  rw [PtpRx.eth, ethOf, ptpOf, frameBody_framed _ long, ethBytes]
  simp [beBytes, vlanStrip, fieldAt, beNat]
theorem wit_PtpRowsComplete_answer (id : Nat) (fits : id < 256 ^ 10) :
    let x := ptpOf (answerOf id)
    let z := z0 (clocked { portState := 9, t3 := some (0, sec 999), lastSync := some 5 }); let p := (z.takePtp x).1.time.port 0
    z.ptpComes x 9 = true ∧ (z.takePtp x).2 = true ∧ p.t3 = some (x.seq, sec 999) ∧ p.lastSync = some 5 ∧ p.portState = 9 ∧ x.requesting = id := by
  intro x z p
  have msg : x.msg = answerHead ++ beBytes 10 id := by rw [PtpRx.msg, answer_eth, EthFrame.ptp, if_pos rfl, answer_bytes]
  have at_ (off n : Nat) (h : off + n ≤ 44) : fieldAt x.msg off n = fieldAt answerHead off n := by
    have len : answerHead.length = 44 := by decide +kernel
    rw [msg, fieldAt, fieldAt, List.drop_append_of_le_length (by omega), List.take_append_of_le_length (by simp; omega)]
  have kind : x.kind = 9 := by rw [PtpRx.kind, at_ 0 1 (by omega)]; decide +kernel
  have seq : x.seq = 0 := by rw [PtpRx.seq, at_ 30 2 (by omega)]; decide +kernel
  have domain : x.domain = 0 := by rw [PtpRx.domain, at_ 4 1 (by omega)]; decide +kernel
  have whole : x.malformed = false := by
    have two : fieldAt x.msg 1 1 % 16 = 2 := by rw [at_ 1 1 (by omega)]; decide +kernel
    have long : fieldAt x.msg 2 2 = 54 := by rw [at_ 2 2 (by omega)]; decide +kernel
    have len : x.msg.length = 54 := by rw [msg, List.length_append, length_beBytes]; decide +kernel
    have type : x.eth.type = 0x88F7 := by rw [answer_eth]
    simp [PtpRx.malformed, two, long, len, kind, type, ptpLeast]
  have comes : z.ptpComes x 9 = true := by
    have arrives : z.ptpArrives 0 = true := by decide +kernel
    have good : fcsGood x.bytes = true := framed_good _
    have ptp : x.eth.isPtp = true := by rw [answer_eth]; rfl
    simp [State.ptpComes, good, ptp, kind]; exact arrives
  have passed : z.passPtp x = z := by simp [State.passPtp, show z.time.ptp.tc = false from rfl]
  have takes : z.takePtp x = (z, true) := by
    have port : z.time.ptp.hasPort x.port = true := rfl
    have same : z.time.ptp.domain = 0 := rfl
    simp [State.takePtp, show x.haps = [] from rfl, State.haps, passed, port, whole, domain, same, kind]
  have read : x.requesting = id := by
    rw [PtpRx.requesting, msg, fieldAt, List.drop_append_of_le_length (by decide +kernel), show answerHead.drop 44 = [] by decide +kernel]
    rw [List.nil_append, List.take_of_length_le (by simp), beNat_beBytes, Nat.mod_eq_of_lt fits]
  have port : p = z.time.port 0 := by show ((z.takePtp x).1.time.port 0) = _; rw [takes]
  refine ⟨comes, by rw [takes], ?_, ?_, ?_, read⟩ <;> rw [port]
  · rw [seq]; rfl
  · rfl
  · rfl
theorem clock_eui64 : clockIdentity = eui64 (Config.macAddress 0).toNat := by delta clockIdentity; exact Eq.refl _
theorem portIdentity_eq (p : Nat) : portIdentity p = clockIdentity * 65536 + p + 1 := by delta portIdentity; exact Eq.refl _
theorem eui64_lt (m : Nat) (h : m < 2 ^ 48) : eui64 m < 2 ^ 64 := by
  unfold eui64
  omega
theorem identity_lt (c m d p : Nat) (h : m < 2 ^ 48) (e : c = eui64 m) (f : p = c * 65536 + d + 1) (z : d = 0) : p < 256 ^ 10 := by
  have := eui64_lt m h
  omega
theorem mac_lt : (Config.macAddress 0).toNat < 2 ^ 48 := (Config.macAddress 0).isLt
theorem wit_PtpRowsComplete_identity : portIdentity 0 < 256 ^ 10 := identity_lt _ _ 0 _ mac_lt clock_eui64 (portIdentity_eq 0) rfl

theorem wit_TimeRowsComplete :
    (let z := z0 (timing { timeInMode := 1, timeInNew := some 7, source := 2 }); z.serving = true ∧ z.time.forced = false ∧ z.time.source = 2 ∧
      (z.time.reg.list.filter (fun y => (z.ready y).isSome)).head? = some 2 ∧ z.ready 2 = some (7, 128)) ∧
    (z0 svc).time.reg.list.filter (fun y => ((z0 svc).ready y).isSome) = [] ∧
    (let z := z0 (timing { source := 1, timeInMode := 1, timeInLast := some 0, lastMeasure := sec 995 }); z.time.source ≠ 0 ∧
      z.time.lastMeasure + ms z.time.reg.sourceTimeout ≤ z.now ∧
      (z.loseSource.time.reg.list.filter (fun y => y != z.time.source && z.loseSource.available y)).head? = some 2) ∧
    (let z := z0 (timing { mode := .holdover, holdoverTraceable := true, reg := { holdoverLimit := 60 }, holdoverSince := sec 940 }); z.time.mode = .holdover ∧
      z.time.holdoverTraceable = true ∧ z.time.holdoverExpired = false ∧ z.time.holdoverSince + sec z.time.reg.holdoverLimit ≤ z.now) ∧
    (let z := z0 (timing { timeInMode := 1, timeInLast := some (sec 999) }); z.time.timeInMode = 1 ∧ z.time.timeInLast = some (sec 999) ∧
      (wrapAround (((sec 1000 / 16384 * 16384 : Nat) : Int) - (sec 999 : Nat)) (sec 1)).natAbs ≤ ns 1000 ∧
      ns 1000 < (wrapAround ((((sec 1000 + ns 1001) / 16384 * 16384 : Nat) : Int) - (sec 999 : Nat)) (sec 1)).natAbs) ∧
    (let z := z0 (timing { timeInMode := 2 }); z.time.timeInMode = 2 ∧ [sec 999, sec 1000].getLast? = some (sec 1000)) ∧
    (let z := z0 (timing { timeInMode := 1, timeInSince := sec 997 }); z.time.timeInLost = false ∧ (z.time.timeInLast.getD z.time.timeInSince) + sec 3 ≤ z.now) ∧
    (let z := z0 (timing { timeOut := some {} }); let c : TimeOutCfg := {}; let m := z.now + c.delay * 16384; z.time.timeOut = some c ∧ c.edgeAt z m = true ∧
      z.time.squelched = false ∧ z.time.lastEdge ≠ some m) ∧
    (let c : TimeOutCfg := { mode := 4, instant := sec 1000 }; let z := z0 (timing { timeOut := some c }); z.time.timeOut = some c ∧ z.time.oneShotDone = false ∧ c.instant ≤ z.now + c.delay * 16384) ∧
    ((z0 svc).live = true ∧ (z0 svc).dieUp 7 = true ∧ (z0 svc).time.lastCompare + sec 1 ≤ (z0 svc).now ∧ ((z0 svc).pool 7).replicaAt + sec 1 ≤ (z0 svc).now) ∧
    ((z0 svc).time.ocxoStable = false ∧ (z0 svc).time.ocxoAlarm = false ∧ (z0 svc).time.ocxoAlarm ≠ true) := by decide +kernel

/- Memory, ports, events. -/

def stacked (x : Stack) : State := let m := { svc.mem with hbms := [(0, x)] }; { svc with mem := m }

theorem wit_MemoryRowsComplete :
    (let z := z0 svc; let p := (z.stack 0).pch 31; z.stackRuns 0 = true ∧ (z.stack 0).mode ≠ .selfRefresh ∧ p.due ≤ z.now ∧ p.postponed < (z.stack 0).mode.allowance ∧
      ([{ realTime := true }] : List MemReq).any (·.realTime) = true ∧ ([] : List MemReq).any (·.realTime) = false) ∧
    (let z := z0 (stacked { pchs := [(0, { postponed := 8 })] }); let p := (z.stack 0).pch 0; ¬ (p.postponed - min 0 p.postponed < (z.stack 0).mode.allowance)) ∧
    (let x := (z0 svc).stack 0; x.mode = .normal ∧ x.lastReading + ns 10000 ≤ (z0 svc).now) ∧ ((z0 (stacked { mode := .doubled })).stack 0).mode = .doubled ∧
    ((85 : Int) ≤ 85 ∧ (81 : Int) < 82 ∧ (84 : Int) < 85 ∧ ((82 : Int) ≤ 82 ∧ (94 : Int) < 95)) ∧
    (let z := z0 { svc with now := sec 14400 }; z.stackRuns 9 = true ∧ ((z.stack 9).pch 31).lastScrub + sec 14400 ≤ z.now) ∧
    (let z := z0 svc; z.stackRuns 7 = true ∧ Grid.audio.isBeat z.now = true) := by decide +kernel

def caged (o : Option Optics) (x : Iface) : State :=
  let p := { svcPort with optics := o, ifaces := [(0, x)] }; let q := { svc.ports with portA := p }; { svc with ports := q }
def opt : Optics := { insertedAt := 0, firstAccess := some 0, modes := [1] }
/-- Auto-negotiation is asked of the port. -/
def asked (x : Iface) : State :=
  let p := { svcPort with cfg := { svcPort.cfg with mode := 0 }, optics := some opt, ifaces := [(0, x)] }; let q := { svc.ports with portA := p }
  { svc with ports := q }

theorem wit_PortRowsComplete :
    ((z0 (caged none {})).portRuns 0 = true ∧ ((z0 (caged none {})).port 0).optics = none) ∧
    (let z := z0 (caged (some opt) {}); (z.port 0).optics = some opt ∧ opt.firstAccess = some 0 ∧ (z.port 0).lastPoll + ms 100 ≤ z.now) ∧
    (∀ st ∈ [1, 2, 3, 4, 5], let z := z0 (caged (some opt) { stage := st, since := sec 1000 }); let x := (z.port 0).iface 0
      (z.port 0).hasIface 0 = true ∧ (z.port 0).lacksMode = false ∧ x.retryAt = none ∧ x.stage = st ∧ ((z.port 0).stageTimeout x.stage).isSome = true ∧ z.now ≤ x.since + ms 100 ∧ (z.port 0).cfg.mode ≠ 0) ∧
    (let z := z0 (asked { stage := 2, since := sec 1000 }); let x := (z.port 0).iface 0; (z.port 0).hasIface 0 = true ∧ (z.port 0).lacksMode = false ∧ x.retryAt = none ∧
      x.stage = 2 ∧ (z.port 0).stageTimeout 2 = some (ms 3000) ∧ (z.port 0).cfg.mode = 0) ∧
    (let z := z0 (caged (some opt) { stage := 5, since := sec 1000 - ms 100 }); let x := (z.port 0).iface 0; (z.port 0).stageTimeout x.stage = some (ms 100) ∧ x.since + ms 100 ≤ z.now) ∧
    (((z0 (caged (some opt) { retryAt := some (sec 1000) })).port 0).iface 0).retryAt = some (sec 1000) ∧
    (((z0 (caged (some opt) { stage := 6 })).port 0).iface 0).stage = 6 ∧
    (let x := ((z0 svc).port 0).iface 0; x.stage = 7 ∧ x.lossSince = none ∧ 5 ≤ x.stage ∧ x.stage ≤ 7 ∧ 10000000 ≤ ((z0 svc).port 0).cfg.berAlarm ∧ ((z0 svc).port 0).cfg.berAlarm < ((z0 svc).port 0).cfg.berAlarm + 1 ∧ 0 < 1) ∧
    (((z0 (caged (some opt) { stage := 7, lossSince := some (sec 999, 1) })).port 0).iface 0).lossSince = some (sec 999, 1) ∧
    ((z0 svc).lane (laneSite 0 7)).frozenAt = none ∧
    (let s : State := { svc with ports := { svc.ports with iplLanes := [(17, { state := 1 })] } }; let z := z0 s; let x := z.lane (mkSite 3 0 0 0 0 17)
      z.serving = true ∧ x.state = 1 ∧ 1000 < 1001 ∧ (z.setLane (mkSite 3 0 0 0 0 17) x).ports.ipl0.down = false ∧ (z.setLane (mkSite 3 0 0 0 0 17) x).ports.ipl1.down = false) := by decide +kernel

def rec0 (t : Instant) : EventRec := { stamp := t, source := 224, code := 1 }
def subscriber : Subscriber := { session := 9, masks := [(0, 0)] }
def merging0 (r h : List EventRec) : State := let e := { svc.events with raised := r, held := h, subs := [(0, subscriber)] }; { svc with events := e }

theorem wit_EventsAreOrdered :
    (let z := z0 (merging0 [rec0 (sec 1000 - ns 2000000), rec0 (sec 1000 - ns 2000000 - 1)] []); z.merging = true ∧
      z.mayArrive 0 (rec0 (sec 1000 - ns 2000000)) = true ∧ z.events.raised[0]? = some (rec0 (sec 1000 - ns 2000000)) ∧ z.now ≤ (rec0 (sec 1000 - ns 2000000)).stamp + ns 2000000 ∧
      (let z := z0 (merging0 [rec0 (sec 1000 - ns 2000000 - 1)] []); z.events.raised[0]? = some (rec0 (sec 1000 - ns 2000000 - 1)) ∧
        z.mayArrive 0 (rec0 (sec 1000 - ns 2000000 - 1)) = true ∧ (rec0 (sec 1000 - ns 2000000 - 1)).stamp + ns 2000000 < z.now)) ∧
    (let z := z0 (merging0 [] [rec0 (sec 1000), rec0 (sec 998)]); firstRecord z.events.held = some (rec0 (sec 998), [rec0 (sec 1000)]) ∧ (rec0 (sec 998)).stamp + ns 2000000 ≤ z.now) ∧
    (let z := z0 (merging0 [] [rec0 (sec 1000)]); firstRecord z.events.held = some (rec0 (sec 1000), []) ∧ z.now < (rec0 (sec 1000)).stamp + ns 2000000 ∧
      z.frontier < (rec0 (sec 1000)).stamp) ∧
    subscriber.admits (rec0 0) = false ∧
    (let z := z0 (merging0 [] []); z.live = true ∧ z.events.subs.find 0 = some subscriber ∧ z.vcp.session subscriber.session = some { id := 9 } ∧ z.producerWaits 0 = false) := by decide +kernel

/- Starts, tests, power. -/

def started (t : StartState) : State := { svc with start := t }
def dieWork (w : Nat) : State := let t := { svc.start with dies := [(0, { work := w, fenced := false })] }; { svc with start := t }
def target0 : Nat := unitSite 0 0
def slice0 : Slice := { die := 0, kind := 1, target := target0, claim := 4, started := sec 998, ran := true }
/-- A packet cluster of P0, which a slice of kind 6 takes unit by unit. -/
def cluster0 : Nat := pcSite 0 0
/-- The time of D0's first slice in the round of second 1000. -/
def sliceTime : State := { svc with now := sec 1000 + ms 100 }

theorem wit_StartRowsComplete :
    (z0 State.reset).start.run = .off ∧
    (let z := z0 (started { run := .starting 1, balance := ms 2000 }); z.start.run = .starting 1 ∧ z.start.balance ≤ z.start.stageSince + ms (stageLimit 1) ∧ z.coolEnough = true) ∧
    (let z := z0 (started { run := .starting 1, balance := ms 2000, part0 := true }); ms (stageLimit 1) ≤ z.start.balance - z.start.stageSince ∧ [sysOcxo].filter (z.start.inStage 1) ≠ []) ∧
    (z0 (started { run := .failed })).start.run = .failed ∧ (z0 (started { run := .settingRetry })).start.run = .settingRetry ∧
    ((z0 svc).serving = true ∧ (z0 svc).dieUp 7 = true) ∧ ((z0 (dieWork 1)).die 0).work = 1 ∧ ((z0 (dieWork 2)).die 0).work = 2 ∧ (z0 (dieWork 1)).pkgUp (pkgOfDie 0) = true ∧
    (let z := z0 sliceTime; let k := z.start.startedIn 0 (secOf z.now / 2); z.testsRun 0 = true ∧ k < 4 ∧ z.now = sec (2 * (secOf z.now / 2)) + ms (100 * diePlace 0 + 10 * k) ∧
      sliceTarget z 1 target0 = true ∧ testDie target0 = 0 ∧ z.vcp.holder (.bistSlice target0) = none ∧
      z.start.startedIn 0 (secOf z.now / 2) = 0) ∧
    (let z := z0 svc; let k := z.start.startedIn 8 (secOf z.now / 2); z.testsRun 8 = true ∧ k < 4 ∧ z.now = sec (2 * (secOf z.now / 2)) + ms (100 * diePlace 8 + 10 * k) ∧
      sliceTarget z 6 cluster0 = true ∧ testDie cluster0 = 8 ∧ z.vcp.holder (.bistSlice cluster0) = none ∧ (sliceUnit z cluster0).isSome = true) ∧
    (let z := z0 (started { svc.start with slices := [slice0] }); z.start.slices.find? (fun y => y.die == 0 && y.target == target0) = some slice0 ∧
      (z.start.tests.getD (testKey target0 1) {}).count + 1 < slicePlan 1) ∧
    (let x := { slice0 with ran := false }; let z := z0 (started { svc.start with slices := [x] }); z.start.slices.find? (fun y => y.die == 0 && y.target == target0) = some x ∧
      secOf x.started / 2 < secOf z.now / 2) ∧
    (let x := { slice0 with ran := false, started := sec 1000 }; let z := z0 (started { svc.start with slices := [x] })
      z.start.slices.find? (fun y => y.die == 0 && y.target == target0) = some x ∧ ¬ secOf x.started / 2 < secOf z.now / 2) := by decide +kernel

def powered (p : PowerState) : State := { svc with power := p }
def standing (p : PowerState) : State := let t := { svc.start with run := .standby, balance := sec 2 }; { svc with power := p, start := t }

theorem wit_PowerRowsComplete :
    ((z0 svc).start.run ≠ .off ∧ (z0 svc).power.interrupted = none) ∧
    (let t := { svc.start with balance := holdUp + 1 }; let z := z0 { svc with power := { interrupted := some 0 }, start := t }
      z.power.interrupted = some 0 ∧ z.power.outputLost = none ∧ 0 + holdUp < z.start.balance ∧ z.start.run ≠ .standby) ∧
    ((z0 (standing { interrupted := some 0 })).power.interrupted ≠ none ∧ (z0 (standing { interrupted := some 0 })).start.run = .standby) ∧
    (let z := z0 (standing { outputLost := some 0 }); z.power.outputLost = some 0 ∧ z.start.run = .standby ∧ 0 + sec 2 ≤ z.start.balance) ∧
    ((z0 svc).merging = true ∧ (z0 svc).power.lowRaised ≠ (1 == 1) ∧ (z0 (powered { lowRaised := true })).power.lowRaised ≠ (0 == 1) ∧
      psuInputFits 1 750 = true ∧ psuInputFits 1 849 = true ∧ psuInputFits 0 850 = true ∧ psuInputFits 0 2650 = true) ∧
    ((z0 svc).cooled = true ∧ (z0 svc).power.loopAt = none) ∧
    (let z := z0 { standing { loopAt := some (sec 1) } with start := { svc.start with balance := sec 2 } }; z.power.loopAt = some (sec 1) ∧ sec 1 + sec 1 ≤ z.start.balance) ∧
    (let z := z0 (powered { fanCommand := 1001 }); 2 * 500 < z.power.fanCommand ∧ 5 ∉ z.power.fansFailed) ∧
    (let z := z0 (powered { stopSince := [(6, sec 999)] }); z.power.stopSince.find 6 = some (sec 999) ∧ sec 999 + sec 1 ≤ z.now) := by decide +kernel

theorem wit_RowsChangeOnlyTheirParts :
    (rowParts (.heartbeatLoss 0)).isSome = true ∧ packetCommand (.heartbeatLoss 0) = none ∧
    (∀ op ∈ [Op.compose 0, .encode 0 0, .receive 0, .send 0, .mix], (z0 (serving op)).dieUp 0 = true ∧ ((z0 (serving op)).inService 0 1).map (·.desc.op) = some op) ∧
    (z0 (serving (.send 0))).xAlone (legUnit 0) = false := by decide +kernel

end Sys2Proof.Tests
end

section
/-! SUPPORT. What a failing command leaves of its packet (R47): equations for the outcomes of `failCmd` and of `runRecord`, and
from them the statement on failing commands. -/

namespace Sys2Proof.Machine

/-- The result record of a command that fails (R51). -/
def errorRecord (opcode tag : Nat) (e : Err) : ResultRec :=
  { opcode := opcode, tag := tag, status := e.status, block := e.block }

/-- A result record of a command that ATOMIC undoes (R47). -/
def undoneRecord (x : ResultRec) : ResultRec := { x with status := .notExecuted, block := [] }

/- Packets. -/

/-- A packet that is in execution is found as it was put back. -/
theorem packet_setPacket {s : State} {p q : ExecPkt} (hsession : q.session = p.session) (hseq : q.seq = p.seq)
    (h : (s.vcp.packet p.session p.seq).isSome = true) : (s.setPacket q).vcp.packet p.session p.seq = some q := by
  simp only [VcpState.packet, State.setPacket] at h ⊢
  generalize s.vcp.executing = l at h ⊢
  induction l with
  | nil => simp at h
  | cons x xs ih =>
    by_cases hx : x.session = p.session ∧ x.seq = p.seq
    · simp [hx, hsession, hseq]
    · have hne : (x.session == p.session && x.seq == p.seq) = false := by simpa using hx
      rw [List.find?_cons, hne] at h
      simpa [hx, hne, hsession, hseq] using ih h

theorem stopped_iff (p : ExecPkt) : p.stopped = true ↔ p.failed = true ∧ (p.stopOnError = true ∨ p.atomic = true) := by
  simp [ExecPkt.stopped]

theorem not_stopped_iff (p : ExecPkt) : p.stopped = false ↔ p.failed = false ∨ (p.stopOnError = false ∧ p.atomic = false) := by
  cases hf : p.failed <;> simp [ExecPkt.stopped, hf]

/- The outcomes of one command. -/

/-- Without ATOMIC a failure adds its own record and leaves the others. -/
theorem failCmd_of_not_atomic (s : State) {p : ExecPkt} (opcode tag : Nat) (e : Err) (h : p.atomic = false) :
    s.failCmd p opcode tag e = s.setPacket { p with results := p.results ++ [errorRecord opcode tag e], failed := true } := by
  simp [State.failCmd, ExecPkt.answer, errorRecord, h]

/-- With ATOMIC a failure undoes what the packet has staged, releases its claims, and clears the earlier records. -/
theorem failCmd_of_atomic (s : State) {p : ExecPkt} (opcode tag : Nat) (e : Err) (h : p.atomic = true) :
    s.failCmd p opcode tag e = (s.undo p).setPacket
      { p with results := p.results.map undoneRecord ++ [errorRecord opcode tag e], claims := [], failed := true } := by
  simp only [State.failCmd, h, ↓reduceIte]
  rfl

/-- A failure leaves a packet in execution, failed, with the record of the failure as its last. -/
theorem packet_failCmd {s : State} {p : ExecPkt} (opcode tag : Nat) (e : Err) (h : (s.vcp.packet p.session p.seq).isSome = true) :
    ∃ q, (s.failCmd p opcode tag e).vcp.packet p.session p.seq = some q ∧
      q.results.getLast? = some (errorRecord opcode tag e) ∧ q.failed = true := by
  cases ha : p.atomic with
  | false =>
    rw [failCmd_of_not_atomic s opcode tag e ha]
    exact ⟨_, packet_setPacket rfl rfl h, by simp, rfl⟩
  | true =>
    rw [failCmd_of_atomic s opcode tag e ha]
    exact ⟨_, packet_setPacket (s := s.undo p) rfl rfl h, by simp, rfl⟩

theorem runRecord_of_stopped (s : State) (d : CmdDef) {p : ExecPkt} (tag : Nat) (b : List Byte) (fault : Option Nat)
    (h : p.stopped = true) : s.runRecord d p tag b fault = s.answered p d.opcode tag .notExecuted [] := by
  simp [State.runRecord, State.answered, ExecPkt.answer, h]

/-- Only setting mode bars a command that meets no firmware fault (R48). -/
theorem barred_none_iff (d : CmdDef) (s : State) : d.barred s none = none ↔ s.inSetting = false ∨ d.setting = true := by
  cases hs : s.inSetting <;> cases hd : d.setting <;> simp [CmdDef.barred, hs, hd]

theorem barred_of_setting {d : CmdDef} {s : State} (hs : s.inSetting = true) (hd : d.setting = false) :
    d.barred s none = some { status := .settingMode } := by
  simp [CmdDef.barred, hs, hd, badAt]

theorem runRecord_of_setting {s : State} {d : CmdDef} {p : ExecPkt} (tag : Nat) (b : List Byte) (h : p.stopped = false)
    (hs : s.inSetting = true) (hd : d.setting = false) :
    s.runRecord d p tag b none = s.failCmd p d.opcode tag { status := .settingMode } := by
  simp [State.runRecord, h, barred_of_setting hs hd]

/-- A command that stands next in a packet that has not stopped, and that is not barred, is judged: accepted or rejected. -/
theorem accepts_or_rejects {d : CmdDef} {r : CmdRef} {b : List Byte} {s z : State} {p : ExecPkt} (ht : d.taken r b s = some (z, p))
    (hp : p.stopped = false) (hb : d.barred z r.firmwareFault = none) :
    (d.accepts r b s).isSome = true ∨ (d.rejects r b s).isSome = true := by
  cases hparse : d.parse b with
  | error x => simp [CmdDef.rejects, ht, hp, hb, hparse]
  | ok vt =>
    cases hr : d.refuses z p (envOf z p d.reads vt.1 vt.2) with
    | none => simp [CmdDef.accepts, ht, hp, hb, hparse, hr]
    | some x => simp [CmdDef.rejects, ht, hp, hb, hparse, hr]

end Sys2Proof.Machine

namespace Sys2Proof.Proofs

open Sys2Proof Sys2Proof.Machine

/-- Settles O29, from the outcomes of `runCmd` on a command that is taken and the equations of `failCmd`. -/
theorem failedCommands : Obligations.FailedCommands := by
  intro i d r b hi s z p
  simp only [exec_packetCommand hi]
  refine ⟨fun x fx h ha => ?_, fun x fx h ha => ?_, fun ht hp hf hs hd => ?_, fun ht hfail hflag => ?_, fun ht hrun hf hs => ?_⟩
  · rw [runCmd_of_rejects h, failCmd_of_not_atomic z _ _ x ha]
    rfl
  · rw [runCmd_of_rejects h, failCmd_of_atomic z _ _ x ha]
    rfl
  · rw [runCmd_of_taken ht, hf, runRecord_of_setting r.tag b hp hs hd]
  · rw [runCmd_of_taken ht, runRecord_of_stopped z d r.tag b _ ((stopped_iff p).2 ⟨hfail, hflag⟩)]
  · exact accepts_or_rejects ht ((not_stopped_iff p).2 hrun) (hf ▸ (barred_none_iff d z).2 hs)

end Sys2Proof.Proofs
end

section
/-! SUPPORT. The opcodes of the rows, range by range, and what a record of any other opcode gets (R53). -/

namespace Sys2Proof.Machine

/-- One row of each opcode that a range defines, in the order of the opcodes, which begin with 0x01. -/
def rowsOfRange : Nat → List (CmdRef → List Byte → Instr)
  | 0x0 => [.cmdNop, .cmdSessionClose, .cmdModuleInfo, .cmdSetAddress, .cmdClaimQuery, .cmdClaimRelease]
  | 0x1 => [.cmdEscapementStatus, .cmdTableRead, .cmdPoolStatus, .cmdTaskTraceArm]
  | 0x2 => [.cmdStreamCreate, .cmdStreamDelete, .cmdTargetAdd, .cmdTargetSelect, .cmdTargetRemove, .cmdStreamPin, .cmdStreamStatus,
      .cmdParseCounters]
  | 0x3 => [.cmdKeyInstall, .cmdKeyDelete, .cmdKeyStatus, .cmdKeyLimit, .cmdKeyLink, .cmdKeyRoll, .cmdSealKey, .cmdSealExportSend,
      .cmdSealImportArm]
  | 0x4 => [.cmdLegSet, .cmdLegDelete, .cmdClassSet, .cmdPolicerSet, .cmdPolicerDelete, .cmdPolicerStatus, .cmdDscpColour,
      .cmdLaunchTimerSet, .cmdQueueStatus, .cmdQueueSampling]
  | 0x5 => [.cmdDecodeCreate, .cmdDecodeDelete, .cmdDecodeSelect, .cmdDecodeResync, .cmdDecodeStatus, .cmdDecodeLoad]
  | 0x6 => [.cmdComposeCreate, .cmdComposeDelete, .cmdComposeLayer, .cmdComposeRegion, .cmdComposeStatus, .cmdGraphicCreate,
      .cmdGraphicWrite, .cmdGraphicFlip, .cmdGraphicDelete, .cmdComposeFilter]
  | 0x7 => [.cmdEncodeCreate, .cmdEncodeDelete, .cmdEncodeSet, .cmdEncodeKeyframe, .cmdEncodeStatus, .cmdEncodeLoad]
  | 0x8 => [.cmdAudioLegCreate, .cmdAudioLegDelete, .cmdAudioSet, .cmdAudioStage, .cmdAudioSteer, .cmdAudioStatus, .cmdAudioLoad,
      .cmdAudioTableRead]
  | 0x9 => [.cmdXpNode, .cmdXpTieConnect, .cmdXpTalkerGroupSet, .cmdXpTalkerMemberAdd, .cmdXpNodeRead, .cmdXpStatus, .cmdXpTalkers,
      .cmdXpGainTableRead]
  | 0xA => [.cmdBeaconSet, .cmdBeaconStatus, .cmdBeaconHeard, .cmdBeaconLoading, .cmdBeaconTableRead]
  | 0xB => [.cmdTimeStatus, .cmdPtpClock, .cmdPtpPort, .cmdPtpPortStatus, .cmdRegulatorSet, .cmdTimeSet, .cmdTimeIn, .cmdTimeOutSet]
  | 0xC => [.cmdHbmStatus, fun r b => .cmdMemRead r b [], .cmdFifoStatus, .cmdAudit]
  | 0xD => [.cmdPortMode, .cmdPortStatus, .cmdLaneStatus, .cmdLaneQuiet, .cmdLaneTestEnd, .cmdCmisRead, .cmdCmisWrite]
  | 0xE => [.cmdEventSubscribe, .cmdEventStatus, .cmdEventReplay, .cmdEventRaise]
  | 0xF => [.cmdStartReport, .cmdResetRestart, .cmdIdentity, .cmdAttest, .cmdFirmwareWrite, .cmdFirmwareCommit, .cmdFirmwareStatus,
      .cmdOtpRead, .cmdOtpWriteSettings, .cmdBistControl, .cmdBistResults, .cmdTestRunStart, .cmdDieFence, .cmdTestUnlock]
  | _ => []

theorem rowsOfRange_of_le {range : Nat} (h : 0x10 ≤ range) : rowsOfRange range = [] := by
  obtain ⟨k, rfl⟩ := Nat.exists_eq_add_of_le' h
  rfl

/-- The defined opcodes of a range are the first ones after its opcode 0x00, one for each of `rowsOfRange`. -/
theorem definedOpcode_iff (op : Nat) :
    definedOpcode op = true ↔ 1 ≤ op % 256 ∧ op % 256 ≤ (rowsOfRange (op / 256)).length := by
  simp only [definedOpcode]
  generalize op % 256 = lo
  generalize op / 256 = range
  match range with
  | 0x0 | 0x1 | 0x2 | 0x3 | 0x4 | 0x5 | 0x6 | 0x7 | 0x8 | 0x9 | 0xA | 0xB | 0xC | 0xD | 0xE | 0xF => exact decide_eq_true_iff
  | _ + 0x10 => exact iff_of_false Bool.false_ne_true fun ⟨hpos, hle⟩ => Nat.not_succ_le_zero _ (Nat.le_trans hpos hle)

/-- Row `lo` of a range is a command of a packet, with the opcode of its place. -/
theorem opcode_of_rowsOfRange : ∀ range < 0x10, ∀ lo (h : lo < (rowsOfRange range).length),
    (packetCommand ((rowsOfRange range)[lo] default [])).map (fun c => c.1.opcode) = some (256 * range + (lo + 1)) := by
  decide

/-- Every row that is a command of a packet has a defined opcode. -/
theorem definedOpcode_of_packetCommand {i : Instr} {d : CmdDef} {r : CmdRef} {b : List Byte} (h : packetCommand i = some (d, r, b)) :
    definedOpcode d.opcode = true := by
  cases i <;> simp only [packetCommand, Option.some.injEq, Prod.mk.injEq, reduceCtorEq] at h <;> obtain ⟨rfl, rfl, rfl⟩ := h
  case cmdMemRead found =>
    have hop : (memReadDef found).opcode = 0x0C02 := rfl
    rw [hop]
    rfl
  all_goals rfl

/-- Every defined opcode is that of a row. -/
theorem exists_packetCommand_of_definedOpcode {op : Nat} (h : definedOpcode op = true) :
    ∃ i d r b, packetCommand i = some (d, r, b) ∧ d.opcode = op := by
  obtain ⟨hpos, hle⟩ := (definedOpcode_iff op).1 h
  have hrange : op / 256 < 0x10 := by
    refine Nat.lt_of_not_le fun hge => ?_
    rw [rowsOfRange_of_le hge, List.length_nil] at hle
    omega
  have hrow := opcode_of_rowsOfRange (op / 256) hrange (op % 256 - 1) (by omega)
  obtain ⟨⟨d, r, b⟩, hc, hd⟩ := Option.map_eq_some_iff.1 hrow
  exact ⟨_, d, r, b, hc, by dsimp only at hd; omega⟩

/-- A record of an undefined opcode, in a packet that has not stopped, fails with BAD_OPCODE; the packet then has no record left. -/
theorem flushUndefined_singleton {s : State} {p q : ExecPkt} {x : PktRec} (hx : definedOpcode x.opcode = false) (hp : p.stopped = false)
    (hq : (s.failCmd p x.opcode x.tag { status := .badOpcode }).vcp.packet p.session p.seq = some q) :
    flushUndefined s p [x] = (s.failCmd p x.opcode x.tag { status := .badOpcode }, { q with todo := [] }) := by
  have hbad : badAt .badOpcode 0xFFFF = { status := .badOpcode } := rfl
  simp [flushUndefined, hx, hp, hbad, hq]

end Sys2Proof.Machine

namespace Sys2Proof.Proofs

open Sys2Proof Sys2Proof.Machine

/-- Settles O28: the opcodes by the table of rows, and the BAD_OPCODE record by what `failCmd` leaves. -/
theorem undefinedOpcodesAreRefused : Obligations.UndefinedOpcodesAreRefused := by
  refine ⟨rfl, fun range => ?_, fun op hop => ?_, fun op => ⟨exists_packetCommand_of_definedOpcode, ?_⟩,
    fun s p x hx hp ha hin => ?_, fun s p x hx hp hin => ?_⟩
  · rw [Bool.eq_false_iff, ne_eq, definedOpcode_iff]
    omega
  · rw [Bool.eq_false_iff, ne_eq, definedOpcode_iff, rowsOfRange_of_le (by omega : 0x10 ≤ op / 256), List.length_nil]
    omega
  · rintro ⟨i, d, r, b, hi, rfl⟩
    exact definedOpcode_of_packetCommand hi
  · have hfail := failCmd_of_not_atomic s x.opcode x.tag { status := .badOpcode } ha
    rw [flushUndefined_singleton hx hp (by rw [hfail]; exact packet_setPacket rfl rfl hin), hfail]
    rfl
  · obtain ⟨q, hq, hlast, hfailed⟩ := packet_failCmd x.opcode x.tag { status := .badOpcode } hin
    rw [flushUndefined_singleton hx hp hq]
    exact ⟨hlast, hfailed⟩

end Sys2Proof.Proofs
end

section
/-! SUPPORT. The audio grid in closed form (R60): the beat of index i lies at i × 2,500,000 ns, and from them the statement on
the grid's beats. -/

namespace Sys2Proof.Machine

/-- Nanoseconds add up as durations. -/
theorem ns_add (a b : Nat) : ns (a + b) = ns a + ns b := Nat.add_mul a b 65536

/-- The whole seconds of an instant on a nanosecond. -/
theorem ns_div_sec (n : Nat) : ns n / sec 1 = n / 1000000000 := Nat.mul_div_mul_right n 1000000000 (by decide)

/-- The rest of an instant on a nanosecond within its second. -/
theorem ns_mod_sec (n : Nat) : ns n % sec 1 = ns (n % 1000000000) := Nat.mul_mod_mul_right 65536 n 1000000000

/-- The last whole nanosecond strictly before a later nanosecond. -/
theorem lastNs_before {n : Nat} (h : 0 < n) : (ns n - 1) / 65536 = n - 1 := by
  change (n * 65536 - 1) / 65536 = n - 1
  omega

/-- The beat of index i, without the split of i into second and beat. -/
theorem Grid.audio_beatAt (i : Nat) : Grid.audio.beatAt i = ns (i * 2500000) := by
  have hbeat : i / 400 * 1000000000 + i % 400 * 1000000000 / 400 = i * 2500000 := by omega
  calc Grid.audio.beatAt i
    _ = ns (i / 400 * 1000000000 + i % 400 * 1000000000 / 400) := (ns_add _ _).symm
    _ = ns (i * 2500000) := congrArg ns hbeat

/-- The index of the first beat at or after a beat is the beat's own. -/
theorem Grid.audio_indexAtOrAfter_beatAt (i : Nat) : Grid.audio.indexAtOrAfter (Grid.audio.beatAt i) = i := by
  have hsec : i * 2500000 / 1000000000 = i / 400 := by omega
  have hrest : i * 2500000 % 1000000000 = i % 400 * 2500000 := by omega
  rw [Grid.audio_beatAt]
  unfold Grid.indexAtOrAfter
  simp only [Grid.rate, ns_div_sec, ns_mod_sec, hsec, hrest]
  by_cases hfirst : i % 400 = 0
  · have hzero : ns (i % 400 * 2500000) = 0 := by rw [hfirst]; rfl
    rw [if_pos hzero]
    omega
  · have hns : 0 < i % 400 * 2500000 := by omega
    have hpos : ns (i % 400 * 2500000) ≠ 0 := Nat.ne_of_gt (Nat.mul_pos hns (by decide : 0 < 65536))
    rw [if_neg hpos, lastNs_before hns]
    omega

/-- An instant is a beat of the audio grid when it is the instant of some index. -/
theorem Grid.audio_isBeat_iff (t : Instant) : Grid.audio.isBeat t = true ↔ ∃ i, t = Grid.audio.beatAt i := by
  unfold Grid.isBeat Grid.firstAtOrAfter
  rw [beq_iff_eq]
  constructor
  · intro h
    exact ⟨_, h.symm⟩
  · rintro ⟨i, rfl⟩
    rw [Grid.audio_indexAtOrAfter_beatAt]

/-- 50 codec frames begin in every TAI second, since 400 is a multiple of 8. -/
theorem audioCodecFrames_of_second (sc : Nat) : ((List.range 400).filter (fun k => (400 * sc + k) % 8 == 0)).length = 50 := by
  have hsecond : ∀ k ∈ List.range 400, ((400 * sc + k) % 8 == 0) = (k % 8 == 0) := by
    intro k _
    rw [show (400 * sc + k) % 8 = k % 8 by omega]
  rw [List.filter_congr hsecond]
  decide

end Sys2Proof.Machine

namespace Sys2Proof.Proofs

open Sys2Proof Sys2Proof.Machine

/-- Settles O47, from the closed form of the beats' instants. -/
theorem audioGrid : Obligations.AudioGrid := by
  refine ⟨fun sc k _ => ?_, Grid.audio_isBeat_iff, Grid.audio_indexAtOrAfter_beatAt, fun sc => ⟨by omega, audioCodecFrames_of_second sc⟩⟩
  have hbeat : (400 * sc + k) * 2500000 = sc * 1000000000 + k * 2500000 := by omega
  rw [Grid.audio_beatAt, hbeat]
  exact ns_add _ _

end Sys2Proof.Proofs
end

section
/-! SUPPORT. Bytes, fields of a block, tables of numbered objects and free identifiers (R49, R50, R403), and from them the statements on
blocks and tables. -/

namespace Sys2Proof.Machine

/-- Byte i of a number written in w bytes. -/
theorem getElem?_beBytes {w i : Nat} (x : Nat) (h : i < w) : (beBytes w x)[i]? = some (BitVec.ofNat 8 (x / 256 ^ (w - 1 - i))) := by
  induction w generalizing i with
  | zero => omega
  | succ n ih =>
    cases i with
    | zero => simp [beBytes]
    | succ i =>
      rw [beBytes, List.getElem?_cons_succ, ih (by omega), show n + 1 - 1 - (i + 1) = n - 1 - i by omega]

/-- The bytes of a list of fields. -/
def fieldsWidth (fs : List Fld) : Nat := (fs.map (·.w)).sum

/-- A reserved field is written as zeros (R49). -/
theorem writeFields_of_skip {f : Fld} (fs : List Fld) (vs : List Nat) (h : f.skip = true) :
    writeFields (f :: fs) vs = zeros f.w ++ writeFields fs vs := by
  unfold writeFields
  rw [if_pos h]
  cases fs <;> rfl

/-- Any other field takes the next value. -/
theorem writeFields_of_not_skip {f : Fld} (fs : List Fld) (x : Nat) (xs : List Nat) (h : f.skip = false) :
    writeFields (f :: fs) (x :: xs) = beBytes f.w x ++ writeFields fs xs := by
  simp [writeFields, h]

/-- Fields that were written are read back with the values written, before what the further fields yield. -/
theorem readFields_writeFields_append (fs gs : List Fld) (vs : List Nat) (off : Nat) (rest : List Byte) (h : fieldsFit fs vs = true) :
    readFields (fs ++ gs) off (writeFields fs vs ++ rest) =
      (readFields gs (off + fieldsWidth fs) rest).map (fun r => (vs ++ r.1, r.2)) := by
  induction fs generalizing vs off with
  | nil =>
    obtain rfl : vs = [] := by simpa [fieldsFit] using h
    simp [writeFields, fieldsWidth]
  | cons f fs ih =>
    have hwidth : off + fieldsWidth (f :: fs) = off + f.w + fieldsWidth fs := by simp [fieldsWidth, Nat.add_assoc]
    cases hskip : f.skip with
    | true =>
      obtain ⟨hw, hfit⟩ : 0 < f.w ∧ fieldsFit fs vs = true := by simpa [fieldsFit, hskip] using h
      rw [writeFields_of_skip fs vs hskip, List.append_assoc, List.cons_append, readFields_cons f _ _ _ _ hw (length_zeros _), ih vs _ hfit, hwidth]
      simp [hskip, Option.map_map, Function.comp_def]
    | false =>
      cases vs with
      | nil => simp [fieldsFit, hskip] at h
      | cons x xs =>
        obtain ⟨hw, ⟨hx, hrsv⟩, hfit⟩ : 0 < f.w ∧ (x < 256 ^ f.w ∧ x &&& f.rsv = 0) ∧ fieldsFit fs xs = true := by
          simpa [fieldsFit, hskip] using h
        have hval : beNat (beBytes f.w x) = x := by rw [beNat_beBytes, Nat.mod_eq_of_lt hx]
        rw [writeFields_of_not_skip fs x xs hskip, List.append_assoc, List.cons_append, readFields_cons f _ _ _ _ hw (length_beBytes _ _),
          ih xs _ hfit, hwidth, hval]
        simp [hskip, hrsv, Option.map_map, Function.comp_def]

/-- A block that ends before fields that all have defaults gives their defaults (R50). -/
theorem readFields_nil_of_defaults (gs : List Fld) (off : Nat) (h : ∀ g ∈ gs, ∃ d, g.dflt = some d ∧ d &&& g.rsv = 0) :
    readFields gs off [] = some ((gs.filter (fun g => !g.skip)).map (fun g => g.dflt.getD 0), [], []) := by
  induction gs generalizing off with
  | nil => rfl
  | cons g gs ih =>
    obtain ⟨d, hd, hrsv⟩ := h g List.mem_cons_self
    have hrest := ih (off + g.w) (fun k hk => h k (List.mem_cons_of_mem g hk))
    cases hskip : g.skip <;> simp [readFields, hd, hrest, hrsv, hskip]

/-- A block that ends before a field without a default is not read. -/
theorem readFields_nil_of_no_default (g : Fld) (gs : List Fld) (off : Nat) (h : g.dflt = none) : readFields (g :: gs) off [] = none := by
  simp [readFields, h]

/-- A block that ends inside a field is not read. -/
theorem readFields_of_part (g : Fld) (gs : List Fld) (off : Nat) {part : List Byte} (hne : part ≠ []) (hlen : part.length < g.w) :
    readFields (g :: gs) off part = none := by
  simp [readFields, hne, hlen]

/- Tables. -/

theorem Tab.find_put {α : Type} (t : Tab α) (j k : Nat) (a : α) : (t.put k a).find j = if j = k then some a else t.find j := by
  induction t with
  | nil => simp [Tab.put, Tab.find, eq_comm]
  | cons p t ih =>
    obtain ⟨i, b⟩ := p
    rcases Nat.lt_trichotomy k i with hlt | rfl | hgt
    · simp [Tab.put, Tab.find, hlt, eq_comm]
    · by_cases hj : k = j
      · simp [Tab.put, Tab.find, hj]
      · simp [Tab.put, Tab.find, hj, Ne.symm hj]
    · have hne : k ≠ i := by omega
      have hnlt : ¬k < i := by omega
      by_cases hj : i = j
      · subst hj
        simp [Tab.put, Tab.find, hne, hnlt, Ne.symm hne]
      · simp [Tab.put, Tab.find, hne, hnlt, hj, ih]

theorem Tab.find_del {α : Type} (t : Tab α) (j k : Nat) : (t.del k).find j = if j = k then none else t.find j := by
  induction t with
  | nil => simp [Tab.del, Tab.find]
  | cons p t ih =>
    obtain ⟨i, b⟩ := p
    simp only [Tab.del] at ih
    by_cases hik : i = k
    · subst hik
      by_cases hj : i = j <;> simp_all [Tab.del, Tab.find, eq_comm]
    · by_cases hj : i = j
      · subst hj
        simp [Tab.del, Tab.find, hik]
      · simp [Tab.del, Tab.find, hik, hj, ih]

/-- The canonical form says that the numbers rise strictly. -/
theorem Tab.wf_iff {α : Type} (t : Tab α) : Tab.wf t = true ↔ t.keys.Pairwise (· < ·) := by
  induction t with
  | nil => simp [Tab.wf, Tab.keys]
  | cons p t ih =>
    cases t with
    | nil => simp [Tab.wf, Tab.keys]
    | cons q t =>
      have hkeys (x : Nat × α) (l : Tab α) : Tab.keys (x :: l) = x.1 :: Tab.keys l := rfl
      rw [Tab.wf, Bool.and_eq_true, decide_eq_true_iff, ih, hkeys p, List.pairwise_cons, hkeys q]
      refine and_congr_left fun hrest => ⟨fun hpq j hj => ?_, fun hlow => hlow q.1 List.mem_cons_self⟩
      rcases List.mem_cons.1 hj with rfl | hj
      · exact hpq
      · exact Nat.lt_trans hpq ((List.pairwise_cons.1 hrest).1 j hj)

theorem Tab.mem_keys_put {α : Type} (t : Tab α) (j k : Nat) (a : α) : j ∈ (t.put k a).keys ↔ j = k ∨ j ∈ t.keys := by
  induction t with
  | nil => simp [Tab.put, Tab.keys]
  | cons p t ih =>
    obtain ⟨i, b⟩ := p
    simp only [Tab.keys] at ih
    rcases Nat.lt_trichotomy k i with hlt | rfl | hgt
    · simp [Tab.put, Tab.keys, hlt]
    · simp [Tab.put, Tab.keys]
    · simp [Tab.put, Tab.keys, show ¬k < i by omega, show k ≠ i by omega, ih, or_left_comm]

theorem Tab.put_wf {α : Type} (t : Tab α) (k : Nat) (a : α) (h : Tab.wf t = true) : Tab.wf (t.put k a) = true := by
  rw [Tab.wf_iff] at h ⊢
  induction t with
  | nil => simp [Tab.put, Tab.keys]
  | cons p t ih =>
    obtain ⟨i, b⟩ := p
    obtain ⟨hlow, htail⟩ : (∀ j ∈ Tab.keys t, i < j) ∧ (Tab.keys t).Pairwise (· < ·) := List.pairwise_cons.1 h
    rcases Nat.lt_trichotomy k i with hlt | rfl | hgt
    · have hk : ∀ j ∈ Tab.keys ((i, b) :: t), k < j := by
        intro j hj
        rcases List.mem_cons.1 hj with rfl | hj
        · exact hlt
        · exact Nat.lt_trans hlt (hlow j hj)
      have hput : Tab.put ((i, b) :: t) k a = (k, a) :: (i, b) :: t := if_pos hlt
      rw [hput]
      exact List.pairwise_cons.2 ⟨hk, h⟩
    · simpa [Tab.put, Tab.keys] using h
    · have hput : Tab.put ((i, b) :: t) k a = (i, b) :: Tab.put t k a := by
        simp [Tab.put, show ¬k < i by omega, show k ≠ i by omega]
      rw [hput]
      refine List.pairwise_cons.2 ⟨fun j hj => ?_, ih htail⟩
      rcases (Tab.mem_keys_put t j k a).1 hj with rfl | hj
      · exact hgt
      · exact hlow j hj

theorem Tab.del_wf {α : Type} (t : Tab α) (k : Nat) (h : Tab.wf t = true) : Tab.wf (t.del k) = true := by
  rw [Tab.wf_iff] at h ⊢
  exact h.sublist (List.Sublist.map _ List.filter_sublist)

/- Free identifiers. -/

/-- Among the numbers from the base on, one more than are used, one is free. -/
theorem exists_free (used : List Nat) (base : Nat) : ∃ i ∈ List.range (used.length + 1), i + base ∉ used := by
  refine Classical.byContradiction fun hall => ?_
  have hnodup : ((List.range (used.length + 1)).map (· + base)).Nodup :=
    List.Pairwise.map (· + base) (fun _ _ hne heq => hne (Nat.add_right_cancel heq)) List.nodup_range
  have hsub : (List.range (used.length + 1)).map (· + base) ⊆ used := by
    intro k hk
    obtain ⟨i, hi, rfl⟩ := List.mem_map.1 hk
    exact Classical.byContradiction fun hfree => hall ⟨i, hi, hfree⟩
  have hle := hnodup.length_le_of_subset hsub
  rw [List.length_map, List.length_range] at hle
  omega

/-- The lowest free number is free, and all below it from the base on are used. -/
theorem lowestFree_spec (used : List Nat) (base : Nat) :
    ∃ i, lowestFree used base = i + base ∧ i + base ∉ used ∧ ∀ j < i, j + base ∈ used := by
  have hsome : ((List.range (used.length + 1)).find? ((fun k => !used.contains k) ∘ (· + base))).isSome := by
    simpa using exists_free used base
  obtain ⟨i, hi⟩ := Option.isSome_iff_exists.1 hsome
  have hlow : lowestFree used base = i + base := by rw [lowestFree, List.find?_map, hi]; rfl
  obtain ⟨hfree, -, hused⟩ := List.find?_range_eq_some.1 hi
  exact ⟨i, hlow, by simpa using hfree, by simpa using hused⟩

end Sys2Proof.Machine

namespace Sys2Proof.Proofs

open Sys2Proof Sys2Proof.Machine

/-- Settles O7, from the reading of written fields with no further field behind them. -/
theorem fieldsReadAsWritten : Obligations.FieldsReadAsWritten := by
  intro fs vs off tail h
  simpa [readFields] using readFields_writeFields_append fs [] vs off tail h

/-- Settles O8: behind the fields written nothing is left, or a part of one field. -/
theorem omittedFieldsTakeDefaults : Obligations.OmittedFieldsTakeDefaults := by
  refine ⟨fun fs gs vs off h hgs => ?_, fun fs gs g vs off h hg => ?_, fun fs gs g vs off part h hne hlen => ?_⟩
  · have hread := readFields_writeFields_append fs gs vs off [] h
    rwa [List.append_nil, readFields_nil_of_defaults gs _ hgs] at hread
  · have hread := readFields_writeFields_append fs (g :: gs) vs off [] h
    rwa [List.append_nil, readFields_nil_of_no_default g gs _ hg] at hread
  · rw [readFields_writeFields_append fs (g :: gs) vs off part h, readFields_of_part g gs _ hne hlen]
    rfl

/-- Settles O9. -/
theorem fieldsAreBigEndian : Obligations.FieldsAreBigEndian :=
  fun w x => ⟨length_beBytes w x, beNat_beBytes w x, fun _ hi => getElem?_beBytes x hi⟩

/-- Settles O10: a lower number from the base on is used. -/
theorem lowestFreeIdentifier : Obligations.LowestFreeIdentifier := by
  intro used base
  obtain ⟨i, hlow, hfree, hused⟩ := lowestFree_spec used base
  rw [hlow]
  refine ⟨hfree, Nat.le_add_left base i, fun k hk hkfree => ?_⟩
  refine Nat.le_of_not_lt fun hlt => ?_
  exact hkfree (Nat.sub_add_cancel hk ▸ hused (k - base) (by omega))

/-- Settles O11, from what is found after a `put` and after a `del`. -/
theorem tablesHoldWhatIsPut : Obligations.TablesHoldWhatIsPut :=
  fun _ t j k a => ⟨Tab.find_put t j k a, Tab.find_del t j k, fun h => ⟨Tab.put_wf t k a h, Tab.del_wf t k h⟩⟩

end Sys2Proof.Proofs
end

section
/-! SUPPORT. The frames of the rows, of the commands of packets and of a step: what `exec` leaves unchanged. -/

namespace Sys2Proof.Machine

/-- The parts of a row that is no command of a packet are all that it changes. -/
theorem exec_within {i : Instr} {dt : Nat} {l : List Part} (h : rowParts i = some (dt, l)) (s : State) : NextWithin l (s.advance dt) (exec i s) := by
  cases i <;> simp only [rowParts, Option.some.injEq, Prod.mk.injEq, reduceCtorEq] at h <;> obtain ⟨rfl, rfl⟩ := h
  all_goals simp [exec, allParts,
    execBeaconLost_within, execEgressSelect_within, execLaunchWindowOpen_within, execQueueSample_within, execTransmitComplete_within,
    execAuAbandon_within, execDecodeTask_within, execComposeTask_within, execGraphicCopy_within, execEncodeTask_within,
    execGangFinish_within, execBeatTrigger_within, execEscapementResume_within, execEscapementWalk_within, execTaskExpired_within,
    execTaskStart_within, execTestWindow_within, execTriggerWord_within, execReceiveTask_within, execSendTask_within,
    execExpressPacket_within, execIngressFrameEnd_within, execRtcpPacket_within, execRtpPacket_within, execTagVerdict_within,
    execKeyAutoRoll_within, execMigrationSegment_within, execSealComplete_within, execSegmentSend_within, execMix_within,
    execTalkerSelection_within, execEventArrival_within, execEventPacketSend_within, execEventRelease_within, execBeatAudit_within,
    execHbmScrub_within, execRefreshDue_within, execTemperatureReading_within, execAlignmentLoss_within, execBringupRetry_within,
    execBringupStageComplete_within, execBringupStageTimeout_within, execCmisPoll_within, execDfeTapLimit_within, execDownHoldEnd_within,
    execFecWindow_within, execIplReplay_within, execLaneFailure_within, execOpticsInserted_within, execOpticsRemoved_within,
    execUpHoldEnd_within, execAnnounceTimeout_within, execCounterCompare_within, execHoldoverExpired_within, execOcxoAlarm_within,
    execOcxoStable_within, execOneShot_within, execPtpAnnounceReceived_within, execPtpAnnounceSend_within, execPtpDelayReqReceived_within,
    execPtpDelayReqSend_within, execPtpDelayRespReceived_within, execPtpSyncReceived_within, execPtpSyncSend_within,
    execRegulatorUpdate_within, execReplicaCheck_within, execSourceTimeout_within, execTimeInAverage_within, execTimeInEdge_within,
    execTimeInLost_within, execTimeOutEdge_within, execUnicastGrantExpiry_within, execUnicastNegotiation_within, execBistSliceEnd_within,
    execBistSliceStart_within, execDieRecoveryComplete_within, execDieToDieLinkFailure_within, execJumper_within, execMainsApplied_within,
    execOnCommandTestComplete_within, execRestartDelay_within, execSettingModeRetry_within, execStartStageComplete_within,
    execStartStageTimeout_within, execFanFailed_within, execHoldUpExpiry_within, execMainsInterruption_within, execMainsRestored_within,
    execPsuFault_within, execPsuInput_within, execStandbyRailDrop_within, execThermalLoop_within, execThermalStop_within,
    execCachedReplyResend_within, execClientFinish_within, execClientHello_within, execDhcpReply_within, execDhcpRetransmission_within,
    execDhcpTimeout_within, execEffectiveInstant_within, execHalfOpenTimeout_within, execHeartbeat_within, execHeartbeatLoss_within,
    execLeaseExpiry_within, execLeaseRenewal_within, execPrimaryLossNoStandby_within, execReceivedFrame_within, execReply_within,
    execSessionErase_within, execSessionExpiring_within, execSessionExpiry_within, execSessionIdleTimeout_within, execStandbyLoss_within,
    execVcpPacketRejected_within]

/-- A row has parts of its own exactly where it is no command of a packet. -/
theorem rowParts_isSome_iff (i : Instr) : (rowParts i).isSome = true ↔ packetCommand i = none := by
  cases i <;> simp [rowParts, packetCommand]

end Sys2Proof.Machine

namespace Sys2Proof.Proofs

open Sys2Proof Sys2Proof.Machine

/-- Settles O60, from the frames of the rows. -/
theorem rowsChangeOnlyTheirParts : Obligations.RowsChangeOnlyTheirParts := by
  refine ⟨fun i dt l h s => exec_within h s, rowParts_isSome_iff, fun dt die inst haps poison s i id hd hi ho => ?_,
    fun dt die inst haps poison s i id k hd hi ho => ?_, fun dt die inst haps s i id hd hi ho hx => ?_,
    fun dt die inst haps poison s i id hd hi ho hx => ?_, fun dt die inst haps poison transit s i hd hi ho => ?_⟩
  · apply execComposeTask_scoped (hd := hd) (hi := hi) (ho := ho) <;> simp
  · apply execEncodeTask_scoped (hd := hd) (hi := hi) (ho := ho) <;> simp
  · apply execReceiveTask_scoped (hd := hd) (hi := hi) (ho := ho) (hx := hx) <;> simp
  · apply execSendTask_scoped (hd := hd) (hi := hi) (ho := ho) (hx := hx) <;> simp
  · apply execMix_scoped (hd := hd) (hi := hi) (ho := ho) <;> simp

end Sys2Proof.Proofs
end

section
/-! SUPPORT. What the commands change at once and beyond, the opcodes of setting mode, and the reset state. -/

namespace Sys2Proof.Machine

/-- A command that changes nothing at once has no such change in its effect. -/
theorem effect_atOnce_nil {i : Instr} {d : CmdDef} {r : CmdRef} {b : List Byte} (h : packetCommand i = some (d, r, b))
    (hi : changesAtOnce i = false) (e : Env) : (d.effect e).atOnce = [] := by
  cases i <;> simp only [packetCommand, Option.some.injEq, Prod.mk.injEq, reduceCtorEq] at h <;> obtain ⟨rfl, rfl, rfl⟩ := h
  case cmdSessionClose => simp only [sessionCloseDef]; split <;> rfl
  case cmdClaimRelease => simp only [claimReleaseDef]; split <;> rfl
  case cmdKeyRoll => simp only [keyRollDef]; split <;> rfl
  case cmdXpTieFree => simp only [tieFreeDef]; split <;> rfl
  case cmdPoolStatus | cmdHbmStatus | cmdMemRead | cmdAudit => cases hi
  all_goals rfl

/-- What an effect changes at once lies in the pools and in the memory. -/
theorem effect_atOnce_within {l : List Part} {i : Instr} {d : CmdDef} {r : CmdRef} {b : List Byte} (h : packetCommand i = some (d, r, b))
    (hPools : Part.pools ∈ l) (hMem : Part.mem ∈ l) (hEvents : Part.events ∈ l) (e : Env) (s t : State) :
    Within l s (applyAll (d.effect e).atOnce t) ↔ Within l s t := by
  cases hi : changesAtOnce i with
  | false => rw [effect_atOnce_nil h hi]; rfl
  | true =>
    cases i <;> simp only [packetCommand, Option.some.injEq, Prod.mk.injEq, changesAtOnce, reduceCtorEq] at h hi <;> obtain ⟨rfl, rfl, rfl⟩ := h
    case cmdPoolStatus => simp [poolStatusDef, applyAll, applyChange, applySched, hPools]
    case cmdSealImportOpen => rfl
    case cmdHbmStatus => simp [hbmStatusDef, applyAll, applyChange, hMem, hEvents]
    case cmdMemRead => simp [memReadDef, applyAll, applyChange, hMem, hEvents]
    case cmdAudit => simp [auditDef, applyAll, applyChange, hMem, hEvents]

/-- Only the opening of a sealed image changes something when it is refused. -/
theorem onFail_nil {i : Instr} {d : CmdDef} {r : CmdRef} {b : List Byte} (h : packetCommand i = some (d, r, b))
    (hi : changesAtOnce i = false) (e : Env) (x : Err) : d.onFail e x = [] := by
  cases i <;> simp only [packetCommand, Option.some.injEq, Prod.mk.injEq, reduceCtorEq] at h <;> obtain ⟨rfl, rfl, rfl⟩ := h
  case cmdSealImportOpen => cases hi
  all_goals rfl

/-- What a refusal changes is an event. -/
theorem onFail_within {l : List Part} {i : Instr} {d : CmdDef} {r : CmdRef} {b : List Byte} (h : packetCommand i = some (d, r, b))
    (hEvents : Part.events ∈ l) (e : Env) (x : Err) (s t : State) : Within l s (applyAll (d.onFail e x) t) ↔ Within l s t := by
  cases hi : changesAtOnce i with
  | false => rw [onFail_nil h hi]; rfl
  | true =>
    cases i <;> simp only [packetCommand, Option.some.injEq, Prod.mk.injEq, changesAtOnce, reduceCtorEq] at h hi <;> obtain ⟨rfl, rfl, rfl⟩ := h
    case cmdSealImportOpen => simp only [importOpenDef]; split <;> simp [applyAll, applyChange, applyVcp, hEvents]
    all_goals rfl

/-- The opcodes that setting mode accepts (R48). -/
theorem setting_iff {i : Instr} {d : CmdDef} {r : CmdRef} {b : List Byte} (h : packetCommand i = some (d, r, b)) :
    d.setting = true ↔ i ≠ .cmdResetRecoverDie r b ∧ d.opcode ∈ [0x0001, 0x0002, 0x0003, 0x0004, 0x0005, 0x0006, 0x0C01, 0x0C02, 0x0C03,
      0x0D02, 0x0D03, 0x0D04, 0x0D05, 0x0D06, 0x0F01, 0x0F02, 0x0F03, 0x0F04, 0x0F05, 0x0F06, 0x0F07, 0x0F08, 0x0F0B, 0x0F0E] := by
  cases i <;> simp only [packetCommand, Option.some.injEq, Prod.mk.injEq, reduceCtorEq] at h <;> obtain ⟨rfl, rfl, rfl⟩ := h
  case cmdResetRecoverDie => exact iff_of_false Bool.false_ne_true (fun hne => hne.1 rfl)
  case cmdMemRead found => exact iff_of_true rfl ⟨by simp, by simp [memReadDef]⟩
  all_goals simp only [ne_eq, reduceCtorEq, not_false_eq_true, true_and]; decide

end Sys2Proof.Machine
namespace Sys2Proof.Proofs

open Sys2Proof Sys2Proof.Machine

/-- Settles O32, from the frame of `runCmd` and what effects and refusals change at once. -/
theorem commandsChangeOnlyWhatWaits : Obligations.CommandsChangeOnlyWhatWaits := by
  intro i d r b s h
  rw [exec_packetCommand h]
  constructor
  · exact runCmd_within (by simp) (by simp) (by simp) (Or.inr (by simp)) (fun e x t u => (onFail_within h (by simp) e x t u).2)
      (fun e t u => (effect_atOnce_within h (by simp) (by simp) (by simp) e t u).2)
  · intro hf hi
    refine runCmd_within (by simp) (by simp) (by simp) (Or.inl hf) (fun e x t u hw => ?_) (fun e t u hw => ?_)
    · rwa [onFail_nil h hi]
    · rwa [effect_atOnce_nil h hi]

/-- Settles O31: the opcodes by the table of rows, the SETTING_MODE record by the statement on failing commands. -/
theorem settingModeOpcodes : Obligations.SettingModeOpcodes := by
  intro i d r b h
  refine ⟨setting_iff h, fun s z p ht hp ha hf hs hd => ?_⟩
  rw [exec_packetCommand h, runCmd_of_taken ht, hf, runRecord_of_setting r.tag b hp hs hd, failCmd_of_not_atomic z _ _ _ ha]
  rfl

/-- Settles O1. -/
theorem stepRunsFrontCommand : Obligations.StepRunsFrontCommand := by
  intro s c rest h
  simp [step, h]

/-- Settles O2. -/
theorem emptyQueueIdles : Obligations.EmptyQueueIdles := by
  intro s h
  simp [step, h]

/-- Settles O4, by the values of reset. -/
theorem resetIsEmpty : Obligations.ResetIsEmpty :=
  ⟨rfl, rfl, rfl, rfl, rfl, rfl, rfl, rfl, rfl, rfl, rfl, rfl, rfl, rfl, rfl, rfl, rfl, rfl, rfl⟩

/-- Settles O5: reset holds no claim. -/
theorem resetHasClaimsInv : Obligations.ResetHasClaimsInv :=
  ⟨List.Pairwise.nil, fun _ h => absurd h List.not_mem_nil⟩

end Sys2Proof.Proofs
end

section
/-! SUPPORT. Commands that complete: an accepted command leaves its effect, and one that only reads its record. -/

namespace Sys2Proof.Machine

/-- What an accepted command leaves that stages nothing, takes no claim and changes nothing at once. -/
theorem completed_eq_answered (z : State) (p : ExecPkt) (opcode tag : Nat) {o : CmdOut} (hs : o.stage = []) (hc : o.claims = [])
    (ha : o.atOnce = []) : z.completed p opcode tag o = z.answered p opcode tag .ok o.result := by
  simp [State.completed, State.answered, newClaims, applyAll, hs, hc, ha]

/-- A command of a packet completes. -/
theorem completes_of_row {d : CmdDef} {c : CmdRef → List Byte → Instr}
    (h : ∀ r b, packetCommand (c r b) = some (d, r, b)) : d.Completes c := by
  intro r b s z p e ha
  rw [exec_packetCommand (h r b), runCmd_of_accepts ha]

/-- A command of a packet whose effect is its result block only reads. -/
theorem readsOnly_of_row {d : CmdDef} {c : CmdRef → List Byte → Instr}
    (h : ∀ r b, packetCommand (c r b) = some (d, r, b))
    (ho : ∀ e, (d.effect e).stage = [] ∧ (d.effect e).claims = [] ∧ (d.effect e).atOnce = []) :
    d.ReadsOnly c := by
  intro r b s z p e ha
  obtain ⟨hs, hc, hatOnce⟩ := ho e
  rw [exec_packetCommand (h r b), runCmd_of_accepts ha, completed_eq_answered z p _ _ hs hc hatOnce]

end Sys2Proof.Machine

namespace Sys2Proof.Proofs

open Sys2Proof Sys2Proof.Machine

/-- Settles O12, command by command. -/
theorem baseCommandsComplete : Obligations.BaseCommandsComplete :=
  ⟨readsOnly_of_row (fun _ _ => rfl) (fun _ => ⟨rfl, rfl, rfl⟩), completes_of_row (fun _ _ => rfl),
    readsOnly_of_row (fun _ _ => rfl) (fun _ => ⟨rfl, rfl, rfl⟩), completes_of_row (fun _ _ => rfl),
    readsOnly_of_row (fun _ _ => rfl) (fun _ => ⟨rfl, rfl, rfl⟩), completes_of_row (fun _ _ => rfl)⟩

/-- Settles O13, command by command. -/
theorem taskCommandsComplete : Obligations.TaskCommandsComplete :=
  ⟨readsOnly_of_row (fun _ _ => rfl) (fun _ => ⟨rfl, rfl, rfl⟩), readsOnly_of_row (fun _ _ => rfl) (fun _ => ⟨rfl, rfl, rfl⟩),
    completes_of_row (fun _ _ => rfl), completes_of_row (fun _ _ => rfl), readsOnly_of_row (fun _ _ => rfl) (fun _ => ⟨rfl, rfl, rfl⟩)⟩

/-- Settles O14, command by command. -/
theorem forwardingCommandsComplete : Obligations.ForwardingCommandsComplete :=
  ⟨completes_of_row (fun _ _ => rfl), completes_of_row (fun _ _ => rfl), completes_of_row (fun _ _ => rfl), completes_of_row (fun _ _ => rfl),
    completes_of_row (fun _ _ => rfl), completes_of_row (fun _ _ => rfl), completes_of_row (fun _ _ => rfl),
    readsOnly_of_row (fun _ _ => rfl) (fun _ => ⟨rfl, rfl, rfl⟩), readsOnly_of_row (fun _ _ => rfl) (fun _ => ⟨rfl, rfl, rfl⟩)⟩

/-- Settles O15, command by command. -/
theorem cipherCommandsComplete : Obligations.CipherCommandsComplete :=
  ⟨completes_of_row (fun _ _ => rfl), completes_of_row (fun _ _ => rfl), readsOnly_of_row (fun _ _ => rfl) (fun _ => ⟨rfl, rfl, rfl⟩),
    completes_of_row (fun _ _ => rfl), completes_of_row (fun _ _ => rfl), completes_of_row (fun _ _ => rfl), completes_of_row (fun _ _ => rfl),
    completes_of_row (fun _ _ => rfl), completes_of_row (fun _ _ => rfl), readsOnly_of_row (fun _ _ => rfl) (fun _ => ⟨rfl, rfl, rfl⟩),
    completes_of_row (fun _ _ => rfl), completes_of_row (fun _ _ => rfl), readsOnly_of_row (fun _ _ => rfl) (fun _ => ⟨rfl, rfl, rfl⟩),
    completes_of_row (fun _ _ => rfl),
    completes_of_row (fun _ _ => rfl)⟩

/-- Settles O16, command by command. -/
theorem egressCommandsComplete : Obligations.EgressCommandsComplete :=
  ⟨completes_of_row (fun _ _ => rfl), completes_of_row (fun _ _ => rfl), completes_of_row (fun _ _ => rfl), completes_of_row (fun _ _ => rfl),
    completes_of_row (fun _ _ => rfl), readsOnly_of_row (fun _ _ => rfl) (fun _ => ⟨rfl, rfl, rfl⟩), completes_of_row (fun _ _ => rfl),
    completes_of_row (fun _ _ => rfl), completes_of_row (fun _ _ => rfl), readsOnly_of_row (fun _ _ => rfl) (fun _ => ⟨rfl, rfl, rfl⟩),
    completes_of_row (fun _ _ => rfl), readsOnly_of_row (fun _ _ => rfl) (fun _ => ⟨rfl, rfl, rfl⟩), completes_of_row (fun _ _ => rfl)⟩

/-- Settles O17, command by command. -/
theorem decodeCommandsComplete : Obligations.DecodeCommandsComplete :=
  ⟨completes_of_row (fun _ _ => rfl), completes_of_row (fun _ _ => rfl), completes_of_row (fun _ _ => rfl), completes_of_row (fun _ _ => rfl),
    readsOnly_of_row (fun _ _ => rfl) (fun _ => ⟨rfl, rfl, rfl⟩), readsOnly_of_row (fun _ _ => rfl) (fun _ => ⟨rfl, rfl, rfl⟩)⟩

/-- Settles O18, command by command. -/
theorem composeCommandsComplete : Obligations.ComposeCommandsComplete :=
  ⟨completes_of_row (fun _ _ => rfl), completes_of_row (fun _ _ => rfl), completes_of_row (fun _ _ => rfl), completes_of_row (fun _ _ => rfl),
    readsOnly_of_row (fun _ _ => rfl) (fun _ => ⟨rfl, rfl, rfl⟩), completes_of_row (fun _ _ => rfl), completes_of_row (fun _ _ => rfl),
    completes_of_row (fun _ _ => rfl), completes_of_row (fun _ _ => rfl), completes_of_row (fun _ _ => rfl)⟩

/-- Settles O19, command by command. -/
theorem encodeCommandsComplete : Obligations.EncodeCommandsComplete :=
  ⟨completes_of_row (fun _ _ => rfl), completes_of_row (fun _ _ => rfl), completes_of_row (fun _ _ => rfl), completes_of_row (fun _ _ => rfl),
    completes_of_row (fun _ _ => rfl), readsOnly_of_row (fun _ _ => rfl) (fun _ => ⟨rfl, rfl, rfl⟩),
    readsOnly_of_row (fun _ _ => rfl) (fun _ => ⟨rfl, rfl, rfl⟩)⟩

/-- Settles O20, command by command. -/
theorem audioCommandsComplete : Obligations.AudioCommandsComplete :=
  ⟨completes_of_row (fun _ _ => rfl), completes_of_row (fun _ _ => rfl), completes_of_row (fun _ _ => rfl), completes_of_row (fun _ _ => rfl),
    completes_of_row (fun _ _ => rfl), readsOnly_of_row (fun _ _ => rfl) (fun _ => ⟨rfl, rfl, rfl⟩),
    readsOnly_of_row (fun _ _ => rfl) (fun _ => ⟨rfl, rfl, rfl⟩),
    readsOnly_of_row (fun _ _ => rfl) (fun _ => ⟨rfl, rfl, rfl⟩)⟩

/-- Settles O21, command by command. -/
theorem crosspointCommandsComplete : Obligations.CrosspointCommandsComplete :=
  ⟨completes_of_row (fun _ _ => rfl), completes_of_row (fun _ _ => rfl), completes_of_row (fun _ _ => rfl), completes_of_row (fun _ _ => rfl),
    completes_of_row (fun _ _ => rfl), completes_of_row (fun _ _ => rfl), completes_of_row (fun _ _ => rfl),
    readsOnly_of_row (fun _ _ => rfl) (fun _ => ⟨rfl, rfl, rfl⟩), readsOnly_of_row (fun _ _ => rfl) (fun _ => ⟨rfl, rfl, rfl⟩),
    readsOnly_of_row (fun _ _ => rfl) (fun _ => ⟨rfl, rfl, rfl⟩), readsOnly_of_row (fun _ _ => rfl) (fun _ => ⟨rfl, rfl, rfl⟩)⟩

/-- Settles O22, command by command. -/
theorem beaconCommandsComplete : Obligations.BeaconCommandsComplete :=
  ⟨completes_of_row (fun _ _ => rfl), readsOnly_of_row (fun _ _ => rfl) (fun _ => ⟨rfl, rfl, rfl⟩),
    readsOnly_of_row (fun _ _ => rfl) (fun _ => ⟨rfl, rfl, rfl⟩), readsOnly_of_row (fun _ _ => rfl) (fun _ => ⟨rfl, rfl, rfl⟩),
    readsOnly_of_row (fun _ _ => rfl) (fun _ => ⟨rfl, rfl, rfl⟩)⟩

/-- Settles O23, command by command. -/
theorem timeCommandsComplete : Obligations.TimeCommandsComplete :=
  ⟨readsOnly_of_row (fun _ _ => rfl) (fun _ => ⟨rfl, rfl, rfl⟩), completes_of_row (fun _ _ => rfl), completes_of_row (fun _ _ => rfl),
    readsOnly_of_row (fun _ _ => rfl) (fun _ => ⟨rfl, rfl, rfl⟩), completes_of_row (fun _ _ => rfl), completes_of_row (fun _ _ => rfl),
    completes_of_row (fun _ _ => rfl),
    completes_of_row (fun _ _ => rfl), completes_of_row (fun _ _ => rfl), completes_of_row (fun _ _ => rfl), completes_of_row (fun _ _ => rfl),
    completes_of_row (fun _ _ => rfl)⟩

/-- Settles O24, command by command. -/
theorem memoryCommandsComplete : Obligations.MemoryCommandsComplete :=
  ⟨completes_of_row (fun _ _ => rfl), fun _ => completes_of_row (fun _ _ => rfl), readsOnly_of_row (fun _ _ => rfl) (fun _ => ⟨rfl, rfl, rfl⟩),
    completes_of_row (fun _ _ => rfl)⟩

/-- Settles O25, command by command. -/
theorem portCommandsComplete : Obligations.PortCommandsComplete :=
  ⟨completes_of_row (fun _ _ => rfl), readsOnly_of_row (fun _ _ => rfl) (fun _ => ⟨rfl, rfl, rfl⟩),
    readsOnly_of_row (fun _ _ => rfl) (fun _ => ⟨rfl, rfl, rfl⟩), completes_of_row (fun _ _ => rfl), completes_of_row (fun _ _ => rfl),
    completes_of_row (fun _ _ => rfl), completes_of_row (fun _ _ => rfl),
    completes_of_row (fun _ _ => rfl), completes_of_row (fun _ _ => rfl), completes_of_row (fun _ _ => rfl), completes_of_row (fun _ _ => rfl),
    completes_of_row (fun _ _ => rfl), readsOnly_of_row (fun _ _ => rfl) (fun _ => ⟨rfl, rfl, rfl⟩), completes_of_row (fun _ _ => rfl)⟩

/-- Settles O26, command by command. -/
theorem eventCommandsComplete : Obligations.EventCommandsComplete :=
  ⟨completes_of_row (fun _ _ => rfl), completes_of_row (fun _ _ => rfl), readsOnly_of_row (fun _ _ => rfl) (fun _ => ⟨rfl, rfl, rfl⟩),
    readsOnly_of_row (fun _ _ => rfl) (fun _ => ⟨rfl, rfl, rfl⟩), completes_of_row (fun _ _ => rfl)⟩

/-- Settles O27, command by command. -/
theorem startCommandsComplete : Obligations.StartCommandsComplete :=
  ⟨readsOnly_of_row (fun _ _ => rfl) (fun _ => ⟨rfl, rfl, rfl⟩), completes_of_row (fun _ _ => rfl), completes_of_row (fun _ _ => rfl),
    completes_of_row (fun _ _ => rfl), readsOnly_of_row (fun _ _ => rfl) (fun _ => ⟨rfl, rfl, rfl⟩),
    readsOnly_of_row (fun _ _ => rfl) (fun _ => ⟨rfl, rfl, rfl⟩), completes_of_row (fun _ _ => rfl),
    completes_of_row (fun _ _ => rfl), readsOnly_of_row (fun _ _ => rfl) (fun _ => ⟨rfl, rfl, rfl⟩),
    readsOnly_of_row (fun _ _ => rfl) (fun _ => ⟨rfl, rfl, rfl⟩), completes_of_row (fun _ _ => rfl), completes_of_row (fun _ _ => rfl),
    completes_of_row (fun _ _ => rfl), readsOnly_of_row (fun _ _ => rfl) (fun _ => ⟨rfl, rfl, rfl⟩),
    completes_of_row (fun _ _ => rfl), readsOnly_of_row (fun _ _ => rfl) (fun _ => ⟨rfl, rfl, rfl⟩), completes_of_row (fun _ _ => rfl),
    completes_of_row (fun _ _ => rfl), completes_of_row (fun _ _ => rfl)⟩

end Sys2Proof.Proofs
end

section
/-! SUPPORT. Every step answers, and the holder that an error names. -/

namespace Sys2Proof.Machine

theorem queue_not_mem_rowParts {i : Instr} {dt : Nat} {l : List Part} (h : rowParts i = some (dt, l)) : Part.queue ∉ l := by
  cases i <;> simp only [rowParts, Option.some.injEq, Prod.mk.injEq, reduceCtorEq] at h <;> obtain ⟨-, rfl⟩ := h
  all_goals decide

theorem pending_advance (s : State) (dt : Nat) : (s.advance dt).pending = s.pending := by
  unfold State.advance
  split <;> rfl

/-- Every command of the queue answers a next state and leaves the queue's rest as it is. -/
theorem exec_answers (i : Instr) (s : State) : ∃ t, exec i s = .next t ∧ t.pending = s.pending := by
  have hframe : ∃ dt l, Part.queue ∉ l ∧ NextWithin l (s.advance dt) (exec i s) := by
    cases hi : packetCommand i with
    | none =>
      obtain ⟨⟨dt, l⟩, hl⟩ := Option.isSome_iff_exists.1 ((rowParts_isSome_iff i).2 hi)
      exact ⟨dt, l, queue_not_mem_rowParts hl, exec_within hl s⟩
    | some c =>
      obtain ⟨d, r, b⟩ := c
      exact ⟨r.dt, _, by decide, (Proofs.commandsChangeOnlyWhatWaits i d r b s hi).1⟩
  obtain ⟨dt, l, hqueue, t, ht, hw⟩ := hframe
  exact ⟨t, ht, (hw .queue hqueue).trans (pending_advance s dt)⟩

/- Error blocks (R51). -/

/-- The holder that an error names is the claim that holds the resource. -/
theorem heldBy_of_holder {s : State} {c : Claim} {res : Resource} (off : Nat) (h : s.vcp.holder res = some c) :
    heldBy s res off = s.heldErr c c.site off := by
  simp [heldBy, h]

/-- The session that an error names as the holder: 0 for the module, 0xFFFF_FFFF for one that has ended (R51, R55). -/
theorem heldErr_holderSession (s : State) (c : Claim) (site off : Nat) :
    (s.heldErr c site off).holderSession =
      if c.session = 0 then 0
      else if ∃ y ∈ s.vcp.sessions, y.id = c.session ∧ y.expired = none then c.session else 0xFFFFFFFF := by
  simp [State.heldErr]

end Sys2Proof.Machine
namespace Sys2Proof.Proofs

open Sys2Proof Sys2Proof.Machine

/-- Settles O3: the command at the front answers, and the queue's rest stays. -/
theorem everyStepAnswers : Obligations.EveryStepAnswers := by
  intro s
  cases hq : s.pending with
  | nil => exact ⟨s, by simp [step, hq], by simp [hq]⟩
  | cons c rest =>
    obtain ⟨t, ht, hpending⟩ := exec_answers c { s with pending := rest }
    exact ⟨t, by simpa [step, hq] using ht, hpending⟩

/-- Settles O30: the block written out byte for byte, and the holder by what `heldErr` names. -/
theorem errorBlockNamesHolder : Obligations.ErrorBlockNamesHolder := by
  refine ⟨fun e => ?_, fun s c res off h => ?_⟩
  · simp [Err.block, zeros, beBytes]
  · rw [heldBy_of_holder off h, heldErr_holderSession]
    refine ⟨rfl, rfl, rfl, fun hmodule => if_pos hmodule, fun hsession hended => ?_, fun hsession hlive => ?_⟩
    · rw [if_neg hsession, if_neg]
      rintro ⟨y, hy, hid, hlive⟩
      simpa [hlive] using hended y hy hid
    · rw [if_neg hsession, if_pos hlive]

end Sys2Proof.Proofs
end

section
/-! SUPPORT. The canonical form of the claims (R55): each operation that takes or drops claims keeps it, and every other one leaves the
claims as they are. -/

namespace Sys2Proof.Machine

/-- Every part but the queue and the claims. -/
def otherParts : List Part := allParts.erase .claims

@[simp] theorem mem_otherParts (p : Part) : p ∈ otherParts ↔ p ≠ .queue ∧ p ≠ .claims := by cases p <;> decide

/-- What leaves the claims as they are keeps their canonical form. -/
theorem State.ClaimsInv.of_same {s t : State} (h : s.ClaimsInv) (hsame : Part.claims.same s t) : t.ClaimsInv := by
  obtain ⟨hclaims, hnext⟩ := hsame
  obtain ⟨hrise, hbelow⟩ := h
  exact ⟨hclaims ▸ hrise, fun c hc => hnext ▸ hbelow c (hclaims ▸ hc)⟩

theorem State.ClaimsInv.of_within {s t : State} (h : s.ClaimsInv) (hw : Within otherParts s t) : t.ClaimsInv :=
  h.of_same (hw .claims (by simp))

theorem VcpState.claimsOk_of_filter {v : VcpState} (h : v.claimsOk) (keep : Claim → Bool) :
    ({ v with claims := v.claims.filter keep } : VcpState).claimsOk :=
  ⟨h.1.filter keep, fun c hc => h.2 c (List.mem_filter.1 hc).1⟩

theorem VcpState.claimsOk_of_nil (v : VcpState) (h : v.claims = []) : v.claimsOk := by
  simp [VcpState.claimsOk, h]

theorem ClaimsInv.foldl {α : Type} {f : State → α → State} (hf : ∀ t x, t.ClaimsInv → (f t x).ClaimsInv) (xs : List α) {s : State}
    (h : s.ClaimsInv) : (xs.foldl f s).ClaimsInv :=
  List.foldlRecOn xs f h (fun t ht x _ => hf t x ht)

/- Taking and dropping. -/

/-- A new claim stands last, under the next identifier. -/
theorem takeClaim_claimsInv {s : State} (site session opcode : Nat) (res : Resource) (h : s.ClaimsInv) :
    (s.takeClaim site session opcode res).ClaimsInv := by
  obtain ⟨hrise, hbelow⟩ := h
  refine ⟨List.pairwise_append.2 ⟨hrise, List.pairwise_singleton _ _, fun a ha b hb => ?_⟩, fun c hc => ?_⟩
  · rw [List.mem_singleton.1 hb]
    exact hbelow a ha
  · rcases List.mem_append.1 hc with hc | hc
    · exact Nat.lt_succ_of_lt (hbelow c hc)
    · rw [List.mem_singleton.1 hc]
      exact Nat.lt_succ_self _

theorem dropClaim_claimsInv {s : State} (id : Nat) (h : s.ClaimsInv) : (s.dropClaim id).ClaimsInv :=
  VcpState.claimsOk_of_filter h _

theorem undo_claimsInv {s : State} (p : ExecPkt) (h : s.ClaimsInv) : (s.undo p).ClaimsInv :=
  VcpState.claimsOk_of_filter h _

theorem wiped_claimsInv (s : State) (r : Run) : (s.wiped r).ClaimsInv := VcpState.claimsOk_of_nil _ rfl

/- Tests, fencing and starts. -/

theorem stopTests_claimsInv {s : State} (d : Nat) (h : s.ClaimsInv) : (s.stopTests d).ClaimsInv := by
  unfold State.stopTests
  refine ClaimsInv.foldl (fun t x ht => ht.of_within (by simp)) _ (ClaimsInv.foldl (fun t x ht => ht.of_within ?_) _ ?_)
  · split <;> simp
  · exact VcpState.claimsOk_of_filter h _

theorem endTest_claimsInv {s : State} (d verdict done failures : Nat) (h : s.ClaimsInv) : (s.endTest d verdict done failures).ClaimsInv := by
  unfold State.endTest
  refine State.ClaimsInv.of_within ?_ ((State.verdictEvent_within (by simp)).2 Within.refl)
  split
  · exact dropClaim_claimsInv _ h
  · exact h

theorem abortTest_claimsInv {s : State} (d : Nat) (h : s.ClaimsInv) : (s.abortTest d).ClaimsInv := by
  unfold State.abortTest
  split
  · exact endTest_claimsInv _ _ _ _ h
  · exact h

theorem stopDie_claimsInv {s : State} (d cause : Nat) (h : s.ClaimsInv) : (s.stopDie d cause).ClaimsInv := by
  have hhalt : (s.haltDie d).ClaimsInv := h.of_within (by simp)
  exact (stopTests_claimsInv d hhalt).of_within (by simp [State.stopDie])

theorem fenceDie_claimsInv {s : State} (d cause : Nat) (h : s.ClaimsInv) : (s.fenceDie d cause).ClaimsInv := by
  unfold State.fenceDie
  split
  · exact h
  · exact (stopDie_claimsInv d cause h).of_within (by simp)

theorem fenceWithPackage_claimsInv {s : State} (d : Nat) (h : s.ClaimsInv) : (s.fenceWithPackage d).ClaimsInv := by
  unfold State.fenceWithPackage
  refine State.ClaimsInv.of_within ?_ ((State.fencedEvent_within (by simp)).2 Within.refl)
  split
  · exact h
  · exact stopDie_claimsInv d 6 h

theorem leave_claimsInv {s : State} (p : Nat) (h : s.ClaimsInv) : (s.leave p).ClaimsInv := by
  have hdies := ClaimsInv.foldl (fun t d ht => fenceWithPackage_claimsInv d ht) ((List.range 4).map (fun j => 4 * p + j)) h
  have hstop := stopTests_claimsInv (8 + p) hdies
  unfold State.leave
  split <;> exact hstop.of_within (by simp)

theorem beginStart_claimsInv (s : State) (setting : Bool) : (s.beginStart setting).ClaimsInv :=
  wiped_claimsInv s (.starting 1)

theorem failedStart_claimsInv (s : State) (r : FailRec) : (s.failedStart r).ClaimsInv :=
  wiped_claimsInv s.saveCounter .failed

theorem unlockScan_claimsInv (s : State) : s.unlockScan.ClaimsInv := VcpState.claimsOk_of_nil _ rfl

theorem endStage_claimsInv {s : State} (n : Nat) (h : s.ClaimsInv) : (s.endStage n).ClaimsInv := by
  unfold State.endStage
  extract_lets _ _ _ _ _ _ s1
  have hwork : (s1.stageWork n).ClaimsInv := State.ClaimsInv.of_within (s := s1) h (by simp)
  split
  · exact VcpState.claimsOk_of_nil _ rfl
  · split
    · exact failedStart_claimsInv _ _
    · split
      · exact hwork
      · exact State.ClaimsInv.of_within (t := (s1.stageWork n).finishStart) hwork (by simp)

theorem stageFails_claimsInv {s : State} (n : Nat) (fails : List (Nat × Nat × Nat)) (h : s.ClaimsInv) : (s.stageFails n fails).ClaimsInv := by
  unfold State.stageFails
  dsimp only
  split
  · exact failedStart_claimsInv _ _
  · exact endStage_claimsInv n (h.of_within (by simp))

/- Changes. -/

theorem applyStart_claimsInv {s : State} (c : StartChange) (h : s.ClaimsInv) : (applyStart c s).ClaimsInv := by
  cases c with
  | restart clear => exact beginStart_claimsInv _ false
  | recover d => exact (fenceDie_claimsInv d 5 h).of_within (by simp [applyStart, State.recoverDie])
  | bist site enable =>
    simp only [applyStart, State.bistControl]
    split
    · exact h.of_within (by simp)
    · exact stopTests_claimsInv _ (h.of_within (by simp))
  | testStart d => exact (stopTests_claimsInv d (fenceDie_claimsInv d 4 h)).of_within (by simp [applyStart, State.startTest])
  | testAbort d => exact abortTest_claimsInv d h
  | fence d => exact fenceDie_claimsInv d 3 h
  | unlock => exact unlockScan_claimsInv s
  | firmwareWrite | firmwareCommit | otpSettings | otpRepairs => exact h.of_within (by simp [applyStart])

theorem applyVcp_claimsInv {s : State} (c : VcpChange) (h : s.ClaimsInv) : (applyVcp c s).ClaimsInv := by
  cases c with
  | claimRelease id => exact dropClaim_claimsInv id h
  | address port family => 
    simp only [applyVcp]
    split <;> exact h.of_within (by simp)
  | sessionClose | raise => exact h.of_within (by simp [applyVcp])

theorem applyChange_claimsInv {s : State} (c : Change) (h : s.ClaimsInv) : (applyChange c s).ClaimsInv := by
  cases c with
  | vcp c => exact applyVcp_claimsInv c h
  | start c => exact applyStart_claimsInv c h
  | _ => exact h.of_within (by simp [applyChange])

theorem applyAll_claimsInv {s : State} (cs : List Change) (h : s.ClaimsInv) : (applyAll cs s).ClaimsInv :=
  ClaimsInv.foldl (fun _ c ht => applyChange_claimsInv c ht) cs h

theorem takeScoped_claimsInv {s : State} (sc : Scope) (beat : Instant) (h : s.ClaimsInv) : (s.takeScoped sc beat).ClaimsInv :=
  applyAll_claimsInv _ h

theorem takeOne_claimsInv {s : State} (x : Staged) (h : s.ClaimsInv) : (s.takeOne x).ClaimsInv :=
  applyChange_claimsInv (s := { (s.markClusters x).bury x.beat x.change with now := _ }) x.change (h.of_within (by simp))

theorem applyDue_claimsInv (after : Bool) (fuel : Nat) {s : State} (h : s.ClaimsInv) : (applyDue after fuel s).ClaimsInv := by
  induction fuel generalizing s with
  | zero => exact h
  | succ f ih =>
    unfold applyDue
    split
    · exact h
    · split
      · exact h
      · exact ih (takeOne_claimsInv _ h)

theorem takeDue_claimsInv {s : State} (after : Bool) (h : s.ClaimsInv) : (s.takeDue after).ClaimsInv :=
  applyDue_claimsInv after s.staged.length h

/- Commands and replies of packets. -/

theorem failCmd_claimsInv {s : State} (p : ExecPkt) (opcode tag : Nat) (e : Err) (h : s.ClaimsInv) : (s.failCmd p opcode tag e).ClaimsInv := by
  cases ha : p.atomic with
  | false => rw [failCmd_of_not_atomic s opcode tag e ha]; exact h.of_within (by simp)
  | true => rw [failCmd_of_atomic s opcode tag e ha]; exact (undo_claimsInv p h).of_within (by simp)

theorem flushUndefined_claimsInv {s : State} (p : ExecPkt) (l : List PktRec) (h : s.ClaimsInv) : (flushUndefined s p l).1.ClaimsInv := by
  induction l generalizing s p with
  | nil => exact h
  | cons r rest ih =>
    have hfail := failCmd_claimsInv p r.opcode r.tag (badAt .badOpcode 0xFFFF) h
    unfold flushUndefined
    split
    · exact h
    · split
      · exact ih _ h
      · dsimp only
        split
        · exact ih _ hfail
        · exact hfail

theorem passCmd_claimsInv {s : State} (p : ExecPkt) (opcode tag : Nat) (o : CmdOut) (h : s.ClaimsInv) : (s.passCmd p opcode tag o).ClaimsInv := by
  have htake := ClaimsInv.foldl (fun t (c : Nat × Resource) ht => takeClaim_claimsInv c.1 p.session opcode c.2 ht) o.claims h
  unfold State.passCmd
  refine State.ClaimsInv.of_within ?_ ((State.setPacket_within (by simp)).2 Within.refl)
  exact applyAll_claimsInv o.atOnce htake

theorem runRecord_claimsInv {s : State} (d : CmdDef) (p : ExecPkt) (tag : Nat) (b : List Byte) (fault : Option Nat) (h : s.ClaimsInv) :
    (s.runRecord d p tag b fault).ClaimsInv := by
  unfold State.runRecord
  split
  · exact h.of_within (by simp)
  · split
    · refine failCmd_claimsInv p _ tag _ (h.of_within ?_)
      split <;> simp
    · split
      · exact failCmd_claimsInv p _ tag _ h
      · dsimp only
        split
        · exact applyAll_claimsInv _ (failCmd_claimsInv p _ tag _ h)
        · exact passCmd_claimsInv p _ tag _ h

theorem advance_claimsInv {s : State} (dt : Nat) (h : s.ClaimsInv) : (s.advance dt).ClaimsInv := by
  unfold State.advance
  split <;> exact h

theorem taken_claimsInv {d : CmdDef} {r : CmdRef} {b : List Byte} {s z : State} {p : ExecPkt} (ht : d.taken r b s = some (z, p))
    (h : s.ClaimsInv) : z.ClaimsInv := by
  simp only [CmdDef.taken] at ht
  split at ht
  · cases ht
  · next p0 _ =>
    have hflush := flushUndefined_claimsInv p0 p0.todo (advance_claimsInv r.dt h)
    split at ht
    · split at ht
      · cases ht
      · split at ht
        · cases ht
          exact hflush.of_within (by simp)
        · cases ht
    · cases ht

theorem runCmd_claimsInv {d : CmdDef} {r : CmdRef} {b : List Byte} {s t : State} (ht : runCmd d r b s = .next t) (h : s.ClaimsInv) :
    t.ClaimsInv := by
  rw [runCmd_eq] at ht
  split at ht
  · next z p htaken =>
    cases ht
    exact runRecord_claimsInv d p r.tag b r.firmwareFault (taken_claimsInv htaken h)
  · cases ht
    exact advance_claimsInv r.dt h

theorem reply_claimsInv {s : State} (p : ExecPkt) (h : s.ClaimsInv) : (s.reply p).ClaimsInv := by
  unfold State.reply
  split
  · exact h
  · next x _ =>
    extract_lets late closing s1
    have hs1 : s1.ClaimsInv := by
      simp only [s1]
      split
      · exact undo_claimsInv p h
      · exact h
    exact takeDue_claimsInv false (hs1.of_within (by simp))

/- The packages. -/

theorem forgetPackets_claimsInv {s : State} (p : Nat) (h : s.ClaimsInv) : (s.forgetPackets p).ClaimsInv :=
  ClaimsInv.foldl (fun _ q ht => undo_claimsInv q ht) (s.vcp.executing.filter (s.runsOn p)) h

theorem loseStandby_claimsInv {s : State} (h : s.ClaimsInv) : s.loseStandby.ClaimsInv := by
  unfold State.loseStandby
  dsimp only
  split
  · exact leave_claimsInv _ h
  · exact failedStart_claimsInv _ _

theorem takeover_claimsInv {s : State} (h : s.ClaimsInv) : s.takeover.ClaimsInv := by
  unfold State.takeover
  dsimp only
  split
  · refine State.ClaimsInv.of_within ?_ ((State.eventsTakeover_within (by simp) (by simp)).2 Within.refl)
    exact leave_claimsInv _ (State.ClaimsInv.of_within (forgetPackets_claimsInv s.role.primary h) (by simp))
  · exact failedStart_claimsInv _ _

/- The rows that may change claims. -/

/-- The outcome is no next state whose claims are out of their canonical form. -/
def OutClaimsInv (o : Out) : Prop := ∀ t, o = .next t → t.ClaimsInv

@[simp] theorem outClaimsInv_next (t : State) : OutClaimsInv (.next t) ↔ t.ClaimsInv :=
  ⟨fun h => h t rfl, fun h u hu => by cases hu; exact h⟩

/-- A row that leaves the claims alone keeps their canonical form. -/
theorem outClaimsInv_of_nextWithin {l : List Part} {s : State} {o : Out} (h : s.ClaimsInv) (hw : NextWithin l s o) (hl : Part.claims ∉ l) :
    OutClaimsInv o := by
  obtain ⟨t, rfl, hw⟩ := hw
  exact (outClaimsInv_next t).2 (h.of_same (hw .claims hl))

section
variable {s : State} (h : s.ClaimsInv)
include h

theorem execReply_claimsInv (dt session seq : Nat) : OutClaimsInv (execReply dt session seq s) := by
  have hz := advance_claimsInv dt h
  unfold execReply
  extract_lets z
  split
  · exact (outClaimsInv_next _).2 hz
  · next p0 _ =>
    split
    · exact (outClaimsInv_next _).2 hz
    · dsimp only
      split
      · have hflush : ((flushUndefined z p0 p0.todo).1).ClaimsInv := flushUndefined_claimsInv p0 p0.todo hz
        exact (outClaimsInv_next _).2 (reply_claimsInv _ (hflush.of_within (by simp)))
      · exact (outClaimsInv_next _).2 hz

theorem execEffectiveInstant_claimsInv (dt : Nat) : OutClaimsInv (execEffectiveInstant dt s) := by
  have hz := advance_claimsInv dt h
  unfold execEffectiveInstant
  dsimp only
  split
  · simpa using takeDue_claimsInv true hz
  · simpa using hz

theorem execHeartbeatLoss_claimsInv (dt : Nat) : OutClaimsInv (execHeartbeatLoss dt s) := by
  have hz := advance_claimsInv dt h
  unfold execHeartbeatLoss
  dsimp only
  split
  · simpa using takeover_claimsInv hz
  · simpa using hz

theorem execStandbyLoss_claimsInv (dt : Nat) : OutClaimsInv (execStandbyLoss dt s) := by
  have hz := advance_claimsInv dt h
  unfold execStandbyLoss
  dsimp only
  split
  · simpa using loseStandby_claimsInv hz
  · simpa using hz

theorem execPrimaryLossNoStandby_claimsInv (dt : Nat) : OutClaimsInv (execPrimaryLossNoStandby dt s) := by
  have hz := advance_claimsInv dt h
  unfold execPrimaryLossNoStandby
  dsimp only
  split
  · exact (outClaimsInv_next _).2 (VcpState.claimsOk_of_nil _ rfl)
  · simpa using hz

/- The tasks that take staged changes: each works on the state in which it has taken them. -/

theorem forOutput_claimsInv (id : Nat) (c : Instant) : (s.forOutput id c).ClaimsInv := by
  unfold State.forOutput
  split
  · exact h.of_within (by simp)
  · exact h

theorem forEncode_claimsInv (id : Nat) (c : Instant) : (s.forEncode id c).ClaimsInv := by
  unfold State.forEncode
  split
  · exact h.of_within (by simp)
  · exact h

theorem haps_claimsInv (l : List Hap) : (s.haps l).ClaimsInv := h.of_within (by simp)

theorem execComposeTask_claimsInv (dt die inst : Nat) (haps : List Hap) (poison : List (Nat × Nat × Nat)) :
    OutClaimsInv (execComposeTask dt die inst haps poison s) := by
  have hz := advance_claimsInv dt h
  cases hd : (s.advance dt).dieUp die with
  | false => simpa [execComposeTask, hd] using hz
  | true =>
    cases hi : (s.advance dt).inService die inst with
    | none => simpa [execComposeTask, hd, hi] using hz
    | some i =>
      cases ho : i.desc.op with
      | compose id =>
        exact outClaimsInv_of_nextWithin (takeScoped_claimsInv _ _ (forOutput_claimsInv (haps_claimsInv hz haps) id i.beat))
          (execComposeTask_scoped (l := otherParts) (by simp) (by simp) (by simp) (by simp) (by simp) hd hi ho) (by simp)
      | _ => simpa [execComposeTask, hd, hi, ho] using hz

theorem execEncodeTask_claimsInv (dt die inst : Nat) (haps : List Hap) (poison : List (Nat × Nat)) :
    OutClaimsInv (execEncodeTask dt die inst haps poison s) := by
  have hz := advance_claimsInv dt h
  cases hd : (s.advance dt).dieUp die with
  | false => simpa [execEncodeTask, hd] using hz
  | true =>
    cases hi : (s.advance dt).inService die inst with
    | none => simpa [execEncodeTask, hd, hi] using hz
    | some i =>
      cases ho : i.desc.op with
      | encode id k =>
        exact outClaimsInv_of_nextWithin (takeScoped_claimsInv _ _ (forEncode_claimsInv (haps_claimsInv hz haps) id i.beat))
          (execEncodeTask_scoped (l := otherParts) (by simp) (by simp) (by simp) (by simp) (by simp) (by simp) (by simp) (by simp) hd hi ho)
          (by simp)
      | _ => simpa [execEncodeTask, hd, hi, ho] using hz

theorem execReceiveTask_claimsInv (dt die inst : Nat) (haps : List Hap) : OutClaimsInv (execReceiveTask dt die inst haps s) := by
  have hz := advance_claimsInv dt h
  cases hd : (s.advance dt).dieUp die with
  | false => simpa [execReceiveTask, hd] using hz
  | true =>
    cases hi : (s.advance dt).inService die inst with
    | none => simpa [execReceiveTask, hd, hi] using hz
    | some i =>
      cases ho : i.desc.op with
      | receive id =>
        cases hx : (s.advance dt).xAlone (legUnit id) with
        | true => simpa [execReceiveTask, hd, hi, ho, hx] using hz
        | false =>
          exact outClaimsInv_of_nextWithin (takeScoped_claimsInv _ _ (haps_claimsInv hz haps))
            (execReceiveTask_scoped (l := otherParts) (by simp) (by simp) (by simp) (by simp) (by simp) (by simp) hd hi ho hx) (by simp)
      | _ => simpa [execReceiveTask, hd, hi, ho] using hz

theorem execSendTask_claimsInv (dt die inst : Nat) (haps : List Hap) (poison : List Nat) :
    OutClaimsInv (execSendTask dt die inst haps poison s) := by
  have hz := advance_claimsInv dt h
  cases hd : (s.advance dt).dieUp die with
  | false => simpa [execSendTask, hd] using hz
  | true =>
    cases hi : (s.advance dt).inService die inst with
    | none => simpa [execSendTask, hd, hi] using hz
    | some i =>
      cases ho : i.desc.op with
      | send id =>
        cases hx : (s.advance dt).xAlone (legUnit id) with
        | true => simpa [execSendTask, hd, hi, ho, hx] using hz
        | false =>
          exact outClaimsInv_of_nextWithin (takeScoped_claimsInv _ _ (haps_claimsInv hz haps))
            (execSendTask_scoped (l := otherParts) (by simp) (by simp) (by simp) (by simp) (by simp) (by simp) (by simp) (by simp) (by simp)
              hd hi ho hx) (by simp)
      | _ => simpa [execSendTask, hd, hi, ho] using hz

theorem execMix_claimsInv (dt die inst : Nat) (haps : List Hap) (poison : List (Nat × Nat)) (transit : List Nat) :
    OutClaimsInv (execMix dt die inst haps poison transit s) := by
  have hz := advance_claimsInv dt h
  cases hd : (s.advance dt).dieUp die with
  | false => simpa [execMix, hd] using hz
  | true =>
    cases hi : (s.advance dt).inService die inst with
    | none => simpa [execMix, hd, hi] using hz
    | some i =>
      cases ho : i.desc.op with
      | mix =>
        exact outClaimsInv_of_nextWithin (takeScoped_claimsInv _ _ (haps_claimsInv hz haps))
          (execMix_scoped (l := otherParts) (by simp) (by simp) (by simp) (by simp) (by simp) (by simp) hd hi ho) (by simp)
      | _ => simpa [execMix, hd, hi, ho] using hz

/- Starts, tests and power. -/

theorem execMainsApplied_claimsInv (dt : Nat) : OutClaimsInv (execMainsApplied dt s) := by
  unfold execMainsApplied
  extract_lets z s1
  have hstart : s1.ClaimsInv := beginStart_claimsInv z false
  split
  · exact (outClaimsInv_next _).2 (State.ClaimsInv.of_within (s := s1) hstart (by simp))
  · exact (outClaimsInv_next _).2 (advance_claimsInv dt h)

theorem execStartStageComplete_claimsInv (dt : Nat) (fails : List (Nat × Nat × Nat)) : OutClaimsInv (execStartStageComplete dt fails s) := by
  have hz := advance_claimsInv dt h
  unfold execStartStageComplete
  dsimp only
  split
  · split
    · exact (outClaimsInv_next _).2 (stageFails_claimsInv _ _ hz)
    · exact (outClaimsInv_next _).2 hz
  · exact (outClaimsInv_next _).2 hz

theorem execStartStageTimeout_claimsInv (dt : Nat) (sites : List Nat) : OutClaimsInv (execStartStageTimeout dt sites s) := by
  have hz := advance_claimsInv dt h
  unfold execStartStageTimeout
  dsimp only
  split
  · split
    · exact (outClaimsInv_next _).2 (stageFails_claimsInv _ _ hz)
    · exact (outClaimsInv_next _).2 hz
  · exact (outClaimsInv_next _).2 hz

theorem execRestartDelay_claimsInv (dt : Nat) : OutClaimsInv (execRestartDelay dt s) := by
  unfold execRestartDelay
  dsimp only
  split
  · exact (outClaimsInv_next _).2 (beginStart_claimsInv _ false)
  · exact (outClaimsInv_next _).2 (advance_claimsInv dt h)

theorem execSettingModeRetry_claimsInv (dt : Nat) : OutClaimsInv (execSettingModeRetry dt s) := by
  unfold execSettingModeRetry
  dsimp only
  split
  · exact (outClaimsInv_next _).2 (beginStart_claimsInv _ true)
  · exact (outClaimsInv_next _).2 (advance_claimsInv dt h)

theorem execDieToDieLinkFailure_claimsInv (dt die : Nat) : OutClaimsInv (execDieToDieLinkFailure dt die s) := by
  have hz := advance_claimsInv dt h
  unfold execDieToDieLinkFailure
  dsimp only
  split
  · exact (outClaimsInv_next _).2 (fenceDie_claimsInv die 1 hz)
  · exact (outClaimsInv_next _).2 hz

theorem execBistSliceStart_claimsInv (dt die kind target : Nat) : OutClaimsInv (execBistSliceStart dt die kind target s) := by
  have hz := advance_claimsInv dt h
  unfold execBistSliceStart
  extract_lets z round k res cu id u s1 s2 key old t
  have htaken : s1.ClaimsInv := takeClaim_claimsInv target 0 0 res hz
  have hunit : s2.ClaimsInv := by
    simp only [s2]
    split
    · exact htaken.of_within (by simp)
    · exact htaken
  split
  · exact (outClaimsInv_next _).2 hunit
  · exact (outClaimsInv_next _).2 hz

theorem bistFaults_claimsInv (x : Slice) (count : Nat) (faults : List (Nat × Nat × Nat)) :
    (faults.foldl (fun (u : State) f => u.bistFault x count f) s).ClaimsInv :=
  ClaimsInv.foldl (fun _ _ ht => State.ClaimsInv.of_within ht (by simp)) faults h

theorem execBistSliceEnd_claimsInv (dt die target misr : Nat) (faults : List (Nat × Nat × Nat)) :
    OutClaimsInv (execBistSliceEnd dt die target misr faults s) := by
  have hz := advance_claimsInv dt h
  unfold execBistSliceEnd
  extract_lets z
  split
  · exact (outClaimsInv_next _).2 hz
  · next x _ =>
    extract_lets z0 _ s1 key old count t _ s2 s3 s4
    have hdrop : s1.ClaimsInv := dropClaim_claimsInv x.claim hz
    have hunit : s3.ClaimsInv := by
      simp only [s3]
      split
      · exact State.ClaimsInv.of_within (s := s2) hdrop (by simp)
      · exact hdrop
    have hfaults : s4.ClaimsInv := bistFaults_claimsInv hunit x count faults
    split
    · refine (outClaimsInv_next _).2 ?_
      split
      · exact hdrop
      · exact hz
    · refine (outClaimsInv_next _).2 ?_
      split
      · exact hfaults.of_within (by simp)
      · exact hfaults

theorem execOnCommandTestComplete_claimsInv (dt die done failures : Nat) (sigOk restartOk : Bool) :
    OutClaimsInv (execOnCommandTestComplete dt die done failures sigOk restartOk s) := by
  have hz := advance_claimsInv dt h
  unfold execOnCommandTestComplete
  extract_lets z v s1
  have hend : s1.ClaimsInv := State.ClaimsInv.of_within (s := z.endTest die v done failures) (endTest_claimsInv die v done failures hz)
    (by simp [s1])
  split
  · refine (outClaimsInv_next _).2 ?_
    split
    · exact hend.of_within (by simp)
    · exact hend
  · exact (outClaimsInv_next _).2 hz

theorem execThermalStop_claimsInv (dt site : Nat) : OutClaimsInv (execThermalStop dt site s) := by
  have hz := advance_claimsInv dt h
  unfold execThermalStop
  dsimp only
  split
  · split
    · exact (outClaimsInv_next _).2 (VcpState.claimsOk_of_nil _ rfl)
    · exact (outClaimsInv_next _).2 hz
  · exact (outClaimsInv_next _).2 hz

theorem execHoldUpExpiry_claimsInv (dt : Nat) : OutClaimsInv (execHoldUpExpiry dt s) := by
  have hz := advance_claimsInv dt h
  unfold execHoldUpExpiry
  dsimp only
  split
  · split
    · exact (outClaimsInv_next _).2 (wiped_claimsInv _ .standby)
    · exact (outClaimsInv_next _).2 hz
  · exact (outClaimsInv_next _).2 hz

theorem execMainsRestored_claimsInv (dt : Nat) : OutClaimsInv (execMainsRestored dt s) := by
  have hz := advance_claimsInv dt h
  unfold execMainsRestored
  dsimp only
  split
  · exact (outClaimsInv_next _).2 hz
  · split
    · exact (outClaimsInv_next _).2 (VcpState.claimsOk_of_nil _ rfl)
    · exact (outClaimsInv_next _).2 hz

theorem execStandbyRailDrop_claimsInv (dt : Nat) : OutClaimsInv (execStandbyRailDrop dt s) := by
  have hz := advance_claimsInv dt h
  unfold execStandbyRailDrop
  dsimp only
  split
  · split
    · exact (outClaimsInv_next _).2 (VcpState.claimsOk_of_nil _ rfl)
    · exact (outClaimsInv_next _).2 hz
  · exact (outClaimsInv_next _).2 hz

/-- A row that is no command of a packet keeps the canonical form of the claims: of those that may change claims each by its own lemma. -/
theorem execRow_claimsInv {i : Instr} {dt : Nat} {l : List Part} (hrow : rowParts i = some (dt, l)) : OutClaimsInv (exec i s) := by
  by_cases hl : Part.claims ∈ l
  · cases i <;> simp only [rowParts, Option.some.injEq, Prod.mk.injEq, reduceCtorEq] at hrow <;> obtain ⟨rfl, rfl⟩ := hrow
    case reply => exact execReply_claimsInv h _ _ _
    case effectiveInstant => exact execEffectiveInstant_claimsInv h _
    case heartbeatLoss => exact execHeartbeatLoss_claimsInv h _
    case standbyLoss => exact execStandbyLoss_claimsInv h _
    case primaryLossNoStandby => exact execPrimaryLossNoStandby_claimsInv h _
    case composeTask => exact execComposeTask_claimsInv h _ _ _ _ _
    case encodeTask => exact execEncodeTask_claimsInv h _ _ _ _ _
    case receiveTask => exact execReceiveTask_claimsInv h _ _ _ _
    case sendTask => exact execSendTask_claimsInv h _ _ _ _ _
    case mix => exact execMix_claimsInv h _ _ _ _ _ _
    case mainsApplied => exact execMainsApplied_claimsInv h _
    case startStageComplete => exact execStartStageComplete_claimsInv h _ _
    case startStageTimeout => exact execStartStageTimeout_claimsInv h _ _
    case restartDelay => exact execRestartDelay_claimsInv h _
    case settingModeRetry => exact execSettingModeRetry_claimsInv h _
    case dieToDieLinkFailure => exact execDieToDieLinkFailure_claimsInv h _ _
    case bistSliceStart => exact execBistSliceStart_claimsInv h _ _ _ _
    case bistSliceEnd => exact execBistSliceEnd_claimsInv h _ _ _ _ _
    case onCommandTestComplete => exact execOnCommandTestComplete_claimsInv h _ _ _ _ _ _
    case thermalStop => exact execThermalStop_claimsInv h _ _
    case holdUpExpiry => exact execHoldUpExpiry_claimsInv h _
    case mainsRestored => exact execMainsRestored_claimsInv h _
    case standbyRailDrop => exact execStandbyRailDrop_claimsInv h _
    all_goals exact absurd hl (by decide)
  · exact outClaimsInv_of_nextWithin (advance_claimsInv dt h) (exec_within hrow s) hl

theorem exec_claimsInv (i : Instr) : OutClaimsInv (exec i s) := by
  cases hcmd : packetCommand i with
  | some x =>
    obtain ⟨d, r, b⟩ := x
    rw [exec_packetCommand hcmd]
    exact fun t ht => runCmd_claimsInv ht h
  | none =>
    obtain ⟨x, hx⟩ := Option.isSome_iff_exists.1 ((rowParts_isSome_iff i).2 hcmd)
    exact execRow_claimsInv h hx

end

end Sys2Proof.Machine

namespace Sys2Proof.Proofs
open Sys2Proof Sys2Proof.Machine

/-- Settles O6, by the canonical form's preservation in every row: most leave the claims alone, and the others take, drop or clear them. -/
theorem stepsKeepClaims : Obligations.StepsKeepClaims := by
  intro s t h ht
  unfold step at ht
  split at ht
  · cases ht
    exact h
  · next c rest _ => exact exec_claimsInv (s := { s with pending := rest }) h c t ht

end Sys2Proof.Proofs
end

section
/-! SUPPORT. Sessions: the replay window, and how sessions end. -/

namespace Sys2Proof.Machine

/- Events. -/

/-- An event is raised behind those already raised, and the rest of the events is left. -/
@[simp] theorem events_raise (s : State) (source code data : Nat) (pkg : Nat) : (s.raise source code data pkg).events =
    { s.events with raised := s.events.raised ++
        [{ stamp := s.now, source := source, code := code, data := BitVec.ofNat 120 data, pkg := pkg }] } := rfl

/- Sessions. -/

/-- A change of a session that keeps its identifier is found under it. -/
theorem session_modSession (s : State) (id : Nat) {f : Session → Session} (hf : ∀ x, (f x).id = x.id) :
    (s.modSession id f).vcp.session id = (s.vcp.session id).map f := by
  simp only [VcpState.session, State.modSession]
  generalize s.vcp.sessions = l
  induction l with
  | nil => rfl
  | cons x xs ih =>
    by_cases hx : x.id = id
    · simp [hx, hf]
    · simp [hx, ih]

/-- The end of a session erases it and its subscription, leaves the claims, and raises SESSION_ENDED unless it has expired. -/
theorem endSession_spec {s : State} {id : Nat} {x : Session} (cause : Nat) (h : s.vcp.session id = some x) :
    (s.endSession id cause).vcp.session id = none ∧ (s.endSession id cause).vcp.claims = s.vcp.claims ∧
    (s.endSession id cause).events.subs = s.events.subs.filter (fun p => p.2.session != id) ∧
    (s.endSession id cause).events.raised = s.events.raised ++
      (if x.expired.isNone then [{ stamp := s.now, source := 225, code := 3, data := BitVec.ofNat 120 (dCode 88 32 id + dCode 80 8 cause) }]
       else []) := by
  simp only [State.endSession, h]
  split <;> simp [State.lapse, VcpState.session]

/- The replay window (R40). -/

theorem judge_of_above {y : Session} {seq : Nat} (tag : Nat) (h : y.high < seq) : y.judge seq tag = .accept := by
  simp [Session.judge, h]

theorem judge_of_below {y : Session} {seq : Nat} (tag : Nat) (h : seq ≤ y.high) (hold : seq + 1024 ≤ y.high) : y.judge seq tag = .drop 4 := by
  simp [Session.judge, Nat.not_lt.2 h, hold]

/-- A recorded sequence is found as it was recorded, while the window reaches it. -/
theorem entry_record (y : Session) (seq tag : Nat) (st : SeqState) :
    (y.record seq tag st).entry seq = if y.high < seq + 1024 then some { seq := seq, tag := tag, st := st } else none := by
  have hold : ((y.window.filter (fun e => e.seq != seq)).filter (fun e => decide (max y.high seq < e.seq + 1024))).find? (fun e => e.seq == seq) =
      none := by
    rw [List.find?_eq_none]
    intro e he
    simpa using (List.mem_filter.1 (List.mem_filter.1 he).1).2
  simp only [Session.entry, Session.record, List.filter_append, List.find?_append, hold, Option.none_or]
  have hreach : max y.high seq < seq + 1024 ↔ y.high < seq + 1024 := by omega
  by_cases h : y.high < seq + 1024 <;> simp [hreach, h]

end Sys2Proof.Machine

namespace Sys2Proof.Proofs
open Sys2Proof Sys2Proof.Machine

/-- Settles O36, by the branches of `Session.judge` and what `Session.record` leaves. -/
theorem replayWindow : Obligations.ReplayWindow := by
  refine fun y seq tag => ⟨judge_of_above tag, judge_of_below tag, fun e h hw he ht => ?_, fun e r h hw he ht hr => ?_, fun e h hw he ht hx => ?_,
    fun h hw he => ?_, fun st => ⟨rfl, entry_record y seq tag st⟩⟩
  · simp [Session.judge, Nat.not_lt.2 h, Nat.not_le.2 hw, he, ht]
  · simp [Session.judge, Nat.not_lt.2 h, Nat.not_le.2 hw, he, ht, hr]
  · simp [Session.judge, Nat.not_lt.2 h, Nat.not_le.2 hw, he, ht, hx]
  · simp [Session.judge, Nat.not_lt.2 h, Nat.not_le.2 hw, he]

/-- Settles O33, by what each of the five rows does when its condition holds. -/
theorem sessionsEnd : Obligations.SessionsEnd := by
  refine ⟨fun dt id s hlive hhalf => ?_, fun dt id s x hlive hx hexp hidle => ?_, fun dt id s x hlive hx hexp hraised hends => ?_,
    fun dt id s x hlive hx hexp hends => ?_, fun dt id s x t0 hlive hx hexp hends => ?_⟩
  · obtain ⟨h, hmem, hid, hage⟩ := hhalf
    have hany : (s.advance dt).vcp.half.any (fun h => h.id == id && decide (h.created + sec 5 ≤ (s.advance dt).now)) = true :=
      List.any_eq_true.2 ⟨h, hmem, by simp [hid, hage]⟩
    simp only [exec, execHalfOpenTimeout, hlive, hany, Bool.and_self, ↓reduceIte]
  · obtain ⟨hgone, hclaims, hsubs, hevent⟩ := endSession_spec 2 hx
    refine ⟨(s.advance dt).endSession id 2, ?_, hgone, hclaims, hsubs, by simpa [hexp] using hevent⟩
    simp [exec, execSessionIdleTimeout, hx, hlive, hexp, hidle]
  · simp [exec, execSessionExpiring, hx, hlive, hexp, hraised, hends]
  · have hdue : (decide (x.established + sec 86400 ≤ (s.advance dt).now) || decide (2 ^ 32 ≤ x.high) || decide (2 ^ 32 ≤ x.txSeq)) = true := by
      simpa [or_assoc] using hends
    have hrow : exec (.sessionExpiry dt id) s = .next ((((s.advance dt).modSession id (fun y => { y with expired := some (s.advance dt).now })).lapse
        id).raise 225 3 (dCode 88 32 id + dCode 80 8 3)) := by
      simp only [exec, execSessionExpiry, hx, hlive, hexp, hdue, Option.isNone_none, Bool.and_self, ↓reduceIte]
    refine ⟨_, hrow, ?_, rfl, rfl, rfl⟩
    refine (session_modSession _ id (f := fun y => { y with expired := some (s.advance dt).now }) (fun _ => rfl)).trans ?_
    rw [hx]
    rfl
  · obtain ⟨hgone, hclaims, -, hevent⟩ := endSession_spec 3 hx
    refine ⟨(s.advance dt).endSession id 3, ?_, hgone, hclaims, by simpa [hexp] using hevent⟩
    simp [exec, execSessionErase, hx, hlive, hexp, hends]

/-- Settles O35, by the branch of its row that each verdict takes. -/
theorem checkedPackets : Obligations.CheckedPackets := by
  refine ⟨fun x s reason hvcp hjudge => ?_, fun x s hvcp hjudge => ?_, fun x s r hvcp hjudge => ?_⟩
  · simp [exec, execVcpPacketRejected, hvcp, hjudge]
  · simp [exec, execVcpPacketRejected, hvcp, hjudge]
  · simp [exec, execCachedReplyResend, hvcp, hjudge]

end Sys2Proof.Proofs
end

section
/-! SUPPORT. Frames received, addresses, and the roles of the packages. -/

namespace Sys2Proof.Machine

/- Frames. -/

/-- The address of a port takes no part in the checks of a packet. -/
@[simp] theorem judge_setAddr (v : VcpState) (port : Nat) (a : PortAddr) (x : VcpRx) : (v.setAddr port a).judge x = v.judge x := by
  unfold VcpState.setAddr
  split <;> rfl

@[simp] theorem session_setAddr (v : VcpState) (port : Nat) (a : PortAddr) (id : Nat) : (v.setAddr port a).session id = v.session id := by
  unfold VcpState.setAddr
  split <;> rfl

@[simp] theorem executing_setAddr (v : VcpState) (port : Nat) (a : PortAddr) : (v.setAddr port a).executing = v.executing := by
  unfold VcpState.setAddr
  split <;> rfl

/-- An accepted packet of a session is framed, of version 1, and its tag verifies. -/
theorem checks_of_accept {v : VcpState} {x : VcpRx} {y : Session} (htype : x.type ≠ 1) (hy : v.session x.session = some y)
    (h : v.judge x = .accept) : vcpFramed x = true ∧ x.version = 1 ∧ x.tagOk y.keys = true := by
  simp only [VcpState.judge, hy, htype, ↓reduceIte] at h
  split at h
  · cases h
  · split at h
    · cases h
    · split at h
      · next hframed hversion htag => exact ⟨by simpa using hframed, by simpa using hversion, htag⟩
      · cases h

/-- A COMMAND whose tag verifies renews its session, and EVENT packets follow it. -/
theorem heard_of_accept {s : State} {x : VcpRx} {y : Session} (htype : x.type = 4) (hy : s.vcp.session x.session = some y)
    (h : s.vcp.judge x = .accept) : s.heard x = s.modSession x.session (fun y => { y with lastPacket := s.now, peer := x.peer }) := by
  obtain ⟨hframed, hversion, htag⟩ := checks_of_accept (by omega) hy h
  simp [State.heard, hy, htype, hframed, hversion, htag]

theorem session_heard {s : State} {x : VcpRx} {y : Session} (htype : x.type = 4) (hy : s.vcp.session x.session = some y)
    (h : s.vcp.judge x = .accept) : (s.heard x).vcp.session x.session = some { y with lastPacket := s.now, peer := x.peer } := by
  rw [heard_of_accept htype hy h, session_modSession s x.session (f := fun y => { y with lastPacket := s.now, peer := x.peer }) (fun _ => rfl), hy]
  rfl

/-- A packet that R401 stops nowhere enters execution with all its records to run. -/
theorem executing_acceptPacket {s : State} {y : Session} {x : VcpRx} {c : CmdPayload} (h : s.judgePacket y x.seq c = none) :
    ∃ p, (s.acceptPacket y x c).vcp.executing = s.vcp.executing ++ [p] ∧ p.session = y.id ∧ p.seq = x.seq ∧ p.todo = c.records ∧
      p.arrival = s.now ∧ p.status = .ok ∧ p.atomic = c.flags.testBit 0 ∧ p.stopOnError = c.flags.testBit 1 := by
  simp only [State.acceptPacket, h]
  exact ⟨_, rfl, rfl, rfl, rfl, rfl, rfl, rfl, rfl⟩

/-- A COMMAND that passes every check goes from the command FIFO to its session. -/
theorem vcpFrame_of_accept {s : State} {port : Nat} {x : VcpRx} {y : Session}
    (hrate : (perSecond (s.vcp.addr port).vcpSecond (s.vcp.addr port).vcpCount s.now 20000).1 = true) (htype : x.type = 4)
    (h : s.vcp.judge x = .accept) (hy : s.vcp.session x.session = some y) :
    ∃ t : State, s.vcpFrame port x = t.acceptPacket { y with lastPacket := s.now, peer := x.peer } x (readCommand ((x.opened y.keys).getD [])) ∧
      t.now = s.now ∧ t.vcp.executing = s.vcp.executing := by
  unfold State.vcpFrame
  extract_lets a
  generalize perSecond a.vcpSecond a.vcpCount s.now 20000 = rate at hrate ⊢
  obtain ⟨ok, second, count⟩ := rate
  obtain rfl : ok = true := hrate
  dsimp -zeta only
  extract_lets s1 s2
  have hjudge : s1.vcp.judge x = .accept := by simpa [s1] using h
  have hfound : s1.vcp.session x.session = some y := by simpa [s1] using hy
  have hheard : s2.vcp.session x.session = _ := session_heard htype hfound hjudge
  simp only [htype, hjudge, hheard, and_self, ↓reduceIte, Bool.not_true, Bool.false_eq_true]
  refine ⟨s2, rfl, ?_, ?_⟩
  · rw [show s2 = _ from heard_of_accept htype hfound hjudge]
    rfl
  · rw [show s2 = _ from heard_of_accept htype hfound hjudge]
    exact executing_setAddr _ _ _

/-- What R401 says of a packet depends on the time and on the packets in execution. -/
theorem judgePacket_congr {s t : State} (hnow : t.now = s.now) (hexecuting : t.vcp.executing = s.vcp.executing) (y : Session) (seq : Nat)
    (c : CmdPayload) : t.judgePacket y seq c = s.judgePacket y seq c := by
  have hcount : t.vcp.inExecution y.id = s.vcp.inExecution y.id := by rw [VcpState.inExecution, hexecuting, VcpState.inExecution]
  rw [State.judgePacket, hnow, hcount, State.judgePacket]

/- Roles. -/

/-- Every part but one, the queue among them. -/
def partsBut (p : Part) : List Part := (.queue :: allParts).erase p

@[simp] theorem mem_partsBut (p q : Part) : q ∈ partsBut p ↔ q ≠ p := by
  have hall : q ∈ Part.queue :: allParts := by cases q <;> decide
  rw [partsBut, List.Nodup.mem_erase_iff (by decide)]
  simp [hall]

/-- What changes nothing but other parts leaves this one. -/
theorem Within.same {p : Part} {s t : State} (h : Within (partsBut p) s t) : p.same s t := h p (by simp)

/-- A package that leaves is no longer up, and the roles are otherwise as they were. -/
theorem role_leave (s : State) (p : Nat) :
    (s.leave p).role = if p = 0 then { s.role with up0 := false } else { s.role with up1 := false } := by
  have hrole : Part.role.same s (((((List.range 4).map (fun j => 4 * p + j)).foldl (fun (t : State) d => t.fenceWithPackage d) s).stopTests
      (8 + p)).holdPort p) := Within.same (by simp)
  unfold State.leave
  dsimp only
  split
  · exact congrArg (fun r : RoleState => { r with up0 := false }) hrole
  · exact congrArg (fun r : RoleState => { r with up1 := false }) hrole

/-- A package that leaves changes nothing of the command complex but claims. -/
theorem vcp_leave (s : State) (p : Nat) : Part.vcp.same s (s.leave p) := Within.same (by simp)

theorem executing_of_same {s t : State} (h : Part.vcp.same s t) : t.vcp.executing = s.vcp.executing := congrArg (·.executing) h

theorem sessions_of_same {s t : State} (h : Part.vcp.same s t) : t.vcp.sessions = s.vcp.sessions := congrArg (·.sessions) h

/-- Packets of a failed primary are forgotten; the sessions keep their keys and their highest sequences. -/
theorem forgetPackets_spec (s : State) (p : Nat) :
    (s.forgetPackets p).vcp.executing = s.vcp.executing.filter (fun q => !s.runsOn p q) ∧
    (s.forgetPackets p).vcp.sessions.map (·.keys) = s.vcp.sessions.map (·.keys) ∧
    (s.forgetPackets p).vcp.sessions.map (·.high) = s.vcp.sessions.map (·.high) := by
  have hundo : Part.vcp.same s ((s.vcp.executing.filter (s.runsOn p)).foldl State.undo s) := Within.same (by simp)
  have hsessions := sessions_of_same hundo
  simp only [State.forgetPackets, hsessions, List.map_map]
  exact ⟨trivial, rfl, rfl⟩

/-- A takeover that leaves the module in service ends with the old primary's package, on a state with the new roles. -/
theorem takeover_of_mayServe {s : State} (h : s.mayServe (1 - s.role.primary) = true) :
    ∃ x : State, s.takeover = (x.leave s.role.primary).eventsTakeover ∧ x.role.primary = 1 - s.role.primary ∧
      x.role.takeovers = s.role.takeovers + 1 ∧ x.vcp = (s.forgetPackets s.role.primary).vcp := by
  unfold State.takeover
  dsimp only
  rw [if_pos h]
  exact ⟨_, rfl, rfl, rfl, rfl⟩

end Sys2Proof.Machine

namespace Sys2Proof.Proofs
open Sys2Proof Sys2Proof.Machine

/-- Settles O38, by the branches of the frame's row, and by what an accepted packet puts in execution. -/
theorem framesAreReceived : Obligations.FramesAreReceived := by
  refine ⟨fun f s hrx hbad => ?_, fun f s hrx hfcs hmin hmax hfifo => ?_, fun f s hrx hfcs hmin hmax hfifo hpause => ?_,
    fun f s hrx hfcs hmin hmax hfifo hpause => ?_, fun z port x y hrate htype haccept hy hjudge => ?_⟩
  · have hdamaged : (!f.fcsOk || decide (f.len < 64) || decide ((s.advance f.dt).mtu f.port < f.len)) = true := by simpa [or_assoc] using hbad
    simp [exec, execReceivedFrame, hrx, hdamaged]
  · simp only [exec, execReceivedFrame, hrx, hfcs, hfifo, Nat.not_lt.2 hmin, Nat.not_lt.2 hmax, Bool.not_true, Bool.false_eq_true,
      decide_false, Bool.false_or, ↓reduceIte]
  · simp only [exec, execReceivedFrame, hrx, hfcs, hfifo, hpause, Nat.not_lt.2 hmin, Nat.not_lt.2 hmax, Bool.not_true, Bool.false_eq_true,
      decide_false, Bool.or_self, ↓reduceIte]
  · simp only [exec, execReceivedFrame, hrx, hfcs, hfifo, hpause, Nat.not_lt.2 hmin, Nat.not_lt.2 hmax, Bool.not_true, Bool.false_eq_true,
      decide_false, Bool.or_self, ↓reduceIte]
  · obtain ⟨t, ht, hnow, hexecuting⟩ := vcpFrame_of_accept hrate htype haccept hy
    rw [ht, ← hexecuting, ← hnow]
    exact executing_acceptPacket ((judgePacket_congr hnow hexecuting _ _ _).trans hjudge)

/-- Settles O40, by the branch of its row that each condition takes. -/
theorem addressesAreAcquired : Obligations.AddressesAreAcquired := by
  refine ⟨fun dt port s hruns hphase hsince => ?_, fun dt port s hruns hphase hsince => ?_,
    fun dt port family addr prefixLen gateway renewAfter rebindAfter lease s hrx hfamily hphase => ?_,
    fun dt port s hruns htimer hphase => ?_, fun dt port f s hruns htimer hphase hasking => ?_,
    fun dt port f s hruns hphase hfinite hend => ?_,
    fun dt port f s hruns hphase hfinite hend => ⟨fun hrebind hasking => ?_, fun hrebind hrenew hasking => ?_⟩,
    fun dt port f s hphase hinfinite => ⟨?_, ?_⟩, fun z port family asking n => rfl⟩
  · simp [exec, execDhcpTimeout, hruns, hphase, hsince]
  · simp [exec, execDhcpTimeout, hruns, hphase, hsince]
  · simp [exec, execDhcpReply, hrx, hfamily, hphase]
  · rcases hphase with hphase | hphase <;> simp [exec, execDhcpRetransmission, hruns, htimer, hphase, AddrPhase.dhcpFamily]
  · simp [exec, execDhcpRetransmission, hruns, htimer, hphase, hasking]
  · simp [exec, execLeaseExpiry, hruns, hphase, hfinite, hend]
  · simp [exec, execLeaseRenewal, hruns, hphase, hfinite, Nat.not_le.2 hend, hrebind, hasking]
  · simp [exec, execLeaseRenewal, hruns, hphase, hfinite, Nat.not_le.2 hend, Nat.not_le.2 hrebind, hrenew, hasking]
  · simp [exec, execLeaseRenewal, hphase, hinfinite]
  · simp [exec, execLeaseExpiry, hphase, hinfinite]

/-- Settles O41, by the branches of the four rows, and by what a takeover leaves. -/
theorem packageRoles : Obligations.PackageRoles := by
  refine ⟨fun dt sent answered s hlive htick => ?_, fun dt sent answered s htick => ?_, fun dt s hlive hup0 hup1 hbeat => ?_,
    fun dt s hlive hup0 hup1 hanswer => ?_, fun dt s hlive hup hbeat => ?_, fun z hprimary hserve => ?_⟩
  · simp [exec, execHeartbeat, hlive, htick]
  · simp [exec, execHeartbeat, Nat.not_le.2 htick]
  · simp [exec, execHeartbeatLoss, hlive, hup0, hup1, hbeat]
  · simp [exec, execStandbyLoss, hlive, hup0, hup1, hanswer, State.loseStandby]
  · have hone : ((s.advance dt).role.up0 && (s.advance dt).role.up1) = false := by rcases hup with h | h <;> simp [h]
    simp [exec, execPrimaryLossNoStandby, hlive, hone, hbeat]
  · obtain ⟨x, htakeover, hnew, hcount, hvcp⟩ := takeover_of_mayServe hserve
    obtain ⟨hexecuting, hkeys, hhigh⟩ := forgetPackets_spec z z.role.primary
    have hleave := vcp_leave x z.role.primary
    have hrole : z.takeover.role = (x.leave z.role.primary).role := by rw [htakeover]; rfl
    have hafter : z.takeover.vcp = (x.leave z.role.primary).vcp := by rw [htakeover]; rfl
    rw [hrole, hafter, executing_of_same hleave, sessions_of_same hleave, hvcp, role_leave]
    refine ⟨?_, ?_, hexecuting, hkeys, hhigh⟩
    · split <;> exact hnew
    · split <;> exact hcount

end Sys2Proof.Proofs
end

section
/-! SUPPORT. The handshake (R33 to R36, R400): what an accepted hello and an accepted CLIENT_FINISH leave. -/

namespace Sys2Proof.Machine

theorem half_of_same {s t : State} (h : Part.vcp.same s t) : t.vcp.half = s.vcp.half := congrArg (·.half) h

@[simp] theorem half_setAddr (v : VcpState) (port : Nat) (a : PortAddr) : (v.setAddr port a).half = v.half := by
  unfold VcpState.setAddr
  split <;> rfl

@[simp] theorem sessions_setAddr (v : VcpState) (port : Nat) (a : PortAddr) : (v.setAddr port a).sessions = v.sessions := by
  unfold VcpState.setAddr
  split <;> rfl

/- What is sent changes nothing of the sessions. -/

@[simp] theorem half_sendHello (s : State) (p : Peer) (x : ServerHello) : (s.sendHello p x).vcp.half = s.vcp.half :=
  half_of_same (Within.same (by simp))

@[simp] theorem sessions_sendHello (s : State) (p : Peer) (x : ServerHello) : (s.sendHello p x).vcp.sessions = s.vcp.sessions :=
  sessions_of_same (Within.same (by simp))

@[simp] theorem half_sendReply (s : State) (p : Peer) (id : Nat) (r : Reply) : (s.sendReply p id r).vcp.half = s.vcp.half :=
  half_of_same (Within.same (by simp))

@[simp] theorem sessions_sendReply (s : State) (p : Peer) (id : Nat) (r : Reply) : (s.sendReply p id r).vcp.sessions = s.vcp.sessions :=
  sessions_of_same (Within.same (by simp))

/- Hellos. -/

theorem find_eq_none_of_new {l : List HalfOpen} {r : Nat} (h : ∀ x ∈ l, x.clientRandom ≠ r) : l.find? (fun x => x.clientRandom == r) = none :=
  List.find?_eq_none.2 (by simpa using h)

/-- The state with another address record of a port. -/
def State.withAddr (s : State) (port : Nat) (a : PortAddr) : State := { s with vcp := s.vcp.setAddr port a }

@[simp] theorem helloStatus_withAddr (s : State) (port : Nat) (a : PortAddr) (h : HelloRx) :
    (s.withAddr port a).helloStatus h = s.helloStatus h := by
  unfold State.withAddr VcpState.setAddr
  split <;> rfl

@[simp] theorem half_withAddr (s : State) (port : Nat) (a : PortAddr) : (s.withAddr port a).vcp.half = s.vcp.half := half_setAddr _ _ _

@[simp] theorem sessions_withAddr (s : State) (port : Nat) (a : PortAddr) : (s.withAddr port a).vcp.sessions = s.vcp.sessions :=
  sessions_setAddr _ _ _

@[simp] theorem canSign_withAddr (s : State) (port : Nat) (a : PortAddr) : (s.withAddr port a).canSign = s.canSign := rfl

/-- What becomes of a hello on the state with its count, where the second's limit admits it. -/
def State.greet (s : State) (h : HelloRx) : State :=
  match s.vcp.half.find? (fun x => x.clientRandom == h.clientRandom) with
  | some x => s.sendHello h.peer x.hello
  | none =>
    match s.helloStatus h with
    | some st => s.sendReject h.peer 0 st
    | none => if s.canSign then s.acceptHello h else s

/-- A hello that the limit of its second admits is counted, and then greeted. -/
theorem execClientHello_of_rate {h : HelloRx} {s : State} (hvcp : (s.advance h.dt).isVcp h.peer = true)
    (hjudge : (s.advance h.dt).vcp.judge h.packet = .accept) (htype : h.packet.type = 1) {a : PortAddr}
    (ha : (s.advance h.dt).vcp.addr h.peer.port = a) {n : Bool × Nat × Nat}
    (hn : perSecond a.helloSecond a.helloCount (s.advance h.dt).now 32 = n) (hrate : n.1 = true) :
    execClientHello h s =
      .next (((s.advance h.dt).withAddr h.peer.port { a with helloSecond := n.2.1, helloCount := n.2.2 }).greet h) := by
  obtain ⟨ok, second, count⟩ := n
  obtain rfl : ok = true := hrate
  let w := (s.advance h.dt).withAddr h.peer.port { a with helloSecond := second, helloCount := count }
  cases hfind : w.vcp.half.find? (fun x => x.clientRandom == h.clientRandom) with
  | some x =>
    rw [show w.greet h = w.sendHello h.peer x.hello by simp only [State.greet, hfind]]
    simp only [w, State.withAddr] at hfind
    simp only [execClientHello, hvcp, hjudge, htype, ha, hn, hfind, BEq.rfl, Bool.and_self, Bool.not_true, Bool.false_eq_true, ↓reduceIte]
    rfl
  | none =>
    cases hstatus : w.helloStatus h with
    | some st =>
      rw [show w.greet h = w.sendReject h.peer 0 st by simp only [State.greet, hfind, hstatus]]
      simp only [w, State.withAddr] at hfind hstatus
      simp only [execClientHello, hvcp, hjudge, htype, ha, hn, hfind, hstatus, BEq.rfl, Bool.and_self, Bool.not_true, Bool.false_eq_true, ↓reduceIte]
      rfl
    | none =>
      rw [show w.greet h = if w.canSign then w.acceptHello h else w by simp only [State.greet, hfind, hstatus]]
      simp only [w, State.withAddr] at hfind hstatus
      simp only [execClientHello, hvcp, hjudge, htype, ha, hn, hfind, hstatus, BEq.rfl, Bool.and_self, Bool.not_true, Bool.false_eq_true, ↓reduceIte]
      rfl

/-- A hello beyond the limit of its second is dropped and counted. -/
theorem execClientHello_of_not_rate {h : HelloRx} {s : State} (hvcp : (s.advance h.dt).isVcp h.peer = true)
    (hjudge : (s.advance h.dt).vcp.judge h.packet = .accept) (htype : h.packet.type = 1) {a : PortAddr}
    (ha : (s.advance h.dt).vcp.addr h.peer.port = a) {n : Bool × Nat × Nat}
    (hn : perSecond a.helloSecond a.helloCount (s.advance h.dt).now 32 = n) (hrate : n.1 = false) :
    execClientHello h s = .next ((s.advance h.dt).withAddr h.peer.port
      { a with helloSecond := n.2.1, helloCount := n.2.2, helloDrops := a.helloDrops + 1 }) := by
  obtain ⟨ok, second, count⟩ := n
  obtain rfl : ok = false := hrate
  simp only [execClientHello, hvcp, hjudge, htype, ha, hn, BEq.rfl, Bool.and_self, Bool.not_true, Bool.not_false, Bool.false_eq_true,
    ↓reduceIte, State.withAddr]

/-- A new identifier is not 0 and not in use. -/
theorem newId_spec (v : VcpState) (draw : Nat) :
    1 ≤ v.newId draw ∧ (∀ y ∈ v.half, y.id ≠ v.newId draw) ∧ (∀ y ∈ v.sessions, y.id ≠ v.newId draw) := by
  obtain ⟨i, hid, hfree, -⟩ := lowestFree_spec (v.sessions.map (·.id) ++ v.half.map (·.id)) (draw % (2 ^ 32 - 34) + 1)
  have hnew : v.newId draw = i + (draw % (2 ^ 32 - 34) + 1) := hid
  rw [← hnew] at hfree
  simp only [List.mem_append, List.mem_map, not_or, not_exists, not_and] at hfree
  exact ⟨by omega, hfree.2, hfree.1⟩

/-- An accepted hello makes a half-open session under a new identifier, with the keys of both shares. -/
theorem acceptHello_spec (s : State) (h : HelloRx) : ∃ x, (s.acceptHello h).vcp.half = s.vcp.half ++ [x] ∧
    (s.acceptHello h).vcp.sessions = s.vcp.sessions ∧ x.clientRandom = h.clientRandom ∧ x.created = s.now ∧ x.hello.session = x.id ∧
    x.hello.maxDatagram = min h.maxDatagram 8960 ∧
    (∃ k, x.keys = sessionKeys h.clientRandom x.hello.moduleRandom (curveMul k h.share / 2 ^ 384) ∧ x.hello.moduleShare = curveMul k curveG) ∧
    1 ≤ x.id ∧ (∀ y ∈ s.vcp.half, y.id ≠ x.id) ∧ (∀ y ∈ s.vcp.sessions, y.id ≠ x.id) := by
  unfold State.acceptHello
  dsimp only [State.draw]
  simp only [half_sendHello, sessions_sendHello]
  exact ⟨_, rfl, trivial, rfl, rfl, rfl, rfl, ⟨_, rfl, rfl⟩, newId_spec { s.vcp with draws := _ } _⟩

/- CLIENT_FINISH. -/

/-- A session that is established has sequence 0 recorded as answered, with an empty reply. -/
theorem establish_spec (s : State) (h : HalfOpen) (x : VcpRx) :
    ∃ y, (s.establish h x).vcp.half = s.vcp.half.filter (fun q => q.id != h.id) ∧ (s.establish h x).vcp.sessions = s.vcp.sessions ++ [y] ∧
      y.id = h.id ∧ y.high = 0 ∧ y.txSeq = 1 ∧ y.established = s.now ∧ y.keys = h.keys ∧
      ∃ r, y.window = [{ seq := 0, tag := x.tag, st := .answered r }] ∧ r.cmdSeq = 0 ∧ r.status = .ok ∧ r.fragments = [[]] ∧ r.firstSeq = 0 := by
  unfold State.establish
  dsimp only [Session.formReply]
  simp only [State.raise_frame, half_sendReply, sessions_sendReply]
  exact ⟨_, trivial, rfl, rfl, rfl, rfl, rfl, rfl, _, rfl, rfl, rfl, rfl, rfl⟩

end Sys2Proof.Machine

namespace Sys2Proof.Proofs
open Sys2Proof Sys2Proof.Machine

/-- Settles O34, by the branches of CLIENT_HELLO and of CLIENT_FINISH. -/
theorem sessionsAreEstablished : Obligations.SessionsAreEstablished := by
  refine ⟨fun h s hvcp hjudge htype hrate hnew hstatus hsign => ?_, fun h s hvcp hjudge htype hrate hnew hstatus hsign => ?_,
    fun h s st hvcp hjudge htype hrate hnew hstatus => ?_, fun h s x hvcp hjudge htype hrate hx => ?_, fun h s hvcp hjudge htype hrate => ?_,
    fun x s h hvcp htype hjudge hhalf hsigned hroom => ?_, fun x s h hvcp htype hjudge hhalf => ⟨fun hsigned => ?_, fun hsigned hfull => ?_⟩⟩
  · have hrow := execClientHello_of_rate hvcp hjudge htype rfl rfl hrate
    simp only [State.greet, half_withAddr, find_eq_none_of_new hnew, helloStatus_withAddr, hstatus, canSign_withAddr, hsign, ↓reduceIte] at hrow
    obtain ⟨x, hx⟩ := acceptHello_spec (State.withAddr _ _ _) h
    rw [half_withAddr, sessions_withAddr] at hx
    exact ⟨_, x, hrow, hx⟩
  · refine (execClientHello_of_rate hvcp hjudge htype rfl rfl hrate).trans ?_
    simp only [State.greet, half_withAddr, find_eq_none_of_new hnew, helloStatus_withAddr, hstatus, canSign_withAddr, hsign, Bool.false_eq_true,
      ↓reduceIte]
    rfl
  · refine (execClientHello_of_rate hvcp hjudge htype rfl rfl hrate).trans ?_
    simp only [State.greet, half_withAddr, find_eq_none_of_new hnew, helloStatus_withAddr, hstatus]
    rfl
  · refine (execClientHello_of_rate hvcp hjudge htype rfl rfl hrate).trans ?_
    simp only [State.greet, half_withAddr, hx]
    rfl
  · exact execClientHello_of_not_rate hvcp hjudge htype rfl rfl hrate
  · obtain ⟨y, hy⟩ := establish_spec (s.advance x.dt) h x
    refine ⟨_, y, ?_, hy⟩
    simp [exec, execClientFinish, hvcp, htype, hjudge, hhalf, hsigned, Nat.not_le.2 hroom]
  · simp [exec, execClientFinish, hvcp, htype, hjudge, hhalf, hsigned]
  · simp [exec, execClientFinish, hvcp, htype, hjudge, hhalf, hsigned, hfull]

end Sys2Proof.Proofs
end

section
/-! SUPPORT. Pools and escapements: trigger words, walks, starts, expiry and completion of tasks (R59 to R79, R302). -/

namespace Sys2Proof.Machine

/- Pools and tables. -/

theorem Tab.getD_put {α : Type} (t : Tab α) (j k : Nat) (a d : α) : (t.put k a).getD j d = if j = k then a else t.getD j d := by
  unfold Tab.getD
  rw [Tab.find_put]
  split <;> rfl

@[simp] theorem pool_setPool (s : State) (d : Nat) (p : Pool) : (s.setPool d p).pool d = p := by
  simp [State.pool, State.setPool, Tab.getD_put]

@[simp] theorem pool_modPool (s : State) (d : Nat) (f : Pool → Pool) : (s.modPool d f).pool d = f (s.pool d) := pool_setPool s d _

/-- What leaves the pools as they are leaves the pool of each die. -/
theorem pool_of_same {s t : State} (h : Part.pools.same s t) (d : Nat) : t.pool d = s.pool d := congrArg (fun x => Tab.getD x d ({} : Pool)) h

/-- A task is found under its identifier as it was put back. -/
theorem inst_setInst {p : Pool} {x i : Inst} (h : p.inst x.id = some i) : (p.setInst x).inst x.id = some x := by
  simp only [Pool.inst, Pool.setInst] at h ⊢
  generalize p.insts = l at h ⊢
  induction l with
  | nil => simp at h
  | cons y ys ih =>
    by_cases hy : y.id = x.id
    · simp [hy]
    · have hne : (y.id == x.id) = false := by simpa using hy
      rw [List.find?_cons, hne] at h
      simpa [hy, hne] using ih h

/- Trigger words (R302, R323). -/

/-- A double-bit error of a FIFO is among what the transfer of a word met (R323). -/
def wordSpoiled (haps : List Hap) : Bool := haps.any (fun h => match h with | .fifoUncorrected _ _ => true | _ => false)

theorem wordSpoiled_eq_false {haps : List Hap} (h : ∀ x ∈ haps, ∀ site fifo, x ≠ .fifoUncorrected site fifo) : wordSpoiled haps = false := by
  rw [wordSpoiled, List.any_eq_false]
  intro x hx
  split
  · next site fifo => exact absurd rfl (h _ hx site fifo)
  · simp

theorem wordSpoiled_eq_true {haps : List Hap} {site fifo : Nat} (h : .fifoUncorrected site fifo ∈ haps) : wordSpoiled haps = true :=
  List.any_eq_true.2 ⟨_, h, rfl⟩

/-- The word that a die makes of one that is sent: itself, or, if spoiled, the one after the previous word. -/
def Pool.wordMade (p : Pool) (g : Grid) (index : Nat) (spoiled : Bool) : TriggerWord :=
  match spoiled, (match ((p.words.filter (fun w => w.grid == g)).map (·.index)).getLast? with
    | some j => some j
    | none => (p.triggerOf g).map (fun u => g.indexAtOrBefore u)) with
  | true, some j => { grid := g, index := j + 1, stamp := g.beatAt (j + 1) }
  | _, _ => { grid := g, index := index, stamp := g.beatAt index }

/-- A word sent in time and in beat order is taken. -/
theorem execTriggerWord_of_order {dt die kind rate index : Nat} (haps : List Hap) {s : State} {g : Grid} (hg : gridOf kind rate = g)
    (hserving : (s.advance dt).serving = true) (hup : (s.advance dt).dieUpBy die (g.beatAt index) = true)
    (hruns : (s.advance dt).gridRuns (pkgOfDie die) g = true) (hlead : (s.advance dt).now + ns 10000 ≤ g.beatAt index)
    (hnew : ∀ u, ((s.advance dt).pool die).triggerOf g = some u → u < g.beatAt index)
    (horder : ∀ w ∈ ((s.advance dt).pool die).words, w.grid = g → w.index < index) :
    execTriggerWord dt die kind rate index haps s =
      .next (((s.advance dt).haps haps).modPool die (fun q =>
        { q with words := q.words ++ [((s.advance dt).pool die).wordMade g index (wordSpoiled haps)] })) := by
  subst hg
  unfold execTriggerWord
  extract_lets z g t p last old
  have hold : old = false := by
    simp only [old]
    split
    · next u hu => simpa using hnew u hu
    · rfl
  have hall : last.all (fun j => decide (j < index)) = true := by
    rw [List.all_map, List.all_eq_true]
    intro w hw
    obtain ⟨hmem, hgrid⟩ := List.mem_filter.1 hw
    exact decide_eq_true (horder w hmem (by simpa using hgrid))
  have hin : z.now + triggerLead ≤ t := hlead
  have hguard : (!(z.serving && z.dieUpBy die t && z.gridRuns (pkgOfDie die) g && decide (z.now + triggerLead ≤ t) && !old &&
      last.all (fun j => decide (j < index)))) = false := by
    simp [z, g, t, hserving, hup, hruns, hin, hold, hall]
  rw [if_neg (by simp [hguard])]
  rfl

theorem wordMade_of_good (p : Pool) (g : Grid) (index : Nat) : p.wordMade g index false = { grid := g, index := index, stamp := g.beatAt index } :=
  rfl

theorem wordMade_of_spoiled {p : Pool} {g : Grid} {w : TriggerWord} (index : Nat)
    (h : (p.words.filter (fun w => w.grid == g)).getLast? = some w) :
    p.wordMade g index true = { grid := g, index := w.index + 1, stamp := g.beatAt (w.index + 1) } := by
  simp [Pool.wordMade, List.getLast?_map, h]

/-- The pool of a die that releases a word of a grid. -/
def Pool.released (p : Pool) (g : Grid) (w : TriggerWord) : Pool :=
  { p with words := p.words.filter (fun x => !(x.grid == g && x.index == w.index)),
           triggered := (g, w.stamp) :: p.triggered.filter (fun x => x.1 != g) }

/-- A die releases its oldest word of a grid once its replica has read the word's stamp. -/
theorem execBeatTrigger_of_release {dt die kind rate : Nat} {s : State} {w : TriggerWord} (hserving : (s.advance dt).serving = true)
    (hup : (s.advance dt).dieUp die = true) (hw : ((s.advance dt).pool die).words.find? (fun w => w.grid == gridOf kind rate) = some w)
    (hrelease : releaseAt w.stamp (((s.advance dt).pool die).replicaNow w.stamp) ≤ (s.advance dt).now) :
    execBeatTrigger dt die kind rate s =
      .next (((s.advance dt).setPool die (((s.advance dt).pool die).released (gridOf kind rate) w)).latchAll (gridOf kind rate) w.stamp
        ((s.advance dt).pool die).insts) := by
  simp only [execBeatTrigger, hserving, hup, hw, hrelease, decide_true, Bool.and_self, Bool.not_true, Bool.false_eq_true, ↓reduceIte]
  rfl

/- Starts (R71). -/

theorem startable_of_free {p : Pool} {i : Inst} (hready : i.phase = .ready) (hreached : p.reached i = true)
    (hunit : ∀ j ∈ p.insts, j.desc.unit = i.desc.unit → j.serving = false)
    (hflow : i.desc.flow = 0 ∨ ∀ j ∈ p.insts, j.desc.flow = i.desc.flow → j.serving = false) : p.startable i = true := by
  have hbusy : p.busy i.desc.unit = false := by simpa [Pool.busy] using hunit
  have hfree : (i.desc.flow == 0 || !p.insts.any (fun j => j.desc.flow == i.desc.flow && j.serving)) = true := by simpa using hflow
  simp [Pool.startable, hready, hreached, hbusy, hfree]

/-- A task that may start, and before which no other of its unit may, is the next. -/
theorem next_of_startable {p : Pool} {i : Inst} (h : p.startable i = true)
    (hfirst : ∀ j ∈ p.insts, j.desc.unit = i.desc.unit → p.startable j = true → Inst.before j i = false) : p.next i = true := by
  simp only [Pool.next, h, Bool.true_and, List.all_eq_true]
  intro j hj
  by_cases hunit : j.desc.unit = i.desc.unit
  · cases hj' : p.startable j with
    | false => simp
    | true => simp [hfirst j hj hunit hj']
  · simp [hunit]

/-- A task that starts changes its die's pool by its own phase, except that a decode may end others. -/
theorem pools_begin {s : State} {die : Nat} {i : Inst} (hop : ∀ id, i.desc.op ≠ .decode id) :
    Part.pools.same (s.modPool die (fun p => p.setInst { i with phase := .inService s.now })) (s.begin_ die i) := by
  unfold State.begin_
  cases ho : i.desc.op with
  | decode id => exact absurd ho (hop id)
  | _ => exact Within.same (by simp)

/- Completion (R73, R74). -/

@[simp] theorem decrement_nil (die fuel : Nat) (s : State) : State.decrement die fuel [] s = s := by cases fuel <;> rfl

/-- When a task in service started. -/
def Inst.startOr (i : Inst) (now : Instant) : Instant := match i.phase with | .inService t => t | _ => now

/-- The state of a completion before the successors of the task are decremented. -/
def State.posted (s : State) (die : Nat) (i : Inst) (rest : List Nat) : State :=
  ((s.notePanic i (i.startOr s.now)).modPool die (fun p => (p.drop i.id).post i (i.outcome (decide (i.nextBeat < s.now))) (i.startOr s.now) s.now
    rest)).traceInst i (fun t => { t with completed := s.now, outcome := i.outcome (decide (i.nextBeat < s.now)) })

/-- The state of a completion with the count and the event of an overrun. -/
def State.overran (s : State) (i : Inst) (now : Instant) : State :=
  (s.modEsc i.cluster (fun e => { e with overrun := bump32 e.overrun })).escEvent now i.cluster 3 i.entry (nsOf (now - i.nextBeat))

/-- A task without successors completes with its record, and with its overrun. -/
theorem complete_of_leaf (s : State) (die : Nat) {i : Inst} (rest : List Nat) (h : i.desc.succ = []) :
    s.complete die i rest = if i.nextBeat < s.now then (s.posted die i rest).overran i s.now else s.posted die i rest := by
  unfold State.complete
  extract_lets start tardy s1 s2
  have hdecrs : s2.decrs i false s.now i.source = [] := by simp [State.decrs, h]
  rw [hdecrs, decrement_nil]
  simp only [s2, tardy, decide_eq_true_eq]
  rfl

@[simp] theorem events_posted (s : State) (die : Nat) (i : Inst) (rest : List Nat) : (s.posted die i rest).events = s.events :=
  Within.same (p := .events) (by simp [State.posted])

@[simp] theorem pool_traceInst (s : State) (i : Inst) (f : Trace → Trace) (die : Nat) : (s.traceInst i f).pool die = s.pool die :=
  pool_of_same (Within.same (by simp)) die

/-- A completion leaves the pool with the record, and without the task. -/
theorem pool_posted (s : State) (die : Nat) (i : Inst) (rest : List Nat) : (s.posted die i rest).pool die =
    ((s.pool die).drop i.id).post i (i.outcome (decide (i.nextBeat < s.now))) (i.startOr s.now) s.now rest := by
  have hpanic : (s.notePanic i (i.startOr s.now)).pool die = s.pool die := pool_of_same (Within.same (by simp)) die
  rw [← hpanic]
  exact (pool_traceInst _ i _ die).trans (pool_modPool _ die _)

end Sys2Proof.Machine

namespace Sys2Proof.Proofs
open Sys2Proof Sys2Proof.Machine

/-- Settles O42, by the words that a die takes and by what the release of its oldest word leaves. -/
theorem triggersAreReleased : Obligations.TriggersAreReleased := by
  refine ⟨fun dt die kind rate index haps s hserving hup hruns hlead hnew horder hgood => ?_,
    fun dt die kind rate index site fifo haps s w hserving hup hruns hlead hnew horder hbad hw => ?_,
    fun dt die kind rate s w hserving hup hw hrelease => ?_⟩
  · refine (execTriggerWord_of_order haps rfl hserving hup hruns hlead hnew horder).trans ?_
    rw [wordSpoiled_eq_false hgood, wordMade_of_good]
  · refine (execTriggerWord_of_order haps rfl hserving hup hruns hlead hnew horder).trans ?_
    rw [wordSpoiled_eq_true hbad, wordMade_of_spoiled index hw]
  · refine ⟨_, execBeatTrigger_of_release hserving hup hw hrelease, ?_⟩
    rw [pool_of_same (s := (s.advance dt).setPool die (((s.advance dt).pool die).released (gridOf kind rate) w)) (Within.same (by simp)) die,
      pool_setPool]
    exact ⟨by simp [Pool.released, Pool.triggerOf], rfl, rfl⟩

/-- Settles O43, by the branches of the two rows that walk. -/
theorem escapementsWalk : Obligations.EscapementsWalk := by
  refine ⟨fun dt cluster s b hserving hstalled hnext hup hdue hend hstall => ?_, fun dt cluster s b hserving hstalled hnext hup hdue hend hstall => ?_,
    fun dt cluster s b hnext hearly => ?_, fun dt cluster s x rest d hserving hup hstalled hentry hfree => ?_⟩
  · have hlate : ¬ b - walkLead < ((((s.advance dt).swapBank cluster b).modEsc cluster (fun e => { e with lastBeat := b })).esc cluster).stallEnd :=
      Nat.not_lt.2 hstall
    have hdue' : ¬ (s.advance dt).now < b - walkLead := Nat.not_lt.2 hdue
    simp [exec, execEscapementWalk, hserving, hstalled, hnext, hup, hdue', Nat.not_lt.2 hend, hlate]
  · have hlate : b - walkLead < ((((s.advance dt).swapBank cluster b).modEsc cluster (fun e => { e with lastBeat := b })).esc cluster).stallEnd :=
      hstall
    have hdue' : ¬ (s.advance dt).now < b - walkLead := Nat.not_lt.2 hdue
    simp only [exec, execEscapementWalk, hserving, hstalled, hnext, hup, hdue', Nat.not_lt.2 hend, hlate, List.isEmpty_nil, decide_true, decide_false,
      Bool.and_self, Bool.or_self, Bool.not_true, Bool.false_eq_true, ↓reduceIte]
    rfl
  · have hwait : (!(s.advance dt).dieUpBy (clusterDie cluster) b || decide ((s.advance dt).now < b - walkLead) ||
        decide ((s.advance dt).now < ((s.advance dt).esc cluster).walkEnd)) = true := by
      rcases hearly with hearly | hearly
      · have hdue : (s.advance dt).now < b - walkLead := hearly
        simp [hdue]
      · simp [hearly]
    simp only [exec, execEscapementWalk, hnext, hwait, ↓reduceIte, ite_self]
  · simp only [exec, execEscapementResume, hserving, hup, hstalled, hentry, hfree, BEq.rfl, Bool.and_self, Bool.not_true, Bool.false_eq_true, ↓reduceIte]
    split <;> rfl

/-- Settles O44: the first of a unit that may start starts, and stands in service in its pool. -/
theorem tasksStartInOrder : Obligations.TasksStartInOrder := by
  refine ⟨fun dt die inst s i hserving hup hheld hi hready hreached hunit hflow hfirst hop => ?_, fun dt die inst s i hi hphase => ?_,
    fun z die i hi hop => ?_⟩
  · have hnext := next_of_startable (startable_of_free hready hreached hunit hflow) hfirst
    simp [exec, execTaskStart, hserving, hup, hheld, hi, hnext, hop]
  · have hnot : ((s.advance dt).pool die).next i = false := by simp [Pool.next, Pool.startable, hphase]
    simp [exec, execTaskStart, hi, hnot]
  · rw [pool_of_same (pools_begin hop) die, pool_modPool]
    exact inst_setInst (x := { i with phase := .inService z.now }) hi

/-- Settles O45, by the branches of the two rows. -/
theorem tasksExpireAndWindowsEnd : Obligations.TasksExpireAndWindowsEnd := by
  refine ⟨fun dt die inst s i hserving hup hi hphase hcount hpast => ?_, fun dt die inst s i hi hdeadline => ?_,
    fun dt die inst s i hserving hup hi hop hphase hnext => ?_, fun dt die inst s i t0 hserving hup hi hop hphase hend => ?_⟩
  · simp [exec, execTaskExpired, hserving, hup, hi, hphase, hcount, hpast]
  · simp [exec, execTaskExpired, hi, Nat.not_lt.2 hdeadline]
  · simp only [exec, execTestWindow, hserving, hup, hi, hop, hphase, hnext, Bool.and_self, Bool.not_true, Bool.false_eq_true, bne_self_eq_false, ↓reduceIte]
    split <;> rfl
  · simp [exec, execTestWindow, hserving, hup, hi, hop, hphase, hend]

/-- Settles O46, by the record that a completion posts and the event of an overrun. -/
theorem lateCompletionIsOverrun : Obligations.LateCompletionIsOverrun := by
  intro z die i rest hsucc hrecord
  rw [complete_of_leaf z die rest hsucc]
  have hrecords : ∃ r, ((z.posted die i rest).pool die).records = (z.pool die).records ++ [r] ∧
      r.outcome = b2n i.expired + 2 * b2n i.inputsIncomplete + 4 * b2n i.predExpired + 8 * b2n (decide (i.nextBeat < z.now)) ∧
      r.beat = i.beat ∧ r.completed = z.now := by
    rw [pool_posted, Pool.post, if_pos hrecord]
    exact ⟨_, rfl, rfl, rfl, rfl⟩
  by_cases hlate : i.nextBeat < z.now
  · rw [if_pos hlate, if_pos hlate, ← events_posted z die i rest]
    exact ⟨rfl, hrecords⟩
  · rw [if_neg hlate, if_neg hlate, events_posted, List.append_nil]
    exact ⟨rfl, hrecords⟩

end Sys2Proof.Proofs
end

section
/-! SUPPORT. The rows of power and cooling (R388 to R398). -/

namespace Sys2Proof.Proofs
open Sys2Proof Sys2Proof.Machine

/-- Settles O59, by the branch that each row takes. -/
theorem powerRowsComplete : Obligations.PowerRowsComplete := by
  refine ⟨fun dt s hrun hpower => ?_, fun dt s t hinterrupted hlost hpast => ?_, fun dt s hinterrupted hrun => ?_, fun dt s hinterrupted hrun => ?_,
    fun dt s t0 hlost hrun hpast => ?_, fun dt st dv s hmerging hfits hchange => ?_, fun dt output cause s hmerging hmin hmax => ?_,
    fun dt readings tachs s hcooled hdue => ?_, fun dt fan rpm s hmerging hfan hslow hnew => ?_, fun dt site s t0 hmerging hsince hpast => ?_⟩
  · simp [exec, execMainsInterruption, hrun, hpower]
  · simp [exec, execHoldUpExpiry, hinterrupted, hlost, hpast]
  · have hgone : (s.advance dt).power.interrupted.isNone = false := by simpa using Option.ne_none_iff_isSome.1 hinterrupted
    simp [exec, execMainsRestored, hgone, hrun]
  · have hgone : (s.advance dt).power.interrupted.isNone = false := by simpa using Option.ne_none_iff_isSome.1 hinterrupted
    simp only [exec, execMainsRestored, hgone, hrun, BEq.rfl, Bool.false_eq_true, ↓reduceIte]
    exact ⟨_, _, rfl, rfl, rfl, rfl, rfl, rfl, rfl, rfl⟩
  · have hpast' : t0 + standbyHold ≤ (s.advance dt).start.balance := hpast
    simp only [exec, execStandbyRailDrop, hlost, hrun, hpast', BEq.rfl, decide_true, Bool.and_self, ↓reduceIte]
    exact ⟨_, rfl, rfl, rfl, rfl, rfl, rfl, rfl, rfl, rfl, rfl, rfl, rfl⟩
  · simp [exec, execPsuInput, hmerging, hfits, hchange]
  · simp [exec, execPsuFault, hmerging, hmin, hmax]
  · show execThermalLoop dt readings tachs s = _
    unfold execThermalLoop
    extract_lets z due
    have hnow : due = true := by
      rcases hdue with h | ⟨t, h, hpast⟩
      · simp [due, z, h]
      · simp [due, z, h, hpast]
    rw [if_pos (by simp [z, hcooled, hnow])]
  · simp [exec, execFanFailed, hmerging, hfan, hslow, hnew]
  · simp only [exec, execThermalStop, hmerging, hsince, hpast, decide_true, Bool.and_self, ↓reduceIte]
    exact ⟨_, _, rfl, rfl, rfl, rfl, rfl, rfl, rfl, rfl, rfl, rfl⟩

end Sys2Proof.Proofs
end

section
/-! SUPPORT. The order of events (R351), and their release to subscribers. -/

namespace Sys2Proof.Machine

/-- The order of R351: by stamp, then source, then package. -/
theorem before_iff (a b : EventRec) : a.before b = true ↔
    a.stamp < b.stamp ∨ (a.stamp = b.stamp ∧ (a.source < b.source ∨ (a.source = b.source ∧ a.pkg < b.pkg))) := by
  simp [EventRec.before]

theorem lex_asymm {a b c d e f : Nat} (h : a < b ∨ (a = b ∧ (c < d ∨ (c = d ∧ e < f)))) :
    ¬(b < a ∨ (b = a ∧ (d < c ∨ (d = c ∧ f < e)))) := by omega

theorem lex_not_trans {a b x c d y e f z : Nat} (hab : ¬(a < b ∨ (a = b ∧ (c < d ∨ (c = d ∧ e < f)))))
    (hbx : ¬(b < x ∨ (b = x ∧ (d < y ∨ (d = y ∧ f < z))))) : ¬(a < x ∨ (a = x ∧ (c < y ∨ (c = y ∧ e < z)))) := by omega

theorem not_before_of_before {a b : EventRec} (h : a.before b = true) : b.before a = false :=
  Bool.eq_false_iff.2 fun hba => lex_asymm ((before_iff a b).1 h) ((before_iff b a).1 hba)

/-- What comes no earlier than a record comes no earlier than one that is no later. -/
theorem not_before_trans {a b c : EventRec} (hab : a.before b = false) (hbc : b.before c = false) : a.before c = false := by
  rw [Bool.eq_false_iff, ne_eq, before_iff] at *
  exact lex_not_trans hab hbc

/-- The first record stands before no other, and the rest are the others. -/
theorem firstRecord_spec {l others : List EventRec} {r : EventRec} (h : firstRecord l = some (r, others)) :
    (∀ x ∈ others, x.before r = false) ∧ (r :: others).Perm l := by
  induction l generalizing r others with
  | nil => cases h
  | cons y ys ih =>
    simp only [firstRecord] at h
    split at h
    · next hnone =>
      cases h
      have hys : ys = [] := by
        cases ys with
        | nil => rfl
        | cons z zs =>
          simp only [firstRecord] at hnone
          split at hnone
          · cases hnone
          · split at hnone <;> cases hnone
      simp [hys]
    · next x rest hx =>
      obtain ⟨hmin, hperm⟩ := ih hx
      split at h
      · next hxy =>
        cases h
        refine ⟨fun z hz => ?_, ?_⟩
        · rcases List.mem_cons.1 hz with rfl | hz
          · exact not_before_of_before hxy
          · exact hmin z hz
        · exact (List.Perm.swap _ _ _).trans (hperm.cons y)
      · next hxy =>
        cases h
        refine ⟨fun z hz => ?_, List.Perm.refl _⟩
        have hxy' : x.before y = false := by simpa using hxy
        rcases List.mem_cons.1 (hperm.mem_iff.2 hz) with rfl | hz
        · exact hxy'
        · exact not_before_trans (hmin z hz) hxy'

theorem find_mapVals {α : Type} (t : Tab α) (f : Nat → α → α) (n : Nat) : (t.mapVals f).find n = (t.find n).map (f n) := by
  induction t with
  | nil => rfl
  | cons p t ih =>
    obtain ⟨j, a⟩ := p
    simp only [Tab.mapVals, List.map_cons, Tab.find] at ih ⊢
    split
    · next hj => rw [hj]; rfl
    · exact ih

end Sys2Proof.Machine

namespace Sys2Proof.Proofs
open Sys2Proof Sys2Proof.Machine

/-- Settles O57, by the branches of the three rows and by the order that `firstRecord` keeps. -/
theorem eventsAreOrdered : Obligations.EventsAreOrdered := by
  refine ⟨fun dt index s r hmerging hraised harrive => ⟨fun hintime => ?_, fun hlate => ?_⟩, fun dt s r others hmerging hfirst => ?_,
    fun b now lost r hadmits => ?_, fun dt sub kind s b x hlive hsub hsession hfree => ?_⟩
  · have hnot : ¬ r.stamp + releaseDelay < (s.advance dt).now := Nat.not_lt.2 hintime
    simp [exec, execEventArrival, hraised, hmerging, harrive, hnot, State.haps]
  · have hpast : r.stamp + releaseDelay < (s.advance dt).now := hlate
    simp [exec, execEventArrival, hraised, hmerging, harrive, hpast, State.haps]
  · obtain ⟨hmin, hperm⟩ := firstRecord_spec hfirst
    refine ⟨hmin, hperm, fun hdue => ?_, fun hearly hfrontier => ?_⟩
    · have hdue' : r.stamp + releaseDelay ≤ (s.advance dt).now := hdue
      simp only [exec, execEventRelease, hfirst, hmerging, hdue', true_or, decide_true, Bool.and_self, ↓reduceIte]
      exact ⟨_, rfl, rfl, rfl, fun n => find_mapVals _ (fun n (b : Subscriber) => b.offer (s.advance dt).now ((s.advance dt).lostRecord n 1) r) n⟩
    · have hearly' : ¬ r.stamp + releaseDelay ≤ (s.advance dt).now := Nat.not_le.2 hearly
      simp [exec, execEventRelease, hfirst, hearly', Nat.not_le.2 hfrontier]
  · simp [Subscriber.offer, hadmits]
  · simp [exec, execEventPacketSend, hsub, hsession, hlive, hfree]

end Sys2Proof.Proofs
end

section
/-! SUPPORT. Slices of the background self-test (R373 to R376), and the rows of starts and tests. -/

namespace Sys2Proof.Machine

/-- An instant of a round names one offset: the one that a die may start a slice at. -/
theorem sliceOffset_of_now {s : State} {die k : Nat} (hk : k < 4) (hfree : s.start.startedIn die (secOf s.now / 2) ≤ k)
    (hnow : s.now = sec (2 * (secOf s.now / 2)) + ms (100 * diePlace die + 10 * k)) : s.sliceOffset die = some k := by
  have hpred : (fun j => decide (s.start.startedIn die (secOf s.now / 2) ≤ j) &&
      s.now == sec (2 * (secOf s.now / 2)) + ms (100 * diePlace die + 10 * j)) = (fun j => j == k) := by
    funext j
    by_cases hj : j = k
    · subst hj
      simpa [← hnow] using hfree
    · have hne : s.now ≠ sec (2 * (secOf s.now / 2)) + ms (100 * diePlace die + 10 * j) := by
        intro heq
        have hms := Nat.add_left_cancel (hnow.symm.trans heq)
        simp only [ms, ns] at hms
        omega
      rw [beq_eq_false_iff_ne.2 hne, Bool.and_false, beq_eq_false_iff_ne.2 hj]
  have hall : ∀ i < 4, [0, 1, 2, 3].find? (fun j => j == i) = some i := by decide
  have hfind := hall k hk
  rw [← hfind, ← hpred, State.sliceOffset]

/-- A slice that starts claims its target, is listed last, and passes its offset of the round. -/
theorem execBistSliceStart_of_offset {dt die kind target k u : Nat} {s : State} (hruns : (s.advance dt).testsRun die = true)
    (hoffset : (s.advance dt).sliceOffset die = some k) (hk : k < 4) (htarget : sliceTarget (s.advance dt) kind target = true)
    (hdie : testDie target = die) (hholder : (s.advance dt).vcp.holder (.bistSlice target) = none)
    (hunit : (if kind = 6 then sliceUnit (s.advance dt) target else some 0) = some u) :
    ∃ t, execBistSliceStart dt die kind target s = .next t ∧ t.vcp = ((s.advance dt).takeClaim target 0 0 (.bistSlice target)).vcp ∧
      t.start.slices = (s.advance dt).start.slices ++
        [{ die := die, kind := kind, target := target, claim := (s.advance dt).vcp.nextClaim, started := (s.advance dt).now, unit := u }] ∧
      t.start.startedIn die (secOf (s.advance dt).now / 2) = k + 1 := by
  unfold execBistSliceStart
  extract_lets z round offset res cu id unit s1 s2 key old t
  have hoff : offset = k := by simp only [offset, z, hoffset, Option.getD_some]
  have hcu : cu = some u := hunit
  have hu : unit = u := by simp only [unit, hcu, Option.getD_some]
  have hguard : (z.testsRun die && decide (offset < 4) && sliceTarget z kind target && testDie target == die && (z.vcp.holder res).isNone &&
      cu.isSome) = true := by
    simp [z, res, hruns, hoff, hk, htarget, hdie, hholder, hcu]
  have hstart : s2.start = z.start ∧ s2.vcp = s1.vcp ∧ s2.now = z.now := by
    simp only [s2]
    split <;> exact ⟨rfl, rfl, rfl⟩
  obtain ⟨hstart, hvcp, hnow⟩ := hstart
  rw [if_pos hguard]
  refine ⟨_, rfl, hvcp, ?_, ?_⟩
  · simp only [hstart, hnow, hu]
    rfl
  · simp [StartState.startedIn, Tab.find_put, hoff, round, z]

end Sys2Proof.Machine

namespace Sys2Proof.Proofs
open Sys2Proof Sys2Proof.Machine

/-- Settles O58, by the branch that each row takes; the offset of a slice is the only one of its instant. -/
theorem startRowsComplete : Obligations.StartRowsComplete := by
  refine ⟨fun dt s hrun => ?_, fun dt n fails s hrun hintime hcool => ?_, fun dt n sites s hrun hlate hhere => ?_, fun dt s hrun => ?_,
    fun dt s hrun => ?_, fun dt die s hserving hdie hup => ?_, fun dt die s hserving hdie hpkg hwork => ?_,
    fun dt die kind target k u s hruns hk hfree hnow htarget hdie hholder hunit hnone => ?_,
    fun dt die target misr s x hx hran hmore => ?_, fun dt die target misr faults s x hx hkind hran => ?_,
    fun dt die done failures sigOk restartOk s hserving hdie hpkg hwork => ?_, fun dt fitted s => ?_⟩
  · simp [exec, execMainsApplied, hrun]
  · simp only [exec, execStartStageComplete, hrun, hintime, hcool, and_self, ↓reduceIte]
  · simp only [exec, execStartStageTimeout, hrun]
    rw [if_pos ⟨hlate, hhere⟩]
  · simp [exec, execRestartDelay, hrun]
    split <;> rfl
  · simp [exec, execSettingModeRetry, hrun]
    split <;> rfl
  · simp [exec, execDieToDieLinkFailure, hserving, hdie, hup]
  · simp [exec, execDieRecoveryComplete, hserving, hdie, hpkg, hwork]
  · have hcu : (if kind = 6 then sliceUnit (s.advance dt) target else some 0) = some u := by
      split
      · next h => exact hunit h
      · next h => rw [hnone h]
    exact execBistSliceStart_of_offset hruns (sliceOffset_of_now hk hfree hnow) hk htarget hdie hholder hcu
  · have hcounted : ¬((x.kind = 1 ∨ x.kind = 2) ∧ x.ran = false) := by
      rintro ⟨hkind, hnot⟩
      simp [hran hkind] at hnot
    simp only [exec, execBistSliceEnd, hx]
    rw [if_neg hcounted, if_neg (Nat.not_le.2 hmore)]
    refine ⟨_, rfl, ?_, ?_, ?_⟩
    · split <;> rfl
    · split <;> rfl
    · split <;> exact (Tab.find_put _ _ _ _).trans (if_pos rfl)
  · simp only [exec, execBistSliceEnd, hx]
    rw [if_pos ⟨hkind, hran⟩]
    refine ⟨_, rfl, ?_, fun hround => ?_, fun hround => ?_⟩
    · split <;> rfl
    · rw [if_pos hround]
    · rw [if_neg hround]
  · simp [exec, execOnCommandTestComplete, hserving, hdie, hpkg, hwork]
  · rfl

end Sys2Proof.Proofs
end

section
/-! SUPPORT. The rows of video and audio tasks. -/

namespace Sys2Proof.Machine

/- Beacons. -/

/-- Events of beacons are raised one for each entry, and leave the audio as it is. -/
theorem beaconEvents_spec (s : State) (l : List Heard) (at_ : Heard → Instant) (leg : Nat) :
    (l.foldl (fun (t : State) h => t.beaconEvent (at_ h) leg 0x0003 (dCode 56 32 h.tag)) s).audio = s.audio ∧
    (l.foldl (fun (t : State) h => t.beaconEvent (at_ h) leg 0x0003 (dCode 56 32 h.tag)) s).events.raised.length =
      s.events.raised.length + l.length := by
  induction l generalizing s with
  | nil => exact ⟨rfl, rfl⟩
  | cons h l ih =>
    obtain ⟨haudio, hcount⟩ := ih (s.beaconEvent (at_ h) leg 0x0003 (dCode 56 32 h.tag))
    refine ⟨haudio, hcount.trans ?_⟩
    simp [State.beaconEvent, State.raiseAt]
    omega

/- Access units. -/

/-- A head whose instant has come is abandoned, and the next judged. -/
theorem lapseAus_of_due {s : State} {id : Nat} {now t : Instant} {at_ : Bool} (f : Nat) (h : (s.decode id).bind DecodeStream.abandonAt = some t)
    (hdue : t < now ∨ (at_ ∧ t = now)) : State.lapseAus id now at_ (f + 1) s = State.lapseAus id now at_ f (s.abandonHead id t) := by
  simp only [State.lapseAus, h]
  exact if_pos hdue

/-- BEACON_LOST: what the leg has not heard for its timeout goes, with an event each. -/
theorem execBeaconLost_of_leg {dt leg : Nat} {s : State} {x : AudioLeg} (hserving : (s.advance dt).serving = true)
    (hx : (s.advance dt).audioLeg leg = some x) : execBeaconLost dt leg s =
      .next ((x.beacon.heard.filter (fun h => decide (h.at_ + sec x.beacon.cfg.heardTimeout ≤ (s.advance dt).now))).foldl
        (fun (t : State) h => t.beaconEvent (h.at_ + sec x.beacon.cfg.heardTimeout) leg 0x0003 (dCode 56 32 h.tag))
        ((s.advance dt).setLegA leg { x with beacon := { x.beacon with
          heard := x.beacon.heard.filter (fun h => !decide (h.at_ + sec x.beacon.cfg.heardTimeout ≤ (s.advance dt).now)) } })) := by
  simp only [execBeaconLost, hserving, hx, Bool.not_true, Bool.false_eq_true, ↓reduceIte]

end Sys2Proof.Machine

namespace Sys2Proof.Proofs
open Sys2Proof Sys2Proof.Machine

/-- Settles O48, by the branch that each row takes. -/
theorem videoTasksComplete : Obligations.VideoTasksComplete := by
  refine ⟨fun dt die inst haps s i id hup hi hop => ?_, fun dt die inst haps poison s i id hup hi hop => ?_,
    fun dt die inst haps poison s i id k hup hi hop => ?_, fun dt die inst haps poison s i id hup hi hop => ?_, fun z id c f hgone => ?_,
    fun z die id k i poison x hx => ⟨fun hgang => ?_, fun hgang => ?_⟩, fun z die id i poison x hx => ⟨fun hwhole => ?_, fun hwhole => ?_⟩,
    fun dt surface s g t0 hserving hg hpending hdue hold => ?_, fun dt stream s x t0 hserving hx habandon hdue => ?_⟩
  · simp [exec, execDecodeTask, hup, hi, hop]
  · simp [exec, execComposeTask, hup, hi, hop]
  · simp [exec, execEncodeTask, hup, hi, hop]
  · simp [exec, execGangFinish, hup, hi, hop]
  · simp [State.onEncode, hgone]
  · simp [State.encodeDone, hx, hgang]
  · simp [State.encodeDone, hx, hgang]
  · simp [State.gangDone, hx, hwhole]
  · simp [State.gangDone, hx, hwhole]
  · simp [exec, execGraphicCopy, hserving, hg, hpending, Nat.not_lt.2 hdue, hold]
  · have hlapse : t0 < (s.advance dt).now ∨ (true = true ∧ t0 = (s.advance dt).now) := (Nat.lt_or_eq_of_le hdue).imp id (fun h => ⟨rfl, h⟩)
    simp only [exec, execAuAbandon, hserving, hx, Bool.not_true, Bool.false_eq_true, ↓reduceIte, Option.map_some, Option.getD_some]
    rw [lapseAus_of_due x.held.length (by rw [hx]; exact habandon) hlapse]

/-- Settles O49, by the branch that each row takes; of a leg's beacon what is old goes, and the rest stays. -/
theorem audioTasksComplete : Obligations.AudioTasksComplete := by
  refine ⟨fun dt die inst haps s i id hup hi hop hfree => ?_, fun dt die inst haps poison s i id hup hi hop hfree => ?_,
    fun dt die inst haps poison transit s i t0 hup hi hphase hop => ?_, fun dt die s hlive hup hindex => ?_, fun dt leg s x hserving hx => ?_⟩
  · simp [exec, execReceiveTask, hup, hi, hop, hfree]
  · simp only [exec, execSendTask, hup, hi, hop, hfree, Bool.not_true, Bool.false_eq_true, ↓reduceIte]
    cases ((((s.advance dt).haps haps).takeScoped (.audioTask id) i.beat).sendBeat id i.beat i.inputsIncomplete poison).2 <;> rfl
  · have hservice : (s.advance dt).inService die inst = some i := by simp [State.inService, hi, hphase]
    simp [exec, execMix, hup, hservice, hop, hphase]
  · simp [exec, execTalkerSelection, hlive, hup, Nat.not_lt.2 hindex]
  · obtain ⟨haudio, hcount⟩ := beaconEvents_spec _ _ (fun h => h.at_ + sec x.beacon.cfg.heardTimeout) leg
    refine ⟨_, execBeaconLost_of_leg hserving hx, ?_, hcount⟩
    have hkept (h : Heard) : (!decide (h.at_ + sec x.beacon.cfg.heardTimeout ≤ (s.advance dt).now)) =
        decide ((s.advance dt).now < h.at_ + sec x.beacon.cfg.heardTimeout) := by
      rw [← decide_not, decide_eq_decide, Nat.not_le]
    rw [State.audioLeg, haudio]
    simp only [State.setLegA, Tab.find_put, hkept, ↓reduceIte]

end Sys2Proof.Proofs
end

section
/-! SUPPORT. Packets of streams on the standard and the express path (R84 to R108, R404). -/

namespace Sys2Proof.Machine

theorem find_modify {α : Type} (t : Tab α) (k : Nat) (f : α → α) : (t.modify k f).find k = (t.find k).map f := by
  induction t with
  | nil => rfl
  | cons p t ih =>
    obtain ⟨j, a⟩ := p
    simp only [Tab.modify, List.map_cons] at ih ⊢
    by_cases hj : j = k
    · simp [Tab.find, hj]
    · simp [Tab.find, hj, ih]

/-- A change of a stream is found in it. -/
theorem stream_modStream (s : State) (id : Nat) (f : Stream → Stream) : (s.modStream id f).stream id = (s.stream id).map f := find_modify _ _ _

theorem stream_countStream (s : State) (id : Nat) (f : StreamCtrs → StreamCtrs) :
    (s.countStream id f).stream id = (s.stream id).map (fun x => { x with ctrs := f x.ctrs }) :=
  stream_modStream s id (fun x => { x with ctrs := f x.ctrs })

/- Keys. -/

/-- What leaves the cipher engine as it is leaves every key context. -/
theorem key_of_same {s t : State} (h : Part.cipher.same s t) (id : Nat) : t.key id = s.key id := congrArg (fun c : CipherState => Tab.find c.keys id) h

theorem namedKey_of_same {s t : State} (h : Part.cipher.same s t) (x : Stream) (body : List Byte) : t.namedKey x body = s.namedKey x body := by
  simp only [State.namedKey, key_of_same h]

theorem verifies_of_same {s t : State} (h : Part.cipher.same s t) (key i : Nat) (header body : List Byte) :
    t.verifies key i header body = s.verifies key i header body := by
  simp only [State.verifies, key_of_same h]

/- Arrivals. -/

/-- The state in which a packet's happenings and its arrival are counted. -/
def State.arrived (s : State) (ctx : Nat) (p : RtpRx) : State := (s.haps p.haps).countArrival ctx p.len

/-- A counted arrival leaves the stream's window and configuration. -/
theorem stream_arrived {s : State} {ctx : Nat} {x : Stream} (p : RtpRx) (h : s.stream ctx = some x) :
    ∃ c, (s.arrived ctx p).stream ctx = some { x with ctrs := c } := by
  have hfwd : Part.fwd.same s (s.haps p.haps) := Within.same (by simp)
  have hx : (s.haps p.haps).stream ctx = some x := (congrArg (fun f : FwdState => Tab.find f.streams ctx) hfwd).trans h
  rw [State.arrived, State.countArrival, stream_countStream, hx]
  exact ⟨_, rfl⟩

theorem egress_arrived (s : State) (ctx : Nat) (p : RtpRx) : (s.arrived ctx p).egress = s.egress :=
  Within.same (p := .egress) (by simp [State.arrived])

/-- A packet that is new to its window, and which no policer meets, is marked. -/
theorem letIn_of_new {s : State} {ctx i : Nat} {x : Stream} {seq : W16} (ipLen dscp : Nat) (hx : s.stream ctx = some x)
    (hpolicer : s.egress.policers.find x.cfg.policer = none) (hi : rtpIndex x.highIndex seq.toNat = some i) (hnew : x.replayed i = false) :
    s.letIn ctx seq ipLen dscp = (s.modStream ctx (fun y => y.mark i), some i) := by
  have hpolice : (s.modStream ctx (fun y => y.mark i)).police ctx x ipLen dscp = (s.modStream ctx (fun y => y.mark i), false) := by
    simp only [State.police, State.modStream, hpolicer]
  simp [State.letIn, hx, hi, hnew, hpolice]

/-- A replay is counted, and goes no further. -/
theorem letIn_of_replayed {s : State} {ctx i : Nat} {x : Stream} {seq : W16} (ipLen dscp : Nat) (hx : s.stream ctx = some x)
    (hi : rtpIndex x.highIndex seq.toNat = some i) (hold : x.replayed i = true) :
    s.letIn ctx seq ipLen dscp = (s.countStream ctx (fun c => { c with replay := c.replay + 1 }), none) := by
  simp [State.letIn, hx, hi, hold]

/-- A new packet of a context without a policer is marked on arrival. -/
theorem letIn_arrived {s : State} {ctx i : Nat} {x : Stream} (p : RtpRx) (hx : s.stream ctx = some x)
    (hpolicer : s.egress.policers.find x.cfg.policer = none) (hi : rtpIndex x.highIndex p.seq.toNat = some i) (hnew : x.replayed i = false) :
    (s.arrived ctx p).letIn ctx p.seq p.ipLen p.dscp = ((s.arrived ctx p).modStream ctx (fun y => y.mark i), some i) := by
  obtain ⟨c, hc⟩ := stream_arrived p hx
  exact letIn_of_new p.ipLen p.dscp hc (by rw [egress_arrived]; exact hpolicer) hi hnew

/-- The rows of packets that reach a context. -/
theorem execRtpPacket_of_context {p : RtpRx} {s : State} {ctx : Nat} {x : Stream} (hreaches : (s.advance p.dt).reachesClusters p.frame = true)
    (hfcs : fcsGood p.bytes = true) (hctx : (s.advance p.dt).contextOf p = some (ctx, x)) (hpinned : x.pinned = false) :
    execRtpPacket p s = .next ((s.advance p.dt).standardPath ctx x p) := by
  simp [execRtpPacket, hreaches, hfcs, hctx, hpinned]

theorem execExpressPacket_of_context {p : RtpRx} {s : State} {ctx : Nat} {x : Stream} (hreaches : (s.advance p.dt).reachesClusters p.frame = true)
    (hctx : (s.advance p.dt).contextOf p = some (ctx, x)) (hpinned : x.pinned = true) :
    execExpressPacket p s = .next ((s.advance p.dt).expressPath ctx x p) := by
  simp [execExpressPacket, hreaches, hctx, hpinned]

/-- A new packet whose UDP checksum is good, or which has a key, is judged by its key context. -/
theorem standardPath_of_new {s : State} {ctx i : Nat} {x : Stream} {p : RtpRx} (hudp : x.cfg.keyCtx ≠ 0 ∨ p.udpOk = true)
    (hx : s.stream ctx = some x) (hpolicer : s.egress.policers.find x.cfg.policer = none) (hi : rtpIndex x.highIndex p.seq.toNat = some i)
    (hnew : x.replayed i = false) :
    s.standardPath ctx x p = ((s.arrived ctx p).modStream ctx (fun y => y.mark i)).judgeRtp ctx i x p := by
  have hgood : ¬(x.cfg.keyCtx = 0 ∧ (!p.udpOk) = true) := by rcases hudp with h | h <;> simp [h]
  have hlet := letIn_arrived p hx hpolicer hi hnew
  simp only [State.arrived] at hlet
  simp only [State.standardPath, if_neg hgood, hlet]
  rfl

/-- Under a key context that grants a use, a packet is passed on or counted as its tag says. -/
theorem judgeRtp_of_key {s : State} {ctx i key : Nat} {x : Stream} {p : RtpRx} (hpoison : p.poison = false) (hkey : x.cfg.keyCtx ≠ 0)
    (hnamed : s.namedKey x p.rtp.body = some key) (hgrant : (s.grant key false).2 = true) :
    s.judgeRtp ctx i x p = if s.verifies key i p.header p.rtp.body then
      (((s.grant key false).1.openRtp ctx i x.cfg key p).authenticate ctx i key).passPacket ctx p (p.clear (s.key key) i)
    else (((s.grant key false).1.openRtp ctx i x.cfg key p).unmark ctx i).authFailed ctx p.seq 1 x.targets.length := by
  simp only [State.judgeRtp, hpoison, hkey, hnamed, Bool.false_eq_true, ↓reduceIte]
  generalize s.grant key false = g at hgrant
  obtain ⟨s1, ok⟩ := g
  obtain rfl : ok = true := hgrant
  rfl

end Sys2Proof.Machine

namespace Sys2Proof.Proofs
open Sys2Proof Sys2Proof.Machine

/-- Settles O50, by the branches of the two paths and of the rows that end them. -/
theorem packetsAreForwarded : Obligations.PacketsAreForwarded := by
  refine ⟨fun p s ctx x hreaches hfcs hctx hpinned => execRtpPacket_of_context hreaches hfcs hctx hpinned,
    fun p s ctx i x hreaches hfcs hctx hx hpinned hpolicer hi hnew hkey hudp hpoison => ?_,
    fun p s ctx i key x hreaches hfcs hctx hx hpinned hpolicer hi hnew hkey hpoison hnamed hgrant => ?_,
    fun p s ctx i x hreaches hfcs hctx hx hpinned => ⟨fun hkey hudp => ?_, fun hudp hi hold => ?_⟩,
    fun p s ctx x hreaches hctx hpinned => execExpressPacket_of_context hreaches hctx hpinned,
    fun p s ctx i x hreaches hctx hx hpinned hpolicer hi hnew hgrant => ?_, fun dt cut s c hc hdue => ?_, fun dt cut s c hc hdue => ?_,
    fun f s ctx x hreaches hfcs hversion hmin hmax hctx => ?_, fun f s hreaches hfcs hversion hmin hmax hbound hctx => ?_⟩
  · refine (execRtpPacket_of_context hreaches hfcs hctx hpinned).trans ?_
    rw [standardPath_of_new (.inr hudp) hx hpolicer hi hnew]
    simp [State.judgeRtp, hpoison, hkey, State.arrived]
  · have hsame : Part.cipher.same (s.advance p.dt) (((s.advance p.dt).arrived ctx p).modStream ctx (fun y => y.mark i)) :=
      Within.same (by simp [State.arrived])
    have hjudge := judgeRtp_of_key (ctx := ctx) (i := i) hpoison hkey ((namedKey_of_same hsame x p.rtp.body).trans hnamed) hgrant
    rw [verifies_of_same hsame, key_of_same hsame] at hjudge
    have hrow := (execRtpPacket_of_context hreaches hfcs hctx hpinned).trans
      (congrArg Host.Outcome.next ((standardPath_of_new (.inl hkey) hx hpolicer hi hnew).trans hjudge))
    exact ⟨fun hverifies => hrow.trans (congrArg Host.Outcome.next (if_pos hverifies)),
      fun hverifies => hrow.trans (congrArg Host.Outcome.next (if_neg (by simp [hverifies])))⟩
  · refine (execRtpPacket_of_context hreaches hfcs hctx hpinned).trans ?_
    simp [State.standardPath, hkey, hudp]
  · refine (execRtpPacket_of_context hreaches hfcs hctx hpinned).trans ?_
    have hgood : ¬(x.cfg.keyCtx = 0 ∧ (!p.udpOk) = true) := by rcases hudp with h | h <;> simp [h]
    obtain ⟨c, hc⟩ := stream_arrived p hx
    have hlet := letIn_of_replayed p.ipLen p.dscp hc hi hold
    simp only [State.arrived] at hlet
    simp only [State.standardPath, if_neg hgood, hlet]
  · refine (execExpressPacket_of_context hreaches hctx hpinned).trans ?_
    have hlet := letIn_arrived p hx hpolicer hi hnew
    simp only [State.arrived] at hlet
    simp only [State.expressPath, hlet]
    generalize (if x.cfg.keyCtx = 0 then ((((s.advance p.dt).haps p.haps).countArrival ctx p.len).modStream ctx (fun y => y.mark i), true)
      else ((((s.advance p.dt).haps p.haps).countArrival ctx p.len).modStream ctx (fun y => y.mark i)).grant x.cfg.keyCtx false) = g at hgrant ⊢
    obtain ⟨w, ok⟩ := g
    obtain rfl : ok = true := hgrant
    rfl
  · simp only [exec, execTagVerdict, hc, Nat.not_lt.2 hdue, ↓reduceIte, State.passCut]
    split <;> rfl
  · simp only [exec, execIngressFrameEnd, hc, Nat.not_lt.2 hdue, ↓reduceIte, State.stompCut, Bool.or_eq_true, List.isEmpty_iff]
    split <;> rfl
  · have hbound : ((s.advance f.dt).fwd.bound f.port f.ip.family f.ip.dst f.dstUdp).isEmpty = false := by
      cases hb : (s.advance f.dt).fwd.bound f.port f.ip.family f.ip.dst f.dstUdp with
      | nil => simp [FwdState.lookup, hb] at hctx
      | cons => rfl
    have hrow : exec (.rtcpPacket f) s = .next (((s.advance f.dt).haps f.haps).rtcpOf ctx x f) := by
      simp [exec, execRtcpPacket, hreaches, hfcs, hversion, hmin, hmax, hbound, hctx]
    refine ⟨hrow, fun hkey => hrow.trans ?_⟩
    simp only [State.rtcpOf, hkey, ↓reduceIte]
    rfl
  · simp [exec, execRtcpPacket, hreaches, hfcs, hversion, hmin, hmax, hbound, hctx]

end Sys2Proof.Proofs
end

section
/-! SUPPORT. The rows of egress (R137, R139, R146, R149). -/

namespace Sys2Proof.Machine

/-- An idle interface starts the frame of the class and the leg that it chooses. -/
theorem execEgressSelect_of_choice {dt port iface k id : Nat} {s : State} (hlive : (s.advance dt).live = true) (hport : port ≤ 1)
    (hiface : ((s.advance dt).port port).hasIface iface = true) (hpkg : (s.advance dt).pkgUp port = true)
    (hidle : ((s.advance dt).egress.iface (ifNo port iface)).tx = none)
    (hclass : (chooseClass ((s.advance dt).noteMisses port iface) port iface).1 = some k)
    (hleg : (chooseLeg ((s.advance dt).noteMisses port iface) port iface k).1 = some id) :
    execEgressSelect dt port iface s = .next ((((s.advance dt).noteMisses port iface).startFrame port iface k id
      (chooseClass ((s.advance dt).noteMisses port iface) port iface).2
      (chooseLeg ((s.advance dt).noteMisses port iface) port iface k).2).noteMisses port iface) := by
  have hc : chooseClass ((s.advance dt).noteMisses port iface) port iface = (some k, _) := Prod.ext hclass rfl
  have hl : chooseLeg ((s.advance dt).noteMisses port iface) port iface k = (some id, _) := Prod.ext hleg rfl
  simp only [execEgressSelect, hlive, hport, hiface, hpkg, hidle, decide_true, Bool.and_self, Bool.not_true, Option.isSome_none, Bool.false_eq_true,
    ↓reduceIte]
  rw [hc]
  dsimp only
  rw [hl]

end Sys2Proof.Machine

namespace Sys2Proof.Proofs
open Sys2Proof Sys2Proof.Machine

/-- Settles O52, by the branch that each row takes. -/
theorem framesAreTransmitted : Obligations.FramesAreTransmitted := by
  refine ⟨fun dt port iface k id s hlive hport hiface hpkg hidle hclass hleg => execEgressSelect_of_choice hlive hport hiface hpkg hidle hclass hleg,
    fun dt port iface s f hf hend => ?_, fun dt port iface s f hf hearly hcuts => ?_, fun dt timer s t hlive ht hopen hnew => ?_,
    fun dt pkg s hserving hpkg hup hinterval hwhole hdue hlegs => ?_⟩
  · simp only [exec, execTransmitComplete, hf, hend, ↓reduceIte]
  · simp [exec, execTransmitComplete, hf, Nat.not_le.2 hearly, hcuts]
  · simp [exec, execLaunchWindowOpen, ht, hlive, hopen, hnew]
  · have hrow : (!((s.advance dt).serving && decide (pkg ≤ 1) && (s.advance dt).pkgUp pkg && ((s.advance dt).egress.sampling pkg).intervalUs != 0 &&
        (s.advance dt).now % 65536 == 0 && nsOf (s.advance dt).now % 1000000000 % (((s.advance dt).egress.sampling pkg).intervalUs * 1000) == 0)) =
        false := by
      simp [hserving, hpkg, hup, hinterval, hwhole, hdue]
    have hrecs : (((s.advance dt).egress.sampling pkg).legs.map (sampleOf (s.advance dt))).isEmpty = false := by simpa using hlegs
    simp only [exec, execQueueSample, hrow, hrecs, Bool.false_eq_true, ↓reduceIte]
    exact ⟨_, rfl, rfl, rfl⟩

end Sys2Proof.Proofs
end

section
/-! SUPPORT. The rows of the timebase (R282 to R303). -/

namespace Sys2Proof.Machine

/-- The source of the present measures goes on while it is the first that is ready. -/
theorem execRegulatorUpdate_of_source {dt x T : Nat} {e : Int} {s : State} (hserving : (s.advance dt).serving = true)
    (hforced : (s.advance dt).time.forced = false) (hsource : (s.advance dt).time.source = x)
    (hfirst : ((s.advance dt).time.reg.list.filter (fun y => ((s.advance dt).ready y).isSome)).head? = some x)
    (hready : (s.advance dt).ready x = some (e, T)) :
    execRegulatorUpdate dt s = .next ((s.advance dt).useUp.measure (s.advance dt).view e T) := by
  subst hsource
  simp [execRegulatorUpdate, hserving, hforced, hfirst, hready]

end Sys2Proof.Machine

namespace Sys2Proof.Proofs
open Sys2Proof Sys2Proof.Machine

/-- Settles O54, by the branch that each row takes. -/
theorem timeRowsComplete : Obligations.TimeRowsComplete := by
  refine ⟨fun dt x T e s hserving hforced hsource hfirst hready => execRegulatorUpdate_of_source hserving hforced hsource hfirst hready,
    fun dt s hserving hnone => ?_, fun dt x s hserving hsource hsilent hnext => ?_, fun dt s hserving hmode htraceable hnew hlimit => ?_,
    fun dt stamp s hserving hmode htaken => ?_, fun dt stamp l s hserving hmode hlast hfar => ?_, fun dt l edges s hserving hmode hlast => ?_,
    fun dt failed s hserving hlost hwhy => ?_, fun dt s c hserving hout hedge hopen hnew => ?_, fun dt s c hserving hout hmode hnew hdue hopen => ?_,
    fun dt err s hlive hdue => ?_, fun dt die err s hserving hdie hup hdue => ?_, fun dt s hlive hstable halarm => ?_,
    fun dt on s hlive hchange => ?_⟩
  · simp [exec, execRegulatorUpdate, hserving, hnone]
  · simp only [exec, execSourceTimeout, hserving, hsilent, bne_iff_ne.2 hsource, hnext, decide_true, Bool.and_self, ↓reduceIte]
  · simp only [exec, execHoldoverExpired, hserving, hmode, htraceable, hnew, hlimit, BEq.rfl, decide_true, Bool.not_false, Bool.and_self, ↓reduceIte]
  · rcases htaken with h | ⟨l, h, hnear⟩
    · simp only [exec, execTimeInEdge, hserving, hmode, h, BEq.rfl, Bool.and_self, Bool.not_true, Bool.false_eq_true, ↓reduceIte]
    · simp only [exec, execTimeInEdge, hserving, hmode, h, hnear, BEq.rfl, decide_true, Bool.and_self, Bool.not_true, Bool.false_eq_true, ↓reduceIte]
  · simp only [exec, execTimeInEdge, hserving, hmode, hlast, Nat.not_le.2 hfar, BEq.rfl, decide_false, Bool.and_self, Bool.not_true,
      Bool.false_eq_true, ↓reduceIte]
    split
    · exact ⟨_, rfl, rfl, rfl, rfl⟩
    · exact ⟨_, rfl, rfl, rfl, rfl⟩
  · simp [exec, execTimeInAverage, hserving, hmode, hlast]
  · rcases hwhy with ⟨hmode, hsilent⟩ | ⟨hmode, hfailed⟩
    · simp [exec, execTimeInLost, hserving, hmode, hsilent, hlost]
    · simp [exec, execTimeInLost, hserving, hmode, hfailed, hlost]
  · simp [exec, execTimeOutEdge, hserving, hout, hedge, hopen, hnew]
  · simp [exec, execOneShot, hserving, hout, hmode, hnew, hdue, hopen]
  · simp [exec, execCounterCompare, hlive, hdue]
  · simp [exec, execReplicaCheck, hserving, hdie, hup, hdue]
  · simp [exec, execOcxoStable, hlive, hstable, halarm]
  · simp [exec, execOcxoAlarm, hlive, hchange]

end Sys2Proof.Proofs
end

section
/-! SUPPORT. Refresh, temperature, scrub and beat audits (R313 to R327). -/

namespace Sys2Proof.Machine

@[simp] theorem stack_setStack (s : State) (k : Nat) (x : Stack) : (s.setStack k x).stack k = x := by
  simp [State.stack, State.setStack, Tab.getD_put]

/- The grant of an arbiter with a refresh due (R314). -/

theorem oldestReq_of_ne_nil {l : List MemReq} (h : l ≠ []) : ∃ r, oldestReq l = some r := by
  obtain ⟨r, l, rfl⟩ := List.exists_cons_of_ne_nil h
  simp only [oldestReq, List.foldl_cons]
  induction l generalizing r with
  | nil => exact ⟨r, rfl⟩
  | cons q l ih =>
    rw [List.foldl_cons]
    dsimp only
    split
    · exact ih q (by simp)
    · exact ih r (by simp)

/-- No real-time request waits. -/
theorem filter_realTime_eq_nil {reqs : List MemReq} (h : reqs.any (·.realTime) = false) : reqs.filter (·.realTime) = [] := by
  simpa [List.filter_eq_nil_iff] using h

theorem filter_realTime_ne_nil {reqs : List MemReq} (h : reqs.any (·.realTime) = true) : reqs.filter (·.realTime) ≠ [] := by
  simpa [List.filter_eq_nil_iff] using h

section
variable {n allowance pch : Nat} {last : Bool} {panics : Nat → Bool} {reqs : List MemReq}

/-- Below the allowance a real-time request is granted ahead of the refresh, or a bulk one in its turn. -/
theorem arbiterGrant_of_waiting (h : reqs.any (·.realTime) = true) (hn : n < allowance) :
    ∃ r, arbiterGrant true n allowance last panics pch reqs = .request r := by
  have hrt := filter_realTime_ne_nil h
  have hlist : (if (last && !(reqs.filter (fun r => !r.realTime)).isEmpty || (reqs.filter (·.realTime)).isEmpty) = true
      then reqs.filter (fun r => !r.realTime) else reqs.filter (·.realTime)) ≠ [] := by
    split
    · next hbulk =>
      have hempty : (reqs.filter (·.realTime)).isEmpty = false := by simpa [List.isEmpty_eq_false_iff] using hrt
      rw [hempty, Bool.or_false, Bool.and_eq_true] at hbulk
      simpa [List.isEmpty_iff] using hbulk.2
    · exact hrt
  obtain ⟨r, hr⟩ := oldestReq_of_ne_nil hlist
  have hempty : (reqs.filter (·.realTime)).isEmpty = false := by simpa [List.isEmpty_eq_false_iff] using hrt
  simp only [arbiterGrant, Nat.not_le.2 hn, decide_false, Bool.and_false, Bool.false_and, Bool.false_eq_true, hempty, ↓reduceIte]
  split
  · exact ⟨_, rfl⟩
  · rw [hempty] at hr
    rw [hr]
    exact ⟨r, rfl⟩

/-- At the allowance the refresh is forced ahead of a real-time request. -/
theorem arbiterGrant_of_allowance (h : reqs.any (·.realTime) = true) (hn : allowance ≤ n) :
    arbiterGrant true n allowance last panics pch reqs = .forced := by
  have hempty : (reqs.filter (·.realTime)).isEmpty = false := by
    simpa [List.isEmpty_eq_false_iff] using filter_realTime_ne_nil h
  simp [arbiterGrant, hn, hempty]

/-- Without a real-time request the refresh is granted. -/
theorem arbiterGrant_of_no_waiting (h : reqs.any (·.realTime) = false) : arbiterGrant true n allowance last panics pch reqs = .refresh := by
  simp [arbiterGrant, filter_realTime_eq_nil h, oldestReq]

end

/-- What a refresh that falls due leaves of its pseudo-channel and its stack, by the grant of the arbiter. -/
def Stack.refreshed (x : Stack) (pch issued : Nat) (now : Instant) (g : Grant64) : Stack :=
  let p := x.pch pch
  let back := min issued p.postponed
  let n := p.postponed - back
  let postpone := match g with | .request _ => true | _ => false
  let p1 : Pch := { p with postponed := if postpone then n + 1 else n, due := p.due + x.mode.interval,
                           lastRefresh := if postpone then p.lastRefresh else now,
                           lastRealTime := match g with | .request r => r.realTime | _ => p.lastRealTime }
  { x with pchs := x.pchs.put pch p1
           maxPostponed := max x.maxPostponed p1.postponed
           refreshes := x.refreshes + BitVec.ofNat 64 (back + b2n (!postpone))
           forced := x.forced + BitVec.ofNat 64 (b2n (g == .forced)) }

/-- The grant that a refresh of a pseudo-channel meets when it falls due. -/
def State.refreshGrant (s : State) (stack pch issued : Nat) (reqs : List MemReq) : Grant64 :=
  let x := s.stack stack
  let p := x.pch pch
  arbiterGrant true (p.postponed - min issued p.postponed) x.mode.allowance p.lastRealTime
    (fun q => decide (stack < 8) && s.panics stack q) pch reqs

theorem execRefreshDue_of_due {dt stack pch issued : Nat} {reqs : List MemReq} {s : State} (hruns : (s.advance dt).stackRuns stack = true)
    (hpch : pch < 32) (hmode : ((s.advance dt).stack stack).mode ≠ .selfRefresh)
    (hdue : (((s.advance dt).stack stack).pch pch).due ≤ (s.advance dt).now) :
    execRefreshDue dt stack pch issued reqs s = .next ((s.advance dt).setStack stack (((s.advance dt).stack stack).refreshed pch issued
      (s.advance dt).now ((s.advance dt).refreshGrant stack pch issued reqs))) := by
  simp only [execRefreshDue, hruns, hpch, bne_iff_ne.2 hmode, hdue, decide_true, Bool.and_self, ↓reduceIte]
  rfl

@[simp] theorem pch_refreshed (x : Stack) (pch issued : Nat) (now : Instant) (g : Grant64) : (x.refreshed pch issued now g).pch pch =
    { x.pch pch with
      postponed := if (match g with | .request _ => true | _ => false) then (x.pch pch).postponed - min issued (x.pch pch).postponed + 1
        else (x.pch pch).postponed - min issued (x.pch pch).postponed
      due := (x.pch pch).due + x.mode.interval
      lastRefresh := if (match g with | .request _ => true | _ => false) then (x.pch pch).lastRefresh else now
      lastRealTime := match g with | .request r => r.realTime | _ => (x.pch pch).lastRealTime } := by
  simp [Stack.refreshed, Stack.pch, Tab.getD_put]

end Sys2Proof.Machine

namespace Sys2Proof.Proofs
open Sys2Proof Sys2Proof.Machine

/-- Settles O55, by the grant that a due refresh meets and the branch that each other row takes. -/
theorem memoryRowsComplete : Obligations.MemoryRowsComplete := by
  refine ⟨fun dt stack pch issued reqs s hruns hpch hmode hdue => ?_, fun dt stack t s hruns hlast hmode ht => ?_,
    fun dt stack t s hruns hlast hmode ht => ?_, fun dt stack t s hruns hlast hmode => ?_, fun dt stack pch found s hruns hpch hlast => ?_,
    fun dt die leaks s hruns hbeat => ?_⟩
  · refine ⟨_, execRefreshDue_of_due hruns hpch hmode hdue, ?_⟩
    rw [stack_setStack, pch_refreshed]
    refine ⟨rfl, fun ⟨hwait, hn⟩ => ?_, fun hnot => ?_⟩
    · obtain ⟨r, hr⟩ := arbiterGrant_of_waiting (last := _) (panics := _) (pch := pch) hwait hn
      rw [State.refreshGrant, hr]
      exact ⟨rfl, rfl, by simp [Stack.refreshed, b2n], by simp [Stack.refreshed, b2n]⟩
    · cases hwait : reqs.any (·.realTime) with
      | true =>
        rw [State.refreshGrant, arbiterGrant_of_allowance hwait (Nat.not_lt.1 fun hn => hnot ⟨hwait, hn⟩)]
        exact ⟨rfl, rfl, by simp [Stack.refreshed, b2n], by simp [Stack.refreshed, b2n]⟩
      | false =>
        rw [State.refreshGrant, arbiterGrant_of_no_waiting hwait]
        exact ⟨rfl, rfl, by simp [Stack.refreshed, b2n], by simp [Stack.refreshed, b2n]⟩
  · have hnormal : ((s.advance dt).stack stack).mode = .normal := hmode
    simp only [exec, execTemperatureReading, hruns, hlast, hnormal, ht, decide_true, Bool.and_self, ↓reduceIte]
  · have hdoubled : ((s.advance dt).stack stack).mode = .doubled := hmode
    have hcool : t < 95 := by omega
    simp only [exec, execTemperatureReading, hruns, hlast, hdoubled, ht, State.overtemp, hcool, decide_true, Bool.and_self, ↓reduceIte]
  · rcases hmode with ⟨hmode, ht⟩ | ⟨hmode, hmin, hmax⟩
    · have hnormal : ((s.advance dt).stack stack).mode = .normal := hmode
      have hcool : t < 95 := by omega
      simp only [exec, execTemperatureReading, hruns, hlast, hnormal, Int.not_le.2 ht, State.overtemp, hcool, decide_true, Bool.and_self, ↓reduceIte]
    · have hdoubled : ((s.advance dt).stack stack).mode = .doubled := hmode
      simp only [exec, execTemperatureReading, hruns, hlast, hdoubled, Int.not_lt.2 hmin, State.overtemp, hmax, decide_true, Bool.and_self, ↓reduceIte]
  · simp only [exec, execHbmScrub, hruns, hpch, hlast, decide_true, Bool.and_self, ↓reduceIte]
    exact ⟨_, rfl, by rw [stack_setStack], by rw [stack_setStack]⟩
  · simp only [exec, execBeatAudit, hruns, hbeat, Bool.and_self, ↓reduceIte]

end Sys2Proof.Proofs
end
